-- ==== Sys2Proof/Word.lean ====
section
/-! DEFINITION. The plain data types of the module: octets, 32-bit words, the Nat-indexed reading and
writing of fixed-length vectors, saturating counts. Nothing here follows a rule of its own. -/

namespace Sys2Proof

/-- One octet. -/
abbrev Byte := BitVec 8
/-- One 32-bit register word (R6). -/
abbrev Word := BitVec 32

/-- Element `i` of a vector; the type's default outside the range. -/
def vget {α : Type} [Inhabited α] {n : Nat} (v : Vector α n) (i : Nat) : α :=
  if h : i < n then v[i] else default

/-- The vector with element `i` replaced; unchanged outside the range. -/
def vset {α : Type} {n : Nat} (v : Vector α n) (i : Nat) (x : α) : Vector α n :=
  if h : i < n then v.set i x else v

/-- The vector with `f` applied to element `i`; unchanged outside the range. -/
def vmod {α : Type} [Inhabited α] {n : Nat} (v : Vector α n) (i : Nat) (f : α → α) : Vector α n :=
  vset v i (f (vget v i))

/-- Add to a saturating count of `w` bits. -/
def satAdd (w n k : Nat) : Nat := min (n + k) (2 ^ w - 1)

/-- A number held to a field of `w` bits, saturating (R116 and the register tables). -/
def satTo (w n : Nat) : Nat := min n (2 ^ w - 1)

/-- A signed number held to a signed field of `w` bits, saturating. -/
def satInt (w : Nat) (i : Int) : Int := max (-(2 ^ (w - 1) : Int)) (min i (2 ^ (w - 1) - 1))

/-- The two's complement of `i` in `w` bits, as a number. -/
def twos (w : Nat) (i : Int) : Nat := (i % (2 ^ w : Int)).toNat

/-- The signed value of the low `w` bits of `n`. -/
def ofTwos (w n : Nat) : Int :=
  let m := n % 2 ^ w
  if m < 2 ^ (w - 1) then (m : Int) else (m : Int) - (2 ^ w : Int)

/-- Bits `[hi:lo]` of `n`. -/
def bits (n hi lo : Nat) : Nat := n / 2 ^ lo % 2 ^ (hi + 1 - lo)

/-- 1 for true. -/
def b2n (b : Bool) : Nat := if b then 1 else 0

/-- A mask with bit `i` at the value `b`. -/
def setBit {w : Nat} (m : BitVec w) (i : Nat) (b : Bool) : BitVec w :=
  if b then m ||| (1#w <<< i) else m &&& ~~~(1#w <<< i)

/-- The mask of the numbers below `w` that satisfy `p`. -/
def maskOf (w : Nat) (p : Nat → Bool) : BitVec w :=
  BitVec.ofNat w ((List.range w).foldl (fun a i => if p i then a + 2 ^ i else a) 0)

/-- The numbers whose bit is set in the mask, ascending. -/
def maskBits {w : Nat} (m : BitVec w) : List Nat := (List.range w).filter (fun i => m.getLsbD i)

/-- The sum of a list of rationals. -/
def sumR (l : List Rat) : Rat := l.foldl (· + ·) 0
/-- The sum of a list of integers. -/
def sumI (l : List Int) : Int := l.foldl (· + ·) 0
/-- The sum of a list of numbers. -/
def sumN (l : List Nat) : Nat := l.foldl (· + ·) 0

/-- The magnitude of an integer. -/
def absI (i : Int) : Nat := i.natAbs
/-- The magnitude of a rational. -/
def absR (x : Rat) : Rat := if x < 0 then -x else x
/-- Quotient rounded up. -/
def ceilDiv (a b : Nat) : Nat := (a + b - 1) / b
/-- The smallest whole number not below `x`. -/
def ceilR (x : Rat) : Int := -((-x).floor)
/-- The nearest whole number, ties to even. -/
def rndEven (x : Rat) : Int :=
  let f := x.floor
  let d := x - f
  if d < 1/2 then f else if 1/2 < d then f + 1 else if f % 2 = 0 then f else f + 1
/-- The nearest whole number, a half away from zero upward. -/
def rndHalfUp (x : Rat) : Int := (x + 1/2).floor
/-- The smaller of two rationals. -/
def minR (x y : Rat) : Rat := if x ≤ y then x else y
/-- The larger of two rationals. -/
def maxR (x y : Rat) : Rat := if x ≤ y then y else x
/-- `x` held between `lo` and `hi`. -/
def clampR (lo hi x : Rat) : Rat := maxR lo (minR hi x)

end Sys2Proof
end

