-- ==== Sys2Proof/Syntax.lean ====
section
/-! DEFINITION. The commands of the module: one constructor of `Instr` per row of the operation table,
with what the row brings from outside the module (a frame's octets, samples, a land's level, who writes). -/

namespace Sys2Proof

/-- Who makes a register access: a session of the image, or the Gable port's own session (R312). -/
inductive Who where
  | session (n : Fin 8)
  | gable
deriving DecidableEq, Repr, Inhabited

/-- Where a host message arrives (R308). -/
inductive Via where
  | netA | netB | gable
deriving DecidableEq, Repr, Inhabited

/-- A network port (R4). -/
inductive NetPort where
  | netA | netB
deriving DecidableEq, Repr, Inhabited

/-- The redundancy control trailer of a received frame (R332): its sequence number, and whether its LanId names LAN B. -/
structure PrpTrailer where
  seq : BitVec 16
  lanB : Bool
deriving DecidableEq, Repr, Inhabited

/-- The source of a network frame: its MAC address and, where the frame carries one, its PRP trailer (R332). -/
structure LanSource where
  mac : BitVec 48
  trailer : Option PrpTrailer := none
deriving DecidableEq, Repr, Inhabited

/-- A Gable transaction in which the host sends octets to the module (R339): the octets after the operation octet, and
whether that octet was a reserved code, not WRITE's. -/
structure GableSend where
  octets : List Byte
  reserved : Bool := false
deriving DecidableEq, Repr, Inhabited

/-- A host message as it arrives: the port, the IPv4 source address and UDP source port, the source MAC and the octets
of the message (R308, R314, R315); the destination address and port, whether the datagram is a fragment, whether the
frame is tagged, and its trailer (R314, R330, R332). On the Gable port the octets alone count. -/
structure HostFrame where
  via : Via
  ip : Word := 0
  udp : BitVec 16 := 0
  mac : BitVec 48 := 0
  dstIp : Word := 0
  dstUdp : BitVec 16 := 0
  fragment : Bool := false
  tagged : Bool := false
  trailer : Option PrpTrailer := none
  octets : List Byte
deriving DecidableEq, Repr, Inhabited

/-- A frame on a monitor port's data lane: its octets, and whether a Manchester code violation was seen
(R93, R94). -/
structure LineFrame where
  octets : List Byte
  codeViolation : Bool
deriving DecidableEq, Repr, Inhabited

/-- The size of a store (R269). -/
inductive StoreSize where
  | byte | halfword | word
deriving DecidableEq, Repr, Inhabited

/-- One event of a core, with the partition that runs (R267, R268, R269): a register-file write, a store to and a load
from shared memory, a store to its private data memory. -/
inductive CoreEvent where
  | regWrite (part : Fin 8) (idx : Fin 32) (value : Word)
  | store (part : Fin 8) (addr data : Word) (size : StoreSize)
  | load (part : Fin 8) (addr value : Word)
  | privStore (part : Fin 8) (off : BitVec 19) (data : Word) (size : StoreSize)
deriving DecidableEq, Repr, Inhabited

/-- What one core has done since it was last looked at, and what it shows at a barrier or a halt (R272): its events, the
instructions it has retired, its program counter and register file, its gate words and agreements. -/
structure CoreTrace where
  events : List CoreEvent
  retired : Word
  pc : Word
  regs : List Word
  words : BitVec 16
  agreements : BitVec 16
deriving DecidableEq, Repr, Inhabited

/-- What the checkpoint unit sees of a barrier (R272): both cores, the partition running at the barrier and the lag. -/
structure CheckObs where
  lead : CoreTrace
  check : CoreTrace
  running : Fin 8
  lag : BitVec 12
deriving DecidableEq, Repr, Inhabited

/-- A conversion of the housekeeping converter as each core samples it (R402, R274): the two samples, in
0.1 degrees for a sensor and in the rail's own unit otherwise, or a failed conversion. -/
inductive AdcSample where
  | ok (lead check : Int)
  | failed
deriving DecidableEq, Repr, Inhabited

/-- The agreement inputs of R274, row by row, each channel and each sensor an input of its own. -/
inductive AgreeInput where
  | sparStatus | pfail | vholdOk | sealOpen
  | temperature (sensor : Fin 6)
  | channelFaults (c : Fin 24)
  | channelCurrent (c : Fin 24)
  | insulation | time
deriving DecidableEq, Repr, Inhabited

/-- An injected run of the self-test (R279): the partition that the test names, and the differences raised, partition
code and kind. -/
structure TestRun where
  named : Fin 8
  raised : List (Nat × Nat)
deriving DecidableEq, Repr, Inhabited

/-- What the nine runs of a self-test show (R279): the null run's differences, the injected runs', run 4 for each
partition in turn, and of run 7 the input, its two unequal samples, the value that resulted and the differences raised
beside it. -/
structure SelfTest where
  null : List (Nat × Nat)
  regBit : TestRun
  pc : TestRun
  count : TestRun
  sigs : List (List (Nat × Nat))
  gateData : TestRun
  gateLate : TestRun
  input : AgreeInput
  lead : Word
  check : Word
  got : Word
  agreement : List (Nat × Nat) := []
  queue : TestRun
deriving DecidableEq, Repr, Inhabited

/-- Why the checkpoint unit raises WATCHDOG (R278). -/
inductive WatchdogCause where
  | barrierMissed | lagExceeded | coreDoesNotStop
deriving DecidableEq, Repr, Inhabited

/-- A debug-port instruction (R285): IDCODE and BYPASS; attaching; halting the lead core, or its halt at a breakpoint,
with what both cores have done up to there and the partition that runs; resuming it; setting and clearing a breakpoint;
reading a register of the map, a core register, the program counter, a word of private memory; any other instruction
code. -/
inductive DebugOp where
  | idcode | bypass | attach
  | halt (lead check : CoreTrace) (running : Fin 8)
  | breakpointHit (lead check : CoreTrace) (running : Fin 8)
  | resume
  | setBreakpoint (addr : Word)
  | clearBreakpoint (addr : Word)
  | readRegister (addr : Word)
  | readCore (idx : Fin 32)
  | readPc
  | readPrivate (off : BitVec 19)
  | other (code : Byte)
deriving DecidableEq, Repr, Inhabited

/-- A change the debugger makes to the lead core's state (R286). -/
inductive DebugEdit where
  | regWrite (idx : Fin 32) (value : Word)
  | memWrite (addr value : Word)
  | privWrite (off : BitVec 19) (value : Word)
  | pcWrite (value : Word)
deriving DecidableEq, Repr, Inhabited

/-- A Sync measurement (R40, R41, R333, R336): the port, the domain and the clock it comes from, the edge offset from its
target in ns, the frequency estimate in 0.01 ppm, the UTC time of the running batten's edge in ms. -/
structure SyncMeas where
  port : NetPort
  domain : Byte
  source : BitVec 64
  offset : Int
  freq : Int
  edge : Nat
deriving DecidableEq, Repr, Inhabited

/-- An Announce as the BMCA of R333 uses it: the port, the domain, the clock that sends it, the grandmaster's data set,
steps and currentUtcOffsetValid. -/
structure Announce where
  port : NetPort
  domain : Byte
  source : BitVec 64
  priority1 : Byte
  clockClass : Byte
  accuracy : Byte
  variance : BitVec 16
  priority2 : Byte
  gmId : BitVec 64
  steps : BitVec 16
  utcValid : Bool
deriving DecidableEq, Repr, Inhabited

/-- A peer-delay message (R333): a request, or a response from which the path delay in ns follows. -/
inductive PdelayMsg where
  | request
  | response (delay : Nat)
deriving DecidableEq, Repr, Inhabited

/-- The readings of one pair-test pulse train (R249): for each of the 22 contact channels whether it read
closed before its pulse, closed in cycles 48 to 63 of its own output's pulse, and closed throughout the
other output's pulse. -/
structure PulseTest where
  before : BitVec 22
  duringOwn : BitVec 22
  duringOther : BitVec 22
deriving DecidableEq, Repr, Inhabited

/-- The five parts of an intent word (R291). -/
structure IntentWord where
  p0 : Word
  p1 : Word
  p2 : Word
  p3 : Word
  p4 : Word
deriving DecidableEq, Repr, Inhabited

/-- What follows an error flag or an overload flag on the bus (ISO 11898-1, R342): bit errors of the node while it sends
its active flag, and the runs of 8 further dominant bits after it. -/
structure FlagTail where
  flagErrors : Nat := 0
  dominantRuns : Nat := 0
deriving DecidableEq, Repr, Inhabited

/-- A switch's sensed state changes (R245): conducting, or not. It is against the command where a switch commanded off
conducts or one commanded on does not. -/
structure GateSense where
  gate : Fin 16
  conducts : Bool := true
deriving DecidableEq, Repr, Inhabited

/-- How a CAN transmission attempt ends (R348, R350): completed, with what followed an overload flag that the transmitter sent
after it; a stuff error in arbitration on a recessive stuff bit read dominant is an error of its own, for which the
transmit error counter does not rise (ISO 11898-1). -/
inductive CanEnd where
  | complete (tail : FlagTail := {}) | lostArbitration | error (tail : FlagTail) | stuffInArbitration (tail : FlagTail)
deriving DecidableEq, Repr, Inhabited

/-- An attempt without an acknowledgement (ISO 11898-1, R350): the controller, a dominant bit while it sent its passive
error flag, and what followed the flag. -/
structure CanNoAck where
  on : Fin 2
  dominantInFlag : Bool := false
  tail : FlagTail := {}
deriving DecidableEq, Repr, Inhabited

/-- An error or an overload a receiver meets (ISO 11898-1, R342): whether it detected an error of its own, whether a
dominant bit came first after its flag, and what followed. -/
structure CanRxError where
  detected : Bool := true
  dominantAfterFlag : Bool
  tail : FlagTail := {}
deriving DecidableEq, Repr, Inhabited

/-- A frame on the CAN bus from another node (R342, R346): identifier, format, remote. -/
structure CanRx where
  id : BitVec 29
  extended : Bool
  remote : Bool
deriving DecidableEq, Repr, Inhabited

/-- A Verge frame (R357): its number, batten number [7:0], die status, CRC verdict, the eight voltage
codes (frame 0 only) and the four current codes. -/
structure VergeFrame where
  k : Fin 4
  batten : Byte
  supplyGood : Bool
  referenceGood : Bool
  clockGood : Bool
  crcOk : Bool
  volts : Vector Int 8
  amps : Vector Int 4
deriving DecidableEq, Repr, Inhabited

/-- What the insulation monitor measured of one cycle (R362): the chassis voltage against HVREF [µV], as the means over
battens 800 to 899 and 900 to 999 of its first and its second half, and whether the current limiter of the coupling
network acted in the first half and in the second (R436). -/
structure InsCycle where
  early1 : Int
  late1 : Int
  early2 : Int
  late2 : Int
  limited1 : Bool
  limited2 : Bool
deriving DecidableEq, Repr, Inhabited

/-- A member of a received GOOSE dataset (R334): its value as 32 bits when it has one of the types listed,
whether it is a BOOLEAN, and its Quality validity when present (0 good). -/
structure GooseMember where
  value : Option Word
  isBool : Bool
  quality : Option (BitVec 2)
deriving DecidableEq, Repr, Inhabited

/-- A received GOOSE frame (R337), with its source MAC and trailer (R332). -/
structure GooseFrame where
  port : NetPort
  dst : BitVec 48
  appid : BitVec 16
  goId : List Byte
  stNum : Word
  ttl : Nat
  simulation : Bool
  members : List GooseMember
  src : LanSource
deriving DecidableEq, Repr, Inhabited

/-- A PHY as read over MDIO (R330): down, or up at 100 or 1 000 Mbit/s full duplex. -/
inductive LinkState where
  | down | up100 | up1000
deriving DecidableEq, Repr, Inhabited

/-- The three lines of a feedback channel as filtered at one sample tick, and the sample ticks of 50 ns
since the channel's previous line change (R368, R373). -/
structure LineSample where
  a : Bool
  b : Bool
  c : Bool
  ticks : Nat
deriving DecidableEq, Repr, Inhabited

/-- The wake sources of R387 other than the AON wake timer. -/
inductive WakeSource where
  | wakeLand | gable | spar
deriving DecidableEq, Repr, Inhabited

/-- The commands: one constructor per row of the operation table. -/
inductive Instr where
  | powerOn
  | powerOnByWake
  | startThresholdDip
  | brownOutReset
  | pfailAsserted
  | pfailCleared
  | battenEdge
  | exchangeCompletion
  | measFrameReceived (p : Fin 32) (f : LineFrame)
  | uplinkStartExpiry (p : Fin 32)
  | uplinkEndExpiry (p : Fin 32)
  | bulkWindowStart
  | bulkAnswerReceived (p : Fin 32) (f : LineFrame)
  | bulkAnswerTimeout (p : Fin 32)
  | bulkWindowEnd
  | portMissLimit (p : Fin 32)
  | syncingComplete (p : Fin 32)
  | identFailLimit (p : Fin 32)
  | provingComplete (p : Fin 32)
  | serviceOut (who : Who) (k : Fin 4)
  | serviceIn (who : Who) (k : Fin 4)
  | thatchUpdate
  | deviationSignatureLimit (p : Fin 32)
  | satelliteCheckFailLimit (p : Fin 32)
  | stringCheckFailLimit (k : Fin 4)
  | blankingFailLimit (p : Fin 32)
  | estimatorRunComplete (estCycles : BitVec 24)
  | referenceAgeExpiry (cell : Fin 512)
  | quietTimeReached (k : Fin 4)
  | tcoreExpiry (cell : Fin 512)
  | ridgeEvaluation
  | close (n : Fin 8) (seq : BitVec 16) (strings : BitVec 4)
  | orderOpen (n : Fin 8) (seq : BitVec 16) (strings : BitVec 4)
  | limit (n : Fin 8) (seq : BitVec 16) (strings : BitVec 4) (discharge : Bool) (value : BitVec 16)
  | limitClear (n : Fin 8) (seq : BitVec 16) (strings : BitVec 4) (discharge : Bool)
  | rampAck (n : Fin 8) (seq : BitVec 16) (strings : BitVec 4)
  | lockoutAck (n : Fin 8) (seq : BitVec 16) (strings : BitVec 4)
  | wearOverride (n : Fin 8) (seq : BitVec 16) (strings : BitVec 4)
  | mnSettleExpiry (k : Fin 4)
  | precharge95Reached (k : Fin 4)
  | prechargeSlowExpiry (k : Fin 4)
  | joinTestPass (k : Fin 4)
  | joinTimeout (k : Fin 4)
  | overlapExpiry (k : Fin 4)
  | rampEnd (k : Fin 4)
  | rampUnacknowledged (k : Fin 4)
  | sequenceExpiry (k : Fin 4)
  | persistenceReached (k : Fin 4)
  | standstillCurrent (k : Fin 4)
  | standstillClearCourse (k : Fin 4)
  | weld (k : Fin 4)
  | prechargeCooldownExpiry (k : Fin 4)
  | lockoutResetWindowExpiry
  | wearOverrideExpiry (k : Fin 4)
  | outputIntentWrite
  | limitPublication
  | checkpointA (obs : CheckObs)
  | closingCheckpoint (cycle : Nat) (obs : CheckObs)
  | slotEntryStart (cycle : Nat) (adc : AdcSample)
  | slotWcetReached
  | fixedSlotDeadlineMiss (slot : Fin 9)
  | ceilingReached
  | throttlePauseEnd
  | dozeWake
  | ptpSyncReceived (m : SyncMeas)
  | ptpAnnounceReceived (a : Announce)
  | syncLossTimeout
  | pdelayTimer
  | pdelayMessageReceived (port : NetPort) (m : PdelayMsg)
  | erase (who : Who) (targetB : Bool)
  | eraseComplete
  | imgDataWrite (who : Who) (data : Word)
  | verify (who : Who)
  | verifyComplete
  | commit (who : Who)
  | commitWordProgrammed
  | reload (who : Who)
  | abandon (who : Who)
  | warmRestart
  | sealopenChange (asserted : Bool)
  | enterBench (who : Who)
  | leaveBench (who : Who)
  | sparStartEnd
  | sparConfiguration
  | pairTestPulse (t : PulseTest)
  | contactFilterChange (ch : Fin 22) (closed : Bool)
  | pairFault (pair : Fin 11)
  | twoHandSkewExpiry
  | handReleaseHeld
  | toneSilence (p : Fin 32)
  | tonePresent (p : Fin 32)
  | laneSilence (l : Fin 5)
  | lanePresent (l : Fin 5)
  | gateAgainstCommand (g : GateSense)
  | sparSupplyTrip
  | sparReset
  | sparClockFault
  | sparClockStop
  | sparClockReturn
  | statusWordPresent
  | intentWordAccept (link : Option IntentWord)
  | intentGapTimeout
  | coreResetSignal
  | holdWindowExpiry
  | pullInEnd (ch : Fin 24)
  | channelShort (ch : Fin 24)
  | channelOverTemperature (ch : Fin 24)
  | thermalLatchRelease (ch : Fin 24)
  | openLoadOnChange (ch : Fin 24) (found : Bool)
  | offStateTest (aboveTest nearSupply : BitVec 24)
  | retryDue (ch : Fin 24)
  | attemptProven (ch : Fin 24)
  | clampEvent (ch : Fin 24)
  | vsupLow
  | vsupRestored
  | eavLatchClear (who : Who) (mask : BitVec 24)
  | eavAuxcmdWrite (who : Who) (mask : Byte)
  | outputGateCompare (part : Fin 8) (lead check : Word)
  | outputGateTimeout (part : Fin 8)
  | agreementRead (input : AgreeInput) (lead check : Word)
  | watchdog (cause : WatchdogCause)
  | corePairRestartComplete (test : SelfTest)
  | split (who : Who) (job : BitVec 4) (duration : BitVec 16)
  | rejoin (who : Who)
  | splitDurationExpiry
  | splitJobComplete (ok : Bool)
  | debugInstruction (op : DebugOp)
  | debugChange (edit : DebugEdit)
  | sessionOpen (f : HostFrame)
  | sessionEnd (f : HostFrame)
  | readRequest (f : HostFrame)
  | writeRequest (f : HostFrame)
  | eventAck (f : HostFrame)
  | nopRequest (f : HostFrame)
  | eventResendTimeout (n : Fin 8)
  | sessionIdleTimeout (n : Fin 8)
  | gableStatus
  | gableWrite (w : GableSend)
  | gableRead (octetsClocked : Nat)
  | arpRequest (port : NetPort) (target : Word) (src : LanSource)
  | icmpEchoRequest (port : NetPort) (target : Word) (src : LanSource) (payload : List Byte)
  | linkPoll (a b : LinkState)
  | prpSupervisionTimer
  | prpSingleLanTimeout (mac : BitVec 48)
  | gooseFrameReceived (g : GooseFrame)
  | gooseSubscriptionLost (k : Fin 24)
  | gooseRepeat (k : Fin 24)
  | canTransmitTime (c : Fin 2)
  | canFrameComplete (c : Fin 2) (e : CanEnd)
  | canDeadline (c : Fin 2)
  | canFrameReceived (c : Fin 2) (f : CanRx)
  | canAckError (n : CanNoAck)
  | canBusOffRecovery (c : Fin 2)
  | canIntegration (c : Fin 2)
  | vergeFrameReceived (f : VergeFrame)
  | vergeFrameDeadline (k : Fin 4)
  | vergePowerUp (delay : Nat)
  | hvsClockFault
  | comparatorActive (l : Fin 5)
  | comparatorRelease (l : Fin 5)
  | insulationCycleEnd (c : InsCycle)
  | feedbackLineChange (ch : Fin 4) (ls : LineSample)
  | feedbackStandstill (ch : Fin 4)
  | ledgerCommitComplete (readbackOk : Bool)
  | resetPort (who : Who) (p : Fin 32)
  | resetContactor (who : Who) (k : Fin 4) (role : BitVec 2)
  | pageTransferComplete
  | pageQueueEntryExpiry
  | segmentFreeze
  | pgrFclearWrite (who : Who) (mask : BitVec 4)
  | estSelWrite (who : Who) (cell : BitVec 9)
  | estReinitWrite (who : Who) (cell : BitVec 9) (whole : Bool)
  | estZselWrite (who : Who) (cell : BitVec 9) (index : BitVec 2)
  | ledCselWrite (who : Who) (cell : BitVec 9)
  | hstEvtmaskWrite (who : Who) (n : Fin 8) (w : Fin 4) (value : Word)
  | pwrWakeatWrite (who : Who) (value : Word)
  | cdcOvrClear (who : Who) (mask : BitVec 15)
  | batCountLoRead (who : Who)
  | gtrEntryRead (who : Who) (index : Fin 1024)
  | readClearRegister (who : Who) (addr : Word)
  | registerWrite (who : Who) (addr value : Word)
  | ship (who : Who)
  | shipEntry
  | softReset (who : Who)
  | dormantEntry
  | dormantEntryAbandon
  | wakeSource (src : WakeSource)
  | aonWakeTimer
  | wakeComplete (elapsed : Nat)
  | wakeRoundEnd
  | thermalStopOpening (k : Fin 4)
  | thermalHalt (sensors : Vector AdcSample 6)
  | thermalHaltExit (sensors : Vector AdcSample 6)
  | crossingWakeRequest (k : Fin 15)
  | vholdOkChange (ok : Bool)
  | sparResetRelease
  | vergePowerLoss
  | canReceiveError (c : Fin 2) (e : CanRxError)
  | prpSupervisionFrameReceived (lanB : Bool) (src : LanSource)
deriving DecidableEq, Repr

end Sys2Proof
end

