-- ==== Sys2Proof/Config.lean ====
section
/-! DEFINITION. The free values: constants without a body for what the manual leaves open. Each is applied to
the state's plain counter `fresh`, which every use advances; no statement can lean on what one of them is. -/

namespace Sys2Proof

/-- The CORE cycle of a Gutter entry, [17:0] of CYCLE (R413): where inside the batten an event is logged or
crosses into CORE is timing the model does not hold. DESIGN CHOICE, log entry 4. -/
opaque Config.freeCycle : Nat → BitVec 18
/-- A channel's current reading, EAV_CH (R307) [mA]: a measured current no command brings. Log entry 5. -/
opaque Config.channelCurrent : Nat → BitVec 14
/-- The supply reading, EAV_VSUP (R307) [10 mV]. Log entry 5. -/
opaque Config.vsupReading : Nat → BitVec 16
/-- The measured SPAR frequency of SPR_FREQ (R262). Log entry 5. -/
opaque Config.sparFrequency : Nat → BitVec 32
/-- The IDCODE the debug unit answers (R285). Log entry 5. -/
opaque Config.debugIdcode : Nat → BitVec 32
/-- A word of the map that a read takes from a place whose content no rule states. Log entry 6. -/
opaque Config.freeWord : Nat → BitVec 32
/-- The result of an arithmetic step the manual states no value for (a logarithm of a number that is not
positive, a quotient by zero), applied to a counter or to the operand's floor. Log entry 7. -/
opaque Config.freeReal : Nat → Rat
/-- How long a native satellite's bleed switch conducts in a batten of SLEEP_BALANCE [µs]: the manual bounds it by
blanking alone (R132, R138). Log entry 12. -/
opaque Config.nativeOnTime : BitVec 10
/-- The cycle at which a pulse timebase of a frequency stands as EAV_OUT is read (R296): SPAR cycles are not counted.
Log entry 5. -/
opaque Config.timebaseCycle : Nat → Nat → Nat
/-- The size of the NOR sector that ends a slot, where its commit word stands (R80) [octets]: no rule states it. Log
entry 40. -/
opaque Config.norSector : Nat

/-- The partition, by its code, that owns an octet of private data memory (R268): the regions' bounds are stated
nowhere. Log entry 70. -/
opaque Config.regionOwner : Nat → Nat

end Sys2Proof
end

