-- ==== Sys2Proof/Machine/State.lean ====
section
/-! DEFINITION. The machine's state as plain data: every register, counter, queue, mode and land the manual
gives the module, block by block, and `State.reset`. Analogue and single-precision values are rationals
(a value of IEEE 754 single where R152 says so); masks are bit vectors; counts are numbers that the
operations keep within the field the register tables give. -/

namespace Sys2Proof.Machine

/-- A byte memory in canonical form: addresses strictly rising, no entry equal to what an unlisted
address reads as. -/
abbrev Mem := List Host.Cell

/-! ## Names of modes and codes -/

/-- Module states (R18; codes of IMG_STATE[1:0]). -/
inductive ModuleState where
  | unconfigured | operating | bench
deriving DecidableEq, Repr, Inhabited

/-- String states (R18; codes 0 to 4 of R186). -/
inductive StrState where
  | opened | precharge | closed | standstill | lockout
deriving DecidableEq, Repr, Inhabited

/-- Phases (R216; codes of RDG_STR[7:4]). -/
inductive Phase where
  | idle | mnSettle | charging | joinWait | overlap | run | ramp | sequence | hold | locked
deriving DecidableEq, Repr, Inhabited

/-- Causes of an opening, a Standstill or a Lockout (R226). -/
inductive Cause where
  | none | openOrder | portLost | measurement | currentOverLimit | insulation | standstillCurrent
  | thermalShutdown | coilFault | prechargeFast | prechargeSlow | joinTimeout | coreReset | holdExpired
  | cellVoltage | cellTemperature | weld | prechargeRepeated | sparTrip | limitsStale | coreMismatch
  | thermal | prechargeVoltage
deriving DecidableEq, Repr, Inhabited

/-- Order results (R221). -/
inductive OrderResult where
  | done | notPermitted | notConfigured | notOperating | lostToOpen | lostToLowerLimit | lostOnRank
  | already | lockout | standstill | opening | reloadPending | splitMode | proofPending
  | portNotInService | wireTestPending | limitsPending | limitsStale | measurement | vergeInvalid
  | breachPresent | insulation | thermal | coilFault | contactorIdentity | contactorWorn
  | prechargeCooldown | prechargeBusy | noLockout | resetSequence | sparLatched | noRamp | notAddressed
deriving DecidableEq, Repr, Inhabited

/-- Orders of RDG_ORDER (R218); `other` is a reserved code. -/
inductive OrderKind where
  | close | opening | limit | limitClear | rampAck | lockoutAck | wearOverride
  | other (code : BitVec 4)
deriving DecidableEq, Repr, Inhabited

/-- Sync states (R40). -/
inductive SyncState where
  | free | acquiring | locked | holdover
deriving DecidableEq, Repr, Inhabited

/-- Port states (R109). -/
inductive PortState where
  | unused | outOfService | syncing | identifying | proving | inService
deriving DecidableEq, Repr, Inhabited

/-- Causes of OUT OF SERVICE (R116). -/
inductive PortCause where
  | none | link | count | chemistry | order
deriving DecidableEq, Repr, Inhabited

/-- How a port's exchange of the batten stands (R98, R102): nothing yet, accepted, recovered by a repeat,
missed with NO RESPONSE or LATE, refused for a frame error, STAMP or LATE SAMPLE. -/
inductive Exchange where
  | pending | accepted | recovered | noResponse | late | frameError | stamp | lateSample
deriving DecidableEq, Repr, Inhabited

/-- Stage states of IMG_STAGE (R79, R84). -/
inductive Stage where
  | idle | erasing | writing | verifying | verified | failed | reloadPending
deriving DecidableEq, Repr, Inhabited

/-- Spar states (R242). -/
inductive SparMode where
  | start | unconfigured | proving | armed | tripped
deriving DecidableEq, Repr, Inhabited

/-- A pair's test verdict (R249). -/
inductive PairTest where
  | untested | passed | failed
deriving DecidableEq, Repr, Inhabited

/-- How the core pair runs (R279, R280): running, in a reset (first or repeated attempt), halted after two
failed self-tests. -/
inductive PairRun where
  | running | inReset (attempt : Nat) | halted
deriving DecidableEq, Repr, Inhabited

/-- Coupling of the pair (R281, R283): joined, split, copy course, shadow course. -/
inductive Coupling where
  | joined | split | copy | shadow
deriving DecidableEq, Repr, Inhabited

/-- Power states (R382). -/
inductive PowerState where
  | run | doze | dormant | ship
deriving DecidableEq, Repr, Inhabited

/-- Learning status of a cell (R194). -/
inductive LearnStatus where
  | learned | first | unlearned
deriving DecidableEq, Repr, Inhabited

/-- States of a fault segment (R211). -/
inductive SegState where
  | free | live | collecting | frozen
deriving DecidableEq, Repr, Inhabited

/-- State of a GOOSE record (R337, R341): none, publishing, port down, WAITING, VALID, LOST. -/
inductive GooseState where
  | none | publishing | portDown | waiting | valid | lost
deriving DecidableEq, Repr, Inhabited

/-- Error state of a CAN controller (R342). -/
inductive CanErr where
  | active | passive | busOff
deriving DecidableEq, Repr, Inhabited

/-- Direction of a feedback channel (R375). -/
inductive Dir where
  | none | forward | reverse
deriving DecidableEq, Repr, Inhabited

/-! ## The loaded image (R54 to R70, R28) -/

structure PlantRec where
  cellsTotal : Nat := 0
  strings : Nat := 0
  avgWindow : Nat := 0
  quietDiv : Nat := 0
  quietTime : Nat := 0
  cellAh : Nat := 0
deriving DecidableEq, Repr, Inhabited

structure SlotEntry where
  id : Nat := 0
  task : Nat := 0
  cls : Nat := 0
  inst : Nat := 0
  mask : Nat := 0
  maxDefer : Nat := 0
  wcet : Nat := 0
  deadline : Nat := 0
deriving DecidableEq, Repr, Inhabited

structure PortRec where
  cells : Nat := 0
  kind : Nat := 0
  chem : Nat := 0
  string : Nat := 0
  tempMap : Nat := 0
  balAdj : Nat := 0
deriving DecidableEq, Repr, Inhabited

structure StringRec where
  firstPort : Nat := 0
  portCount : Nat := 0
  openOrder : Nat := 0
  preTol : Nat := 0
  preRes : Nat := 0
  linkCap : Nat := 0
  preWindow : Nat := 0
  inrush : Nat := 0
  rampMs : Nat := 0
deriving DecidableEq, Repr, Inhabited

structure ContactorRec where
  string : Nat := 0
  role : Nat := 0
  output : Nat := 0
  points : Nat := 0
  identity : Nat := 0
  curve : List (Nat × Nat) := []
deriving DecidableEq, Repr, Inhabited

structure OcvRec where
  chem : Nat := 0
  axis : List Int := []
  table : List Nat := []
deriving DecidableEq, Repr, Inhabited

structure ModelRec where
  chem : Nat := 0
  rser : Nat := 0
  rfast : Nat := 0
  tauFast : Nat := 0
  rslow : Nat := 0
  tauSlow : Nat := 0
  hystMax : Nat := 0
  hystRate : Nat := 0
  thermCap : Nat := 0
  thermRes : Nat := 0
  vMax : Nat := 0
  vMin : Nat := 0
  tMax : Int := 0
  tMin : Int := 0
  iChgMax : Nat := 0
  iDisMax : Nat := 0
  persist : Nat := 0
deriving DecidableEq, Repr, Inhabited

structure ImpedanceRec where
  source : Nat := 0
  tempFreq : Nat := 0
  mismatch : Nat := 0
  freq : List Nat := []
  map : List (List (Int × Int)) := []
deriving DecidableEq, Repr, Inhabited

structure SafetyRec where
  sealPins : Nat := 0
  doors : Nat := 0
  fireGas : Nat := 0
  twoHand : Nat := 0
deriving DecidableEq, Repr, Inhabited

structure EavesRec where
  use : Nat := 0
  pullIn : Nat := 0
  pgFreq : Nat := 0
  duty : Nat := 0
  phase : Nat := 0
deriving DecidableEq, Repr, Inhabited

structure VergeRec where
  div : List Nat := []
  shunt : List Nat := []
  ocLevel : List Nat := []
  ovLevel : Nat := 0
  insWarn : Nat := 0
  insOpen : Nat := 0
deriving DecidableEq, Repr, Inhabited

structure FeedbackRec where
  mode : Nat := 0
  pass : Nat := 0
  lines : Nat := 0
  standstill : Nat := 0
deriving DecidableEq, Repr, Inhabited

structure SessionRec where
  role : Nat := 0
  port : Nat := 0
  reserve : Nat := 0
  peerIp : Nat := 0
  peerUdp : Nat := 0
  evtMask : BitVec 128 := 0
deriving DecidableEq, Repr, Inhabited

structure NetworkRec where
  mode : Nat := 0
  ptp : Nat := 0
  domain : Nat := 0
  macA : Nat := 0
  macB : Nat := 0
  ipA : Nat := 0
  ipB : Nat := 0
  pfxA : Nat := 0
  pfxB : Nat := 0
  localUdp : Nat := 0
deriving DecidableEq, Repr, Inhabited

structure GooseRec where
  dir : Nat := 0
  port : Nat := 0
  content : Nat := 0
  dstMac : Nat := 0
  appid : Nat := 0
  vlan : Nat := 0
  heartbeat : Nat := 0
  goId : List Byte := []
deriving DecidableEq, Repr, Inhabited

structure CanRec where
  nomRate : Nat := 0
  dataRate : Nat := 0
  spNom : Nat := 0
  spData : Nat := 0
  limitId : Nat := 0
deriving DecidableEq, Repr, Inhabited

structure PartRec where
  part : Nat := 0
  cls : Nat := 0
deriving DecidableEq, Repr, Inhabited

structure PowerRec where
  dormantAfter : Nat := 0
  shipOk : Nat := 0
deriving DecidableEq, Repr, Inhabited

/-- The image as loaded into the block registers (R74). -/
structure Image where
  sequence : Nat := 0
  plantName : List Byte := []
  digest : List Byte := []
  plant : PlantRec := {}
  schedule : List SlotEntry := []
  ports : List PortRec := []
  strings : List StringRec := []
  contactors : List ContactorRec := []
  ocv : List OcvRec := []
  models : List ModelRec := []
  impedance : Option ImpedanceRec := Option.none
  safety : SafetyRec := {}
  eaves : List EavesRec := []
  verge : VergeRec := {}
  feedback : List FeedbackRec := []
  sessions : List SessionRec := []
  network : Option NetworkRec := Option.none
  goose : List GooseRec := []
  can : List CanRec := []
  partitions : List PartRec := []
  power : Option PowerRec := Option.none
deriving DecidableEq, Repr, Inhabited

/-! ## Lands and supplies -/

/-- What stands at the lands and outside the module (R77, R433, R425; R2 external memories): SEAL strap
code, SEALOPEN asserted, the NOR and PSRAM answering and declaring octal DDR (R437). -/
structure Lands where
  sealPins : BitVec 4 := 0
  sealOpen : Bool := false
  norAOk : Bool := true
  norBOk : Bool := true
  psramOk : Bool := true
  /-- The levels of the lands FBnA, FBnB and FBnC, bits 0 to 2 (R368, R377). -/
  fb : Vector (BitVec 3) 4 := Vector.replicate 4 7#3
deriving DecidableEq, Repr, Inhabited

/-! ## Batten sequencer (R25 to R45) -/

/-- BAT_REFUSE (R44). -/
structure Refuse where
  batten : Nat := 15
  slot : Nat := 255
  reason : Nat := 0
deriving DecidableEq, Repr, Inhabited

/-- One piece of scheduled work: the SLOT_ID, its deferral count, whether it is a deferred piece carried
from an earlier batten, and the batten it fell due in (R33, R34). -/
structure Work where
  slot : Nat
  count : Nat
  carried : Bool
  since : Nat
  /-- Suspended by R38: its task has been run, and what is left of it leaves no more in the state. -/
  ran : Bool
deriving DecidableEq, Repr, Inhabited

structure Bat where
  /-- Batten number (R25). -/
  num : Nat := 0
  /-- The next edge is placed on the count as it stands: the first edge of an image, or the first after a wake (R25,
  R26). -/
  first : Bool := true
  /-- CORE cycle at which the sequencer last started or ended work in this batten (R33). -/
  cycle : Nat := 0
  /-- Fixed slots completed in this batten, 0 to 9 (R27). -/
  fixedDone : Nat := 0
  /-- Work of this batten not yet started, in R33's order. -/
  todo : List Work := []
  /-- The piece of table work now running. -/
  running : Option Work := Option.none
  /-- Deferrable work has been started in this batten (R37). -/
  deferStarted : Bool := false
  /-- A throttle pause runs (R37). -/
  pausing : Bool := false
  /-- The pause before the next piece has been taken (R37). -/
  pauseTaken : Bool := false
  /-- The batten's work was ended by a fixed slot's deadline miss (R38). -/
  ended : Bool := false
  /-- Deferred pieces pending (R34, R35). -/
  deferred : List Work := []
  /-- SLOT_IDs of critical entries with unfinished work to take up (R38). -/
  unfinished : List Nat := []
  /-- SLOT_IDs run since the last clean checkpoint (R276). -/
  worked : List Nat := []
  /-- Consecutive overruns per critical SLOT_ID (R38). -/
  overRuns : List (Nat × Nat) := []
  sync : SyncState := .free
  /-- Battens spent in HOLDOVER (R42). -/
  holdMs : Nat := 0
  offset : Int := 0
  trim : Int := 0
  freqEst : Int := 0
  /-- A batten and the UTC time of its edge [ms], from the last usable Sync (R336). -/
  utc : Option (Nat × Nat) := Option.none
  /-- Consecutive Sync measurements within 1 µs (R40). -/
  goodRun : Nat := 0
  peak : Nat := 0
  deferCnt : Nat := 0
  dropCnt : Nat := 0
  overrunCnt : Nat := 0
  refuse : Refuse := {}
deriving DecidableEq, Repr, Inhabited

/-! ## Image loader (R46 to R84) -/

/-- IMG_RESULT_A and IMG_RESULT_B (R84). -/
structure ImgResult where
  reason : Nat := 0
  sect : Nat := 255
  record : Nat := 65535
deriving DecidableEq, Repr, Inhabited

/-- A NOR write of staging in the release buffer (R271): the target slot erased, octets programmed at an offset of it,
its commit word. -/
inductive NorOp where
  | erase (b : Bool)
  | program (b : Bool) (off : Nat) (octets : List Byte)
  | commit
deriving DecidableEq, Repr, Inhabited

/-- The stage as it stood before the NOR writes in the release buffer were ordered (R271, R276). -/
structure StageSave where
  stage : Stage
  targetB : Bool
  owner : Option Who
  stageReason : Nat
  addr : Nat
  byCommit : Bool
  armed : Bool
deriving DecidableEq, Repr, Inhabited

structure Img where
  module : ModuleState := .unconfigured
  /-- The active slot is B (IMG_STATE[2]). -/
  activeB : Bool := false
  /-- SEAL pins as last sampled (IMG_STATE[7:4]). -/
  sealSampled : BitVec 4 := 0
  resultA : ImgResult := {}
  resultB : ImgResult := {}
  stage : Stage := .idle
  targetB : Bool := false
  owner : Option Who := Option.none
  stageReason : Nat := 0
  addr : Nat := 0
  /-- RELOAD PENDING follows a COMMIT, not a RELOAD (R80). -/
  byCommit : Bool := false
  /-- The restart begins at the next batten 0 (R80). -/
  armed : Bool := false
  /-- A warm restart is in progress: from the restart edge to the load (R82). -/
  restarting : Bool := false
  /-- Bench is being left with a warm restart (R21). -/
  benchExit : Bool := false
  changed : Bool := false
  /-- NOR writes of staging that wait for their checkpoint, oldest first, and the stage before them (R271). -/
  norHeld : List NorOp := []
  norSaved : Option StageSave := Option.none
deriving DecidableEq, Repr, Inhabited

/-! ## Monitor ports (R85 to R116) -/

/-- A MEAS frame's contents (R97). -/
structure Meas where
  batten : Nat := 0
  volts : List Nat := []
  tempA : Nat := 0
  tempB : Nat := 0
  total : Nat := 0
  dieTemp : Int := 0
  status : Word := 0
deriving DecidableEq, Repr, Inhabited

/-- IDENT of R100. -/
structure Ident where
  serial : Nat := 0
  chem : Nat := 0
  week : Nat := 0
  cells : Nat := 0
  proto : Nat := 0
  fwRev : Nat := 0
deriving DecidableEq, Repr, Inhabited

/-- A CMD frame's content (R95, R96). -/
structure Cmd where
  tselA : Nat := 255
  tselB : Nat := 255
  code : Nat := 0
  arg : List Nat := []
deriving DecidableEq, Repr, Inhabited

/-- A request of the bulk window (R92, R99), in that rule's order of kinds. -/
inductive BulkReq where
  | repeatMeas
  | ident
  | burst (batten : Nat)
  | write (octets : List Nat)
  | openWire
  | progress
deriving DecidableEq, Repr, Inhabited

/-- An open-wire test on a port (R125 to R128): the batten t of its OPEN_WIRE command, the category that
chose it, the baseline, the readings of t + 1 and t + 2, the answer's masks, whether an exchange was
missed. -/
structure WireTest where
  /-- The OPEN_WIRE command has been sent, in batten `start`. -/
  sent : Bool := false
  start : Nat := 0
  category : Nat := 0
  base : List Nat := []
  even : List Nat := []
  odd : List Nat := []
  answer : Option (Nat × Nat) := Option.none
  missed : Bool := false
  /-- Cut by a core-pair reset: it is dropped, while its hold goes on (R127, R236). -/
  cut : Bool := false
deriving DecidableEq, Repr, Inhabited

/-- Accumulators of a sense wire (R134) and its RWIRE [0.1 mΩ]. -/
structure Wire where
  a : Rat := 0
  b : Rat := 0
  n : Nat := 0
  r : Option Nat := Option.none
deriving DecidableEq, Repr, Inhabited

/-- A CMD word that the output compare gate holds (R270): what the port held before the word was formed. -/
structure CmdGate where
  queue : List Cmd
  thermPos : Nat
  clearDue : Bool
  clearAt : Option Nat
  admitted : Bool
  test : Option WireTest
  pulsing : Bool
deriving DecidableEq, Repr, Inhabited

structure Port where
  st : PortState := .unused
  cause : PortCause := .none
  clean : Nat := 0
  missed : Nat := 0
  identResult : Nat := 0
  /-- The miss of this batten has been counted (R102, R103). -/
  counted : Bool := false
  /-- Consecutive accepted battens in SYNCING (R110). -/
  accRun : Nat := 0
  identFails : Nat := 0
  /-- PROVING counts courses from the first batten 0 edge after IDENTIFYING (R110). -/
  proveFrom : Option Nat := Option.none
  /-- The running course has been clean so far (R111). -/
  courseClean : Bool := true
  /-- Every satellite check of the running course has passed (R130). -/
  satCourseOk : Bool := true
  exch : Exchange := .pending
  meas : Option Meas := Option.none
  /-- A recovered frame to enter Thatch at the next update (R102). -/
  late : Option Meas := Option.none
  /-- The last accepted frame and its batten. -/
  last : Option (Meas × Nat) := Option.none
  /-- The frame accepted before it, for the impedance burst of its batten (R169). -/
  prev : Option (Meas × Nat) := Option.none
  repeats : Nat := 0
  cmd : Cmd := {}
  /-- Commands waiting for a coming batten's CMD, oldest first (R96). -/
  cmdQueue : List Cmd := []
  thermPos : Nat := 0
  bulk : List BulkReq := []
  inFlight : Option BulkReq := Option.none
  /-- The frames sent to the satellite since the edge, octet by octet, oldest first (R93). -/
  lineOut : List (List Byte) := []
  /-- The CMD word that the output compare gate holds, and whether it holds the word of the request in flight (R270). -/
  cmdGate : Option CmdGate := Option.none
  bulkGate : Bool := false
  /-- WRITE settings are outstanding after an admission or a reset (R104). -/
  settings : Bool := false
  /-- The first batten in whose bulk window the settings' WRITE frames may go (R104). -/
  writeFrom : Nat := 0
  clearDue : Bool := false
  /-- Batten whose CMD carried CLEAR_RESET (R104). -/
  clearAt : Option Nat := Option.none
  /-- The first CLEAR_RESET after admission has been sent (R104). -/
  admitted : Bool := false
  errFrames : Nat := 0
  errMisses : Nat := 0
  recoveredCnt : Nat := 0
  missedCnt : Nat := 0
  id : Option Ident := Option.none
  /-- The burst of the last batten has been taken in (R173). -/
  burstDone : Bool := false
  /-- The port pulses in the string's running bleed window (R176). -/
  pulsed : Bool := false
  /-- The settings of the bleed window that begins at the next edge have been written (R176). -/
  pulseDue : Bool := false
  /-- The satellite has been commanded to pulse: the last IMP_START had MODE 0x01 (R176). -/
  pulsing : Bool := false
  /-- Plausibility: R121, R129. -/
  satDiff : Int := 0
  satFails : Nat := 0
  /-- Failed satellite checks beyond the register's 255 (R129 row 3). -/
  satRun : Nat := 0
  pairRuns : Vector Nat 16 := Vector.replicate 16 0
  singleRuns : Vector Nat 16 := Vector.replicate 16 0
  /-- Local cells confirmed as real deviations (R129 row 5). -/
  confirmed : BitVec 16 := 0
  /-- Local cells that showed a signature in the running course (R129). -/
  sigCourse : BitVec 16 := 0
  /-- Consecutive battens with a blanking failure; whether the last batten's exchange was not accepted in slot 4, so that
  its frame may come late; a count that reached 10 and has not been acted on (R132). -/
  blankRun : Nat := 0
  blankOpen : Bool := false
  blankDue : Bool := false
  /-- Open-wire test: running, wanted out of turn, results (R125, R143). -/
  test : Option WireTest := Option.none
  testWanted : Bool := false
  /-- The category of an abandoned or dropped test to be made again in the next OPEN_WIRE slot (R127). -/
  testAgain : Option Nat := Option.none
  owOpen : BitVec 17 := 0
  owIntact : Bool := false
  abandoned : Nat := 0
  owCourses : Nat := 255
  /-- A test has completed since the port last entered IN SERVICE (R129). -/
  testedInService : Bool := false
  /-- Balancing (R135 to R142). -/
  balSuspended : Bool := false
  /-- The satellite refused the targets of a Dormant entry (R139). -/
  sleepNak : Bool := false
  balancing : Bool := false
  /-- The port sleep-balanced, and its progress has not been read since the wake (R139, R389). -/
  progressDue : Bool := false
  target : Vector Nat 16 := Vector.replicate 16 0
  /-- TARGET last written to the satellite and acknowledged (R117). -/
  written : Vector Nat 16 := Vector.replicate 16 0
  /-- Remaining BUDGET in µs of bleed time. -/
  budget : Vector Nat 16 := Vector.replicate 16 0
  done : BitVec 16 := 0
  /-- Last reported bleed current [mA]. -/
  ib : Vector Nat 16 := Vector.replicate 16 0
  duty : BitVec 16 := 0
  onTime : Nat := 0
  bleedLevel : Nat := 0
  wires : Vector Wire 17 := Vector.replicate 17 {}
deriving DecidableEq, Repr, Inhabited

structure Owl where
  ports : Vector Port 32 := Vector.replicate 32 {}
  /-- Service orders accepted for the next edge: string and OUT (R112). -/
  service : List (Nat × Bool) := []
  /-- The bulk window is open (R91). -/
  bulkOpen : Bool := false
  /-- Next port of the rotation tests, and the course of the last one (R125). -/
  rotation : Nat := 0
  rotCourse : Nat := 0
deriving DecidableEq, Repr, Inhabited

/-! ## Thatch (R117 to R143) -/

structure CellRec where
  vlast : Nat := 0
  vavg : Nat := 0
  /-- The batten of VLAST; none before the first accepted value since the load. -/
  vlastAt : Option Nat := Option.none
  tmeas : Option Int := Option.none
  tmeasAt : Nat := 0
  tcore : Option Int := Option.none
  tcoreAt : Nat := 0
  flags : BitVec 14 := 0
  /-- Accepted readings in the averaging window, newest first, each with its batten (R120). -/
  window : List (Nat × Nat) := []
  /-- Average bleed current over the last course [0.1 mA]. -/
  iBleed : Nat := 0
  bledThisCourse : Bool := false
  /-- Causes of CHAIN_FAULT: satellite check, string check, abandoned tests, cell input (R130). -/
  chain : BitVec 4 := 0
  /-- Blanking hold of this batten (R132). -/
  held : Bool := false
  /-- Cumulative bleed charge [nA·s] (R148), and the bleed time of the running course [µs]. -/
  bleedCharge : Int := 0
  courseOn : Nat := 0
  /-- History extremes and flags of the running second (R209). -/
  hMin : Nat := 65535
  hMax : Nat := 0
  hFlags : BitVec 14 := 0
  /-- Battens in which the string's Verge sample was invalid or the cell was WIRE_OPEN or CHAIN_FAULT (R192). -/
  gaps : Nat := 0
deriving DecidableEq, Repr, Inhabited

structure StrCheck where
  diff : Int := 0
  fails : Nat := 0
  /-- Every evaluated string check of the running course passed (R130). -/
  courseOk : Bool := true
deriving DecidableEq, Repr, Inhabited

structure Tha where
  cells : Vector CellRec 512 := Vector.replicate 512 {}
  strChk : Vector StrCheck 4 := Vector.replicate 4 {}
  balHold : BitVec 4 := 0
deriving DecidableEq, Repr, Inhabited

/-! ## Estimator (R144 to R188) -/

/-- One cell of a set (R154): state vector, upper triangle of P by rows, T_c, flags, limits [0.1 A] in
the order CHG2, CHG10, CHG60, DIS2, DIS10, DIS60. -/
structure EstCell where
  init : Bool := false
  soc : Rat := 0
  vf : Rat := 0
  vs : Rat := 0
  h : Rat := 0
  p : List Rat := []
  tc : Rat := 25
  tb : Rat := 25
  flags : BitVec 8 := 8
  /-- Batten of the last reference, 0 from the image load (R163). -/
  refAt : Nat := 0
  nis : Rat := 0
  gated : Nat := 0
  goodRun : Nat := 0
  q : Rat := 0
  rser : Rat := 0
  lims : List Nat := []
  /-- The run applied an update; its measurement current, VAVG [V] and U (R190). -/
  updated : Bool := false
  iMeas : Rat := 0
  vMeas : Rat := 0
  u : Rat := 0
deriving DecidableEq, Repr, Inhabited

/-- A set of the estimator: snapshot batten, cells, string limits [0.1 A], and for each string whether
every port was IN SERVICE at the freeze (R113, R184). -/
structure EstSet where
  batten : Nat := 0
  cells : Vector EstCell 512 := Vector.replicate 512 {}
  slim : Vector (List Nat) 4 := Vector.replicate 4 []
  allIn : BitVec 4 := 0
  /-- The string and cell charge counters of the snapshot [µA·s]. -/
  charge : Vector Int 4 := Vector.replicate 4 0
  bleed : Vector Int 512 := Vector.replicate 512 0
  /-- The strings' counts of invalid battens at the snapshot (R149). -/
  gaps : Vector Nat 4 := Vector.replicate 4 0
deriving DecidableEq, Repr, Inhabited

/-- A cell of the snapshot (R148): VAVG, stale marker, thermistor reading and age, readings in the
window, port proving and usable, OV and UV, stale age, WIRE_OPEN or CHAIN_FAULT, TCORE when valid, whether
it is newer than the state in force, and DISAGREE. -/
structure SnapCell where
  vavg : Nat := 0
  stale : Bool := true
  tmeas : Option Int := Option.none
  tmeasAge : Nat := 0
  haveReading : Bool := false
  proving : Bool := false
  usable : Bool := false
  ov : Bool := false
  uv : Bool := false
  age : Nat := 0
  bad : Bool := false
  tcore : Option Int := Option.none
  tcoreNew : Bool := false
  disagree : Bool := false
  bleed : Int := 0
  iBleed : Nat := 0
  /-- The gap counter of R192. -/
  gaps : Nat := 0
deriving DecidableEq, Repr, Inhabited

structure Snapshot where
  batten : Nat := 0
  cells : Vector SnapCell 512 := Vector.replicate 512 {}
  charge : Vector Int 4 := Vector.replicate 4 0
  /-- I_AVG per string [A]; none when every batten of the window is invalid (R149). -/
  iAvg : Vector (Option Rat) 4 := Vector.replicate 4 Option.none
  /-- The strings' counts of invalid battens (R149). -/
  gaps : Vector Nat 4 := Vector.replicate 4 0
  allIn : BitVec 4 := 0
  quiet : BitVec 4 := 0
deriving DecidableEq, Repr, Inhabited

/-- The selected values latched for one session (R166, R188, R212, R311, R418). -/
structure Latches where
  estSel : Nat := 0
  est : List Word := []
  zSel : Nat := 0
  zIdx : Nat := 0
  z : List Word := []
  ledSel : Nat := 0
  led : List Word := []
  batHi : Nat := 0
  gtrIdx : Nat := 0
  gtr : List Word := []
deriving DecidableEq, Repr, Inhabited

/-- Demodulation sums of one window of a cell and frequency (R172): count of samples, sums of voltage
and current, of e^(−jωt), and of both against e^(−jωt); missing battens; the window's first batten; a bleed
window; the least and greatest batten-mean current. -/
structure ImpAcc where
  n : Nat := 0
  sv : Rat := 0
  si : Rat := 0
  er : Rat := 0
  ei : Rat := 0
  vr : Rat := 0
  vi : Rat := 0
  ir : Rat := 0
  ii : Rat := 0
  /-- Bleed windows (R176): on-time of the commanded pattern over the battens present [ms], its integral against
  e^(−jωt), and that of the battens themselves. -/
  pOn : Rat := 0
  pr : Rat := 0
  pi : Rat := 0
  br : Rat := 0
  bi : Rat := 0
  missing : Nat := 0
  first : Nat := 0
  bleed : Bool := false
  pulsed : Bool := false
  iMin : Option Rat := Option.none
  iMax : Option Rat := Option.none
deriving DecidableEq, Repr, Inhabited

/-- The last outcome of a cell and frequency (R174, R188). -/
structure ImpRes where
  code : Nat := 6
  re : Rat := 0
  im : Rat := 0
  at_ : Option Nat := Option.none
  bleed : Bool := false
deriving DecidableEq, Repr, Inhabited

structure ImpCell where
  acc : Vector (Option ImpAcc) 3 := Vector.replicate 3 Option.none
  waiting : Vector (Option ImpAcc) 3 := Vector.replicate 3 Option.none
  res : Vector ImpRes 3 := Vector.replicate 3 {}
  chkDiff : Int := 0
  disagree : Bool := false
  noRef : Bool := false
  disRun : Nat := 0
  agreeRun : Nat := 0
deriving DecidableEq, Repr, Inhabited

structure Est where
  /-- The set in force (R13); none until the first hand-over after an image load. -/
  force : Option EstSet := Option.none
  /-- The completed set waiting for the hand-over. -/
  made : Option EstSet := Option.none
  /-- The snapshot a run is working on. -/
  snap : Option Snapshot := Option.none
  runtime : Nat := 0
  /-- A throttling calls for the snapshots of even courses alone (R156). -/
  evenOnly : Bool := false
  discarded : Nat := 0
  gatedCnt : Nat := 0
  /-- Consecutive quiet battens per string (R155). -/
  quietRun : Vector Nat 4 := Vector.replicate 4 0
  quiet : BitVec 4 := 0
  /-- Battens spent in quiet cadence, Dormant included (R160). -/
  restMs : Vector Nat 4 := Vector.replicate 4 0
  reinit : BitVec 512 := 0
  /-- Cells whose identity result of R108 was 2 or 3 and that the next run treats per R161, R194. -/
  widen : BitVec 512 := 0
  /-- UNLEARNED cells already reinitialised since flagged (R160). -/
  reinitDone : BitVec 512 := 0
  /-- Cells balanced during the Dormant interval, with BUDGET [s] and Ib [mA] as written (R151). -/
  slept : List (Nat × Nat × Nat) := []
  /-- UNLEARNED as learning holds it until it clears (R194). -/
  unlearned : BitVec 512 := 0
  refStale : BitVec 512 := 0
  imp : Vector ImpCell 512 := Vector.replicate 512 {}
  /-- First batten of the running or the coming bleed window per string (R175). -/
  bleedAt : Vector (Option Nat) 4 := Vector.replicate 4 Option.none
  zAbandon : Nat := 0
  mapRange : Nat := 0
  /-- Published limits [A] of the last slot 7: plant, then strings; flag word (R185, R188). -/
  pPub : List Nat := []
  sPub : Vector (List Nat) 4 := Vector.replicate 4 []
  pubFlag : Nat := 0
  pubCnt : Nat := 0
  canDrop : Nat := 0
  /-- The published values last sent on GOOSE (R187). -/
  lastSent : Option (Nat × List Nat × List (List Nat)) := Option.none
deriving DecidableEq, Repr, Inhabited

/-! ## Learning, ledger, pager (R189 to R213) -/

/-- A reference (R162, R192): batten, SOC, σ, string charge [µA·s], bleed counter [mA·s], gaps. -/
structure Ref where
  batten : Nat := 0
  soc : Rat := 0
  sigma : Rat := 0
  charge : Int := 0
  bleed : Nat := 0
  gaps : Nat := 0
deriving DecidableEq, Repr, Inhabited

structure LearnCell where
  q : Rat := 0
  pq : Rat := 0
  rser : Rat := 0
  pr : Rat := 0
  status : LearnStatus := .learned
  updates : Nat := 0
  lifetime : Nat := 0
  refused : Nat := 0
  aR : Rat := 0
  bR : Rat := 0
  pend : Option Ref := Option.none
  /-- Ledger SOC and σ_rec at the image load (R202). -/
  socRec : Option (Rat × Rat × Int) := Option.none
deriving DecidableEq, Repr, Inhabited

/-- A ledger record's name (R196); CHARGE with its CAUSE (R200). -/
inductive Rec where
  | module | charge (cause : Nat) | contactor (k : Nat) | port (p : Nat) | cell (j : Nat)
deriving DecidableEq, Repr, Inhabited

/-- What a commit writes: a record's content, or its end of existence (R203): the older slot, then the one named (slot
B). -/
inductive Commit where
  | write (r : Rec)
  | wipe (r : Rec) (second : Option Bool)
deriving DecidableEq, Repr, Inhabited

/-- Wear of one contactor as the CONTACTOR record holds it (R200, R234). -/
structure Wear where
  consumed : Nat := 0
  ops : Nat := 0
  lastBatten : Nat := 0
  lastI : Int := 0
  overrides : Nat := 0
  identity : Nat := 0
  differs : Bool := false
deriving DecidableEq, Repr, Inhabited

/-- Work lists of the learning and the ledger that partition 0x08 keeps in its private memory (R189, R201). -/
structure LedWork where
  due : List Commit := []
  /-- Ledger indices of the cells due in the round robin (R201). -/
  periodic : List Nat := []
  /-- Stop commits under way: CELL records left to stage, CHARGE staged (R201). -/
  stopCells : Option (List Nat) := Option.none
  stopCharge : Bool := false
  /-- Learning: the next cell of the round, a round running, one due, courses since it ended (R189). -/
  next : Nat := 0
  roundOn : Bool := false
  roundDue : Bool := false
  roundAge : Nat := 0
deriving DecidableEq, Repr, Inhabited

structure Led where
  vholdOk : Bool := false
  pfail : Bool := false
  /-- The commit in progress, whether it is a second try, and the payload it writes (R198). -/
  busy : Option (Commit × Bool × List Byte) := Option.none
  /-- Staged commits in order, each with whether it is a second try. -/
  staged : List (Commit × Bool) := []
  work : LedWork := {}
  /-- Records a LEDGER run staged that wait in the release buffer for a clean checkpoint (R271). -/
  held : List Commit := []
  /-- The final CHARGE commit of a PFAIL has been started (R199). -/
  finalDone : Bool := false
  /-- String charge counters and batten of the last completed Thatch update (R199, R200). -/
  cap : Vector Int 4 := Vector.replicate 4 0
  capAt : Nat := 0
  commits : Nat := 0
  failed : Nat := 0
  load : Nat := 0
  cmdResult : Nat := 0
  /-- Commits a LED_CMD waits for; the commit in progress when it was accepted is none of them (R203). -/
  cmdWaits : List Commit := []
  cmdLater : Bool := false
  /-- Learning: the pending copies, and the active ones. -/
  cells : Vector LearnCell 512 := Vector.replicate 512 {}
  active : Vector LearnCell 512 := Vector.replicate 512 {}
  /-- Wear of the contactors, 3 × string + role (R200). -/
  wear : Vector Wear 12 := Vector.replicate 12 {}
  /-- The PORT records as loaded or accepted: IDENT, batten, CHANGES (R200). -/
  idents : Vector (Option (Ident × Nat × Nat)) 32 := Vector.replicate 32 Option.none
  /-- MODULE record: digest, IMG_SEQ, COLD, BROWN. -/
  modDigest : List Byte := []
  modSeq : Nat := 0
  cold : Nat := 0
  brown : Nat := 0
deriving DecidableEq, Repr, Inhabited

/-- Request classes of the pager (R206). -/
inductive PageClass where
  | core | learn | host
deriving DecidableEq, Repr, Inhabited

/-- A queue entry of the pager: class, page, batten since which the page has been resident. -/
structure PageReq where
  cls : PageClass
  page : Nat
  residentSince : Option Nat
deriving DecidableEq, Repr, Inhabited

/-- A resident page: number, modified (R206). Least recently used first in the list. -/
structure Page where
  no : Nat
  modified : Bool
deriving DecidableEq, Repr, Inhabited

structure Seg where
  st : SegState := .free
  mask : BitVec 4 := 0
  joined : Nat := 0
  /-- PGR_FTRIG: the batten number of the first trigger, as it stood (R213). -/
  first : Nat := 0
  /-- The battens of the first and the latest trigger and of the freeze on the running image's count: negative for one
  before its load (R205, R211). -/
  start : Int := 0
  latest : Int := 0
  frozenAt : Int := 0
deriving DecidableEq, Repr, Inhabited

/-- Sums of the running second for one string (R209). -/
structure HistStr where
  v : Rat := 0
  l : Rat := 0
  i : Rat := 0
  n : Nat := 0
  invalid : Nat := 0
deriving DecidableEq, Repr, Inhabited

structure Pgr where
  psramOk : Bool := false
  cache : List Page := []
  queue : List PageReq := []
  /-- Transfers the running PAGE_DEMAND slot may still make (R206). -/
  budget : Nat := 0
  hist : Vector HistStr 4 := Vector.replicate 4 {}
  updates : Nat := 0
  /-- Staged second frames and batten frames: address and octets (R213). -/
  seconds : List (Nat × Nat × List Byte) := []
  frames : List (Nat × List Byte) := []
  /-- Frames a HIST_PAGE run has taken that wait in the release buffer for a clean checkpoint (R271). -/
  outSec : List (Nat × Nat × List Byte) := []
  outBat : List (Nat × List Byte) := []
  newest : Option Nat := Option.none
  gapSec : Nat := 0
  gapBat : Nat := 0
  segs : Vector Seg 4 := Vector.replicate 4 {}
  flost : Nat := 0
  missRes : Nat := 0
  missFull : Nat := 0
deriving DecidableEq, Repr, Inhabited

/-! ## Ridge (R214 to R239) -/

structure Str where
  st : StrState := .opened
  phase : Phase := .idle
  cause : Cause := .none
  lastRefused : Nat := 0
  ramp : Bool := false
  rampAck : Bool := false
  /-- Batten at which an armed override lapses (R235). -/
  overrideTo : Option Nat := Option.none
  preFails : Nat := 0
  joinMode : Bool := false
  /-- Batten at which the phase began, and its deadline from there. -/
  began : Nat := 0
  deadline : Nat := 0
  /-- Batten bB and the values read at its edge (R223): V0, V_s [V], bounds. -/
  bB : Nat := 0
  v0 : Rat := 0
  vS : Rat := 0
  nFast : Rat := 0
  nSlow : Nat := 0
  joinRun : Nat := 0
  cntV : Nat := 0
  cntT : Nat := 0
  cntI : Nat := 0
  /-- Standstill causes present (RDG_BREACH[2:0]). -/
  stale : Bool := false
  mismatch : Bool := false
  thermal : Bool := false
  /-- Evaluations of the running course that found every Standstill cause clear (R230). -/
  clearRun : Nat := 0
  weldRun : Nat := 0
  /-- Batten of the evaluation that entered Open (R231). -/
  openAt : Option Nat := Option.none
  /-- Batten at which the precharge cooldown ends (R224). -/
  cooldown : Option Nat := Option.none
  /-- The ramp's batten bR, its cause, the battens at or below I_zero (R228). -/
  bR : Nat := 0
  lowRun : Nat := 0
  unackLogged : Bool := false
  /-- Every batten of HOLD so far was above I_zero (R226). -/
  holdHigh : Bool := true
  /-- Consecutive edges at or below I_zero since the orderly stop began (R406). -/
  stopLow : Nat := 0
  /-- The string's Verge validity at the previous evaluation; none before the first (R359). -/
  prevValid : Option Bool := Option.none
  /-- Precharge stays on through OVERLAP (R216, R223). -/
  preOn : Bool := false
  dV : Rat := 0
  dVj : Option Rat := Option.none
  ceilChg : Option Nat := Option.none
  ceilDis : Option Nat := Option.none
  /-- I_s of the last edge before a Spar trip, and before a core-pair reset (R234). -/
  lastI : Rat := 0
  resetI : Option Rat := Option.none
deriving DecidableEq, Repr, Inhabited

/-- An order latched for an edge (R218, R325): session (none: LOCAL), kind, strings, direction, value,
SEQ; from a GOOSE OPEN REQUEST it has no RESULT (R338). -/
structure Order where
  src : Option (Fin 8)
  kind : OrderKind
  strings : BitVec 4
  discharge : Bool
  value : Nat
  seq : Nat
  result : Bool
  /-- It holds a buffer of the pool, not of the reserved share (R325). -/
  pool : Bool := false
deriving DecidableEq, Repr, Inhabited

/-- RDG_RESA and RDG_RESB of a session (R239). -/
structure ResReg where
  res : List OrderResult := []
  code : Nat := 0
  winner : Nat := 15
  batten : Nat := 0
deriving DecidableEq, Repr, Inhabited

structure Rdg where
  strs : Vector Str 4 := Vector.replicate 4 {}
  /-- Orders accepted for the coming edge, at most one per session (R218, R325). -/
  incoming : List Order := []
  /-- Orders latched at this batten's edge, for this batten's evaluation (R15). -/
  latched : List Order := []
  localSel : BitVec 4 := 0
  localRes : List OrderResult := []
  /-- Batten t_p of the press that opened the reset window (R233). -/
  resetAt : Option Nat := Option.none
  resA : Vector ResReg 8 := Vector.replicate 8 {}
  notDone : Nat := 0
  rampTimeouts : Nat := 0
  /-- CLOSE refused for insulation; consecutive results below INS_OPEN; a new result waits (R229). -/
  insHeld : Bool := false
  insLow : Nat := 0
  insOpenNow : Bool := false
  /-- Causes and tone trips of the present latch that evaluations have seen (R260, R262, R414). -/
  seenCauses : BitVec 16 := 0
  seenTones : Word := 0
  plant : Nat := 0
  /-- The evaluation at the reclaim is due (R238). -/
  reclaim : Bool := false
  /-- The hold window expired since the last evaluation (R237). -/
  expired : Bool := false
  /-- The hold window expired before any Spar trip (R234). -/
  expiredFirst : Bool := false
  evaluated : Bool := false
  /-- Intents of the last evaluation: the mask of coil channels on. -/
  coils : BitVec 16 := 0
deriving DecidableEq, Repr, Inhabited

/-! ## Spar (R240 to R264) -/

structure Spar where
  mode : SparMode := .start
  pressed : Bool := false
  released : Bool := false
  actuation : Bool := false
  handFault : Bool := false
  causes : BitVec 16 := 0
  toneTrip : Word := 0
  laneTrip : BitVec 5 := 0
  tonePresent : Word := 0
  toneMask : Word := 0xFFFFFFFF
  unmaskReq : Word := 0
  lanePresent : BitVec 5 := 0
  laneMask : BitVec 5 := 0x1F
  /-- Filtered contact channels, 1 closed, in the order of SPR_INPUTS. -/
  inputs : BitVec 22 := 0
  pairTest : Vector PairTest 11 := Vector.replicate 11 .untested
  testDone : Bool := false
  pairFaults : BitVec 11 := 0
  /-- A faulted pair has been seen agreeing in its demand or pressed state (R248). -/
  faultSeen : BitVec 11 := 0
  doorProof : BitVec 4 := 0
  doorSeen : BitVec 4 := 0
  handProof : Bool := false
  /-- A two-hand attempt runs: the first button pressed (R254). -/
  firstBtn : Option Bool := Option.none
  needRelease : Bool := false
  handSkew : Nat := 0
  handOver : Bool := false
  /-- Batten in which the reset button became pressed, and in which its release began (R255); negative for one before
  the image load. -/
  resetFrom : Option Int := Option.none
  resetTo : Option Int := Option.none
  /-- The battens did not count through the whole of the running press. -/
  pressLost : Bool := false
  gateCmd : BitVec 16 := 0
  gateOn : BitVec 16 := 0
  gateBad : BitVec 16 := 0
  /-- Switches commanded on that are sensed not conducting (R245). -/
  gateDead : BitVec 16 := 0
  gateReq : BitVec 16 := 0
  gateUse : BitVec 16 := 0
  gateMap : Vector Nat 16 := Vector.replicate 16 0
  sealPins : Nat := 0
  doors : Nat := 0
  fireGas : Nat := 0
  twoHand : Bool := false
  usedPorts : Word := 0
  /-- String of each port, for tone masks (R106). -/
  portStr : Vector Nat 32 := Vector.replicate 32 0
  strings : Nat := 0
  /-- A configuration of the loaded image has not reached Spar yet (R241). -/
  cfgDue : Bool := false
  service : BitVec 4 := 0
  dormant : Bool := false
  holdExpired : Bool := false
  supplyOk : Bool := true
  /-- A count of the clock monitor has been found outside its window (R257). -/
  clockBad : Bool := false
  /-- The SPAR clock is stopped (R257). -/
  stopped : Bool := false
  /-- Spar is held in its own reset (R257). -/
  inReset : Bool := false
  /-- The logic die has seen Spar lose its state and owes it the resume notice (R257). -/
  resumeOwed : Bool := false
  presented : Word := 0
  /-- The lowest first cause and SPR_TONETRIP as the presented word was formed. -/
  wordFirst : Nat := 0
  wordTones : Word := 0
  fresh : Bool := false
  firstCause : Nat := 0
  firstSeen : Bool := false
  firstBatten : Nat := 0
  /-- Batten of the trip (R234). -/
  tripAt : Option Nat := Option.none
  latches : Nat := 0
  ignored : Nat := 0
  /-- Lowest cause of those that latched first. -/
  latchFirst : Nat := 0
deriving DecidableEq, Repr, Inhabited

/-! ## Eaves (R289 to R307) -/

structure Chan where
  cfg : EavesRec := {}
  next : EavesRec := {}
  conducting : Bool := false
  short : Bool := false
  overTemp : Bool := false
  openOn : Bool := false
  openOff : Bool := false
  toSupply : Bool := false
  offHigh : Nat := 0
  offLow : Nat := 0
  supHigh : Nat := 0
  supLow : Nat := 0
  latched : Bool := false
  retries : Nat := 0
  retryPending : Bool := false
  /-- The running attempt is a retry (R301). -/
  isRetry : Bool := false
  deferredRetry : Bool := false
  pullIn : Bool := false
  /-- A channel that failed in the hold window waits for the reclaim word (R304). -/
  waitReclaim : Bool := false
  fails : Nat := 0
  clamps : Nat := 0
  /-- Batten of the last clamp event (R297); negative for one before the image load. -/
  lastClamp : Option Int := Option.none
  /-- The battens did not count all the time since the last clamp event. -/
  clampLost : Bool := false
deriving DecidableEq, Repr, Inhabited

structure Eav where
  /-- The intent word that the output compare gate holds (R270). -/
  gated : Option IntentWord := Option.none
  on : BitVec 24 := 0
  seqNo : Byte := 0
  /-- A word has been accepted since the die's reset, so SEQ has a predecessor (R292). -/
  haveWord : Bool := false
  duty : Vector Nat 8 := Vector.replicate 8 0
  chans : Vector Chan 24 := Vector.replicate 24 {}
  refused : Nat := 0
  windows : Nat := 0
  hold : Bool := false
  expired : Bool := false
  /-- Every channel is off until the next accepted word: a hold window expired, or Dormant was entered
  (R304, R306). -/
  down : Bool := false
  vsupLow : Bool := false
  auxCmd : Byte := 0
  auxDuty : Vector Nat 8 := Vector.replicate 8 0
  /-- The intent word in crossing 6's holding register, and the one in its pending slot (R291, R393). -/
  word : Option IntentWord := Option.none
  wordNext : Option IntentWord := Option.none
  /-- The new configuration waits for the first word of the new image (R305). -/
  cfgWaits : Bool := false
deriving DecidableEq, Repr, Inhabited

/-! ## Hosts and networks (R308 to R341) -/

/-- A request accepted by Purlin and not yet answered (R320, R323, R324). -/
inductive ReqBody where
  | opening (start : Nat)
  | ending
  | read (addr count : Nat)
  | write (addr count mode : Nat) (data : List Word)
  | nop
deriving DecidableEq, Repr, Inhabited

structure Req where
  who : Who
  seq : Nat
  body : ReqBody
  guarantee : Nat
  pool : Bool
  via : Via
deriving DecidableEq, Repr, Inhabited

/-- A message of the module to a host (R315): writer, KIND, SEQ, STATUS, BATTEN, payload octets; on a network its
destination: the session's PEER_IP and PEER_UDP, the source MAC of the last request accepted from it (none before one),
and the sequence number of the trailer that both copies of a PRP pair carry (R314, R332). -/
structure HostMsg where
  who : Who
  via : Via
  ip : Nat := 0
  udp : Nat := 0
  mac : Option (BitVec 48) := Option.none
  trailer : Option Nat := Option.none
  kind : Nat
  seq : Nat
  status : Nat
  batten : Nat
  payload : List Byte
deriving DecidableEq, Repr, Inhabited

/-- What a frame carries that the module sends on a network port other than a session message. A GOOSE transmission has the
record, gocbRef and datSet, stNum, sqNum, timeAllowedToLive, t [ms] with its quality, and the members (R334 to R336). -/
inductive NetTx where
  | arpReply (port : NetPort) (mac : BitVec 48)
  | gratuitousArp (port : NetPort)
  | echoReply (port : NetPort) (mac : BitVec 48) (payload : List Byte)
  | supervision
  | pdelayReq (port : NetPort)
  | pdelayResp (port : NetPort)
  | goose (record : Nat) (gocbRef datSet : List Byte) (stNum sqNum ttl : Nat) (t quality : Nat) (members : List Int)
deriving DecidableEq, Repr, Inhabited

/-- A frame sent, with the sequence number of its trailer: under PRP both LANs carry a copy, each with its own LanId
(R332). PTP frames have none, and leave on the port they name. -/
structure SentFrame where
  tx : NetTx
  trailer : Option Nat
deriving DecidableEq, Repr, Inhabited

/-- A frame that duplicate discard remembers: source, sequence number, LAN, batten (R332). -/
structure DupEntry where
  mac : BitVec 48
  seq : BitVec 16
  lanB : Bool
  at_ : Nat
deriving DecidableEq, Repr, Inhabited

structure Sess where
  defn : SessionRec := {}
  defined : Bool := false
  delivering : Bool := false
  /-- Source MAC of the last request accepted from it (R314). -/
  mac : Option (BitVec 48) := Option.none
  /-- The last 16 accepted SEQs with their GUARANTEE, newest first (R319). -/
  seqs : List (Nat × Nat) := []
  lastReq : Nat := 0
  evtMask : BitVec 128 := 0
  /-- Event delivery takes entries from this place of the Gutter's total on (R317, R416). -/
  start : Nat := 0
  /-- Routed entries not yet acknowledged, oldest first, by their place in the Gutter's total (R328, R329). -/
  routed : List Nat := []
  lost : Nat := 0
  evtSeq : Nat := 0
  /-- The outstanding EVENT: the message, how many routed entries it carries, the batten it was last sent in (none
  while it waits in the release buffer), resends so far. -/
  outstanding : Option (HostMsg × Nat × Option Nat × Nat) := Option.none
deriving DecidableEq, Repr, Inhabited

/-- A source of the PRP node table: MAC, batten first heard, last batten heard on LAN A and on LAN B, logged (R332). -/
structure PrpNode where
  mac : BitVec 48
  since : Nat
  seenA : Option Nat
  seenB : Option Nat
  /-- The LAN it was logged as heard on alone, until it is heard on the other. -/
  logged : Option Bool
deriving DecidableEq, Repr, Inhabited

structure GooseRun where
  st : GooseState := .none
  stNum : Nat := 0
  sqNum : Nat := 0
  /-- Next interval [ms] and the batten of the last frame (R335, R337). -/
  interval : Nat := 0
  lastAt : Nat := 0
  ttl : Nat := 0
  /-- The dataset's members as last formed, with t and its quality (R335, R336); it has not been transmitted yet. -/
  members : List Int := []
  t : Nat := 0
  quality : Nat := 0
  unsent : Bool := false
  /-- A subscription's next frame acted on counts as its first (R338). -/
  first : Bool := true
  vals : Vector Word 8 := Vector.replicate 8 0
deriving DecidableEq, Repr, Inhabited

/-- A RESULT that a session is owed (R325): its SEQ, whether the order holds a buffer of the pool, and the payload where it is
not that of the session's registers. -/
structure Owed where
  n : Fin 8
  seq : Nat
  pool : Bool
  payload : Option (List Byte) := Option.none
deriving DecidableEq, Repr, Inhabited

/-- Slot 7's published values in the output compare gate (R270): the flag word, the plant's limits, the strings'. -/
structure LimitsWord where
  flags : Nat
  plant : List Nat
  strs : List (List Nat)
deriving DecidableEq, Repr, Inhabited

structure Hst where
  /-- The published values that the output compare gate holds (R270). -/
  limitsGate : Option LimitsWord := Option.none
  sess : Vector Sess 8 := Vector.replicate 8 {}
  /-- Accepted requests, oldest first. -/
  queue : List Req := []
  latches : Vector Latches 9 := Vector.replicate 9 {}
  /-- Replies and results waiting for their checkpoint, with the buffer each holds: 0 none, 1 of the reserved share,
  2 of the pool (R271, R320). -/
  release : List (HostMsg × Nat) := []
  /-- Sessions whose arbitrated order still owes a RESULT: session, SEQ, its buffer is of the pool (R325). -/
  results : List Owed := []
  /-- SEQs of the built-in Gable session (R312). -/
  gableSeqs : List (Nat × Nat) := []
  /-- Messages waiting for the Gable port, oldest first (R339). -/
  gableOut : List HostMsg := []
  gableRx : Nat := 2
  /-- What the module shifted out in the last Gable transaction: its STATUS octet, then the octets of STATUS or of the
  waiting message; dummy octets are left out (R339). -/
  gableShift : List Byte := []
  refused : Nat := 0
  discarded : Nat := 0
  linkA : LinkState := .down
  linkB : LinkState := .down
  lossA : Nat := 0
  lossB : Nat := 0
  prpA : Nat := 0
  prpB : Nat := 0
  prpDup : Nat := 0
  prpWrong : Nat := 0
  /-- The sequence number of the next trailer, and the frames that duplicate discard remembers, newest first (R332). -/
  prpSeq : Nat := 0
  dups : List DupEntry := []
  nodes : List PrpNode := []
  icmpA : Nat := 0
  icmpB : Nat := 0
  ptpPort : Nat := 0
  gm : Option Announce := Option.none
  /-- The last Announce of a grandmaster had currentUtcOffsetValid set (R336). -/
  leapKnown : Bool := false
  gmA : Option Announce := Option.none
  gmB : Option Announce := Option.none
  /-- Battens of the last Announce of the master behind gmA and gmB (R333). -/
  annA : Nat := 0
  annB : Nat := 0
  /-- Battens of the last usable Sync, and of the last per port (R40, R333). -/
  syncAt : Nat := 0
  syncA : Option Nat := Option.none
  syncB : Option Nat := Option.none
  pdelayA : Nat := 0
  pdelayB : Nat := 0
  goose : Vector GooseRun 24 := Vector.replicate 24 {}
  /-- Datasets the GOOSE slot formed that wait in the release buffer: record, members (R271). -/
  gooseHeld : List (Nat × List Int) := []
  notActed : Nat := 0
  openLatches : Nat := 0
  /-- Messages and frames sent since the batten edge, oldest first. -/
  sent : List HostMsg := []
  netSent : List SentFrame := []
deriving DecidableEq, Repr, Inhabited

/-! ## CAN (R342 to R352) -/

/-- A CAN FD frame that left on the bus: its identifier and format, the bit-rate switch, its octets (R342, R346). -/
structure CanTx where
  id : Nat
  extended : Bool
  brs : Bool
  /-- The error state indicator: 1 from an error-passive node (ISO 11898-1). -/
  esi : Bool
  octets : List Byte
deriving DecidableEq, Repr, Inhabited

structure Can where
  cfg : CanRec := {}
  configured : Bool := false
  integrated : Bool := false
  err : CanErr := .active
  alone : Bool := false
  tecCnt : Nat := 0
  recCnt : Nat := 0
  ackErrs : Nat := 0
  loopDelay : Nat := 0
  /-- 0 empty, 1 pending, 2 in arbitration or transmission (CAN_MB0). -/
  mb : Nat := 0
  /-- The frame has been handed over and waits for its time. -/
  handed : Bool := false
  cancel : Bool := false
  /-- The cancellation is that of a core-pair reset. -/
  byReset : Bool := false
  frame : List Byte := []
  frameBatten : Nat := 0
  txRes : Nat := 0
  txBatten : Nat := 0
  sent : Nat := 0
  lateSent : Nat := 0
  dropped : Nat := 0
  busOffs : Nat := 0
  passives : Nat := 0
  alones : Nat := 0
  received : Nat := 0
  matched : Nat := 0
  collisionCourse : Option Nat := Option.none
  stopped : Bool := false
  /-- Frames that left on the bus since the batten edge. -/
  onBus : List CanTx := []
deriving DecidableEq, Repr, Inhabited

/-! ## Core pair (R265 to R288) -/

/-- What the restart journal gives back of partitions 0x07 and 0x08 (R276): learning, the ledger's work lists, the
impedance results, the place up to which Gutter entries were routed. -/
structure PartSave where
  cells : Vector LearnCell 512 := Vector.replicate 512 {}
  work : LedWork := {}
  imp : Vector ImpCell 512 := Vector.replicate 512 {}
  routed : Nat := 0
deriving DecidableEq, Repr, Inhabited

/-- An entry of the load queue (R267): the partition of a shared load of the lead core, its address and its value. -/
structure LoadEntry where
  part : Fin 8
  addr : Word
  value : Word
deriving DecidableEq, Repr, Inhabited

/-- A line of the restart journal (R276): its number in private memory, its partition's code, its old 64 octets. -/
structure JournalLine where
  line : Nat
  part : Nat
  old : List Byte
deriving DecidableEq, Repr, Inhabited

/-- One core (R265, R267, R272, R276): register file, program counter, instructions retired since its release and since
the last checkpoint, the restart journal, and what the last clean checkpoint saved. -/
structure Core where
  regs : Vector Word 32 := Vector.replicate 32 0
  pc : Word := 0
  retired : Nat := 0
  since : Nat := 0
  journal : List JournalLine := []
  /-- A store has found the journal full since the last checkpoint. -/
  full : Bool := false
  savedRegs : Vector Word 32 := Vector.replicate 32 0
  savedRetired : Nat := 0
deriving DecidableEq, Repr, Inhabited

/-- The private data memories of the two cores, 512 KiB each, only what differs from an unlisted byte (R267). -/
structure Priv where
  lead : Mem := []
  check : Mem := []
deriving DecidableEq, Repr, Inhabited

structure Cpr where
  lead : Core := {}
  check : Core := {}
  /-- Shared loads of the lead core that the check core has not made yet, oldest first (R267). -/
  loads : List LoadEntry := []
  /-- The partition that ran at the last barrier or halt. -/
  lastRan : Fin 8 := 0
  run : PairRun := .running
  /-- The restart under way is that of an image's load (R82, R279, R391). -/
  loading : Bool := false
  coupling : Coupling := .joined
  dbgHalted : Bool := false
  dbgOn : Bool := false
  selfTest : Bool := true
  lastPart : Nat := 0
  lastKind : Nat := 0
  lag : Nat := 0
  /-- The lag as it stands: that of the last checkpoint, 0 after the stall of an agreement read (R273). -/
  lagNow : Nat := 0
  lagMax : Nat := 0
  restartable : Nat := 0
  protective : Nat := 0
  agree : Nat := 0
  cleanBatten : Nat := 0
  cleanClosing : Bool := false
  byMismatch : Nat := 0
  byWatchdog : Nat := 0
  selfFails : Nat := 0
  sigL : Vector Word 8 := Vector.replicate 8 0
  sigC : Vector Word 8 := Vector.replicate 8 0
  /-- Signatures since the last clean checkpoint, lead and check (R269). -/
  curL : Vector Word 8 := Vector.replicate 8 0xFFFFFFFF
  curC : Vector Word 8 := Vector.replicate 8 0xFFFFFFFF
  /-- Mismatches recorded since the previous checkpoint: partition and kind. -/
  recorded : List (Nat × Nat) := []
  /-- Battens of restartable mismatches within the last 1 000 (R277). -/
  recent : List Nat := []
  splitRes : Nat := 0
  shadows : Nat := 0
  shadowClean : Bool := true
  coursesLeft : Nat := 0
  /-- SPLIT accepted for the next batten 0: job and duration. -/
  splitDue : Option (Nat × Nat) := Option.none
  rejoinDue : Bool := false
  job : Nat := 0
  /-- The next page of the history ring that the job asks for (R282). -/
  jobPage : Nat := 0
  jobRes : List Word := []
  /-- Changes of the debugger that wait for their replay, each with the lead core's retired count, oldest first (R286). -/
  dbgWaiting : List (Nat × DebugEdit) := []
  breakpoints : List Word := []
  /-- The word that the debug unit's last read answered. -/
  dbgOut : Option Word := Option.none
  dbgReplayed : Nat := 0
  /-- The Spar status word that this batten's agreement read returned to both cores (R273). -/
  agreedWord : Option Word := Option.none
  /-- The values that this batten's other agreement reads returned, newest first (R273). -/
  agreed : List (AgreeInput × Word) := []
  /-- The rows and inputs of R274 whose disagreement was logged in this batten. -/
  disagreed : List (Nat × AgreeInput) := []
  /-- A core-pair reset was asserted and its reclaim is still to come. -/
  resetAt : Nat := 0
  /-- What the regions of the restartable partitions held at the last clean checkpoint (R276). -/
  saved : PartSave := {}
  /-- Both cores resume at the next batten edge (R276). -/
  resume : Bool := false
deriving DecidableEq, Repr, Inhabited

/-! ## Verge (R353 to R367) -/

/-- The module's side of an insulation cycle (R362): the bus voltage [V] as the means over battens 800 to 899 and 900 to
999 of its first and its second half, and the main-negative contactors commanded closed during it. -/
structure InsBus where
  early1 : Rat := 0
  late1 : Rat := 0
  early2 : Rat := 0
  late2 : Rat := 0
  mains : BitVec 4 := 0
deriving DecidableEq, Repr, Inhabited

/-- The Verge die and its side of the module (R355 to R367). -/
structure Vrg where
  powered : Bool := false
  configured : Bool := false
  cfg : VergeRec := {}
  strings : Nat := 0
  supplyGood : Bool := false
  refGood : Bool := false
  clockGood : Bool := false
  /-- The HVS clock has stopped, so no lane toggles (R361). -/
  stopped : Bool := false
  /-- Consecutive battens with frame 0 missing. -/
  missing : Nat := 0
  /-- Barrier delay measured at the last power-up [ns]. -/
  delay : Nat := 0
  /-- Voltages at instant 0 [V] and currents at instant 0 [A], last valid values. -/
  v : Vector Rat 8 := Vector.replicate 8 0
  i : Vector Rat 4 := Vector.replicate 4 0
  /-- Batten-mean currents, last valid ones [A]. -/
  iMean : Vector Rat 4 := Vector.replicate 4 0
  /-- This batten: voltage channels valid, and per string the instants whose current is valid, with the currents. -/
  vOk : BitVec 8 := 0
  iOk : Vector (BitVec 4) 4 := Vector.replicate 4 0
  amps : Vector (Vector Rat 4) 4 := Vector.replicate 4 (Vector.replicate 4 0)
  /-- Frames completed or missed in this batten. -/
  seen : BitVec 4 := 0
  /-- The last batten: strings valid, shunt channels valid, instants 1 to 3 valid per string, its currents. -/
  valid : BitVec 4 := 0
  shuntValid : BitVec 4 := 0
  tailOk : BitVec 4 := 0xF
  /-- The voltage channels that were valid in the last batten (VRG_VALID). -/
  lastVolts : BitVec 8 := 0
  lastAmps : Vector (Vector Rat 4) 4 := Vector.replicate 4 (Vector.replicate 4 0)
  /-- String voltages of the last batten [V] and whether its frame 0 was valid for the string (R119). -/
  lastV : Vector Rat 4 := Vector.replicate 4 0
  lastVOk : BitVec 4 := 0
  /-- A frame 0 has been valid since the power-up (R365). -/
  firstValid : Bool := false
  /-- Battens invalid per string (VRG_INV). -/
  inv : Vector Nat 4 := Vector.replicate 4 0
  /-- Comparators active: over-current of strings 0 to 3, over-voltage. -/
  comparators : BitVec 5 := 0
  /-- String charge counters [µA·s] and the valid battens' mean currents in the averaging window. -/
  charge : Vector Int 4 := Vector.replicate 4 0
  means : Vector (List (Nat × Rat)) 4 := Vector.replicate 4 []
  /-- Battens with invalid samples: cumulative (R192), and since the snapshot behind the set in force and the one
  being worked on (R149). -/
  gaps : Vector Nat 4 := Vector.replicate 4 0
  /-- Insulation: bus voltage summed over the running 100 battens of a mean [V], and what the running cycle has so far. -/
  uSum : Rat := 0
  uNum : Nat := 0
  bus : InsBus := {}
  /-- The running cycle began after the first valid frame and on the grid. -/
  cycleOk : Bool := false
  /-- The cycle that ended at this course's edge and has given nothing yet. -/
  ended : Option InsBus := Option.none
  /-- A cycle has ended whose outcome is not told yet (R364). -/
  cycleOver : Bool := false
  rPos : Nat := 0
  rNeg : Nat := 0
  result : Nat := 0
  /-- A cycle's result that waits for frame 0: R+, R−, BUS DEAD, ABOVE RANGE, BELOW RANGE, main-negatives. -/
  resultDue : Option (Nat × Nat × Bool × Bool × Bool × BitVec 4) := Option.none
  busDead : Bool := false
  above : Bool := false
  below : Bool := false
  unsettled : Bool := false
  resMains : BitVec 4 := 0
  /-- The batten number stamped on the last result, and that batten as the running numbers count it. -/
  resAt : Option Nat := Option.none
  resFrom : Int := 0
  noResult : Nat := 0
  warned : Bool := false
  /-- A result has entered CORE that Ridge has not yet judged (R229). -/
  newResult : Bool := false
  /-- The insulation events the next evaluation logs: code and DETAIL (R364, R412). -/
  insEvents : List (Nat × Nat) := []
deriving DecidableEq, Repr, Inhabited

/-! ## Feedback channels (R368 to R379) -/

structure Fbk where
  cfg : FeedbackRec := {}
  a : Bool := true
  b : Bool := true
  c : Bool := true
  dir : Dir := .none
  still : Bool := false
  indexSeen : Bool := false
  pos : Int := 0
  period : Nat := 0
  speed : Int := 0
  deviation : Int := 0
  edges : Nat := 0
  errs : Nat := 0
  mismatches : Nat := 0
  dirs : Nat := 0
  /-- Ticks since the last counted event; the measurement restarts at the next event (R373). -/
  since : Nat := 0
  restart : Bool := true
  /-- A count against the reported direction is pending (R375). -/
  against : Option Dir := Option.none
  /-- The hall reference: the last valid code (R370). -/
  hallRef : Option Nat := Option.none
  indexPos : Int := 0
  indexDir : Dir := .none
  dirChanged : Bool := false
  /-- Kinds logged in this batten (R376). -/
  logged : BitVec 6 := 0
  /-- The batten of the last counted event, or of the load or wake that set the standstill timer to 0 (R374, R378). -/
  countAt : Nat := 0
deriving DecidableEq, Repr, Inhabited

/-! ## Power, clocks, crossings (R380 to R409) -/

structure Sensor where
  temp : Int := 0
  broken : Bool := false
  /-- PWR_TEMPn[17] (R405). -/
  rise : Bool := false
  /-- Readings of the last ten rounds, newest first, none for a broken one (R405). -/
  past : List (Option Int) := []
  /-- Rounds in which a rise is not logged again. -/
  riseWait : Nat := 0
deriving DecidableEq, Repr, Inhabited

structure Pwr where
  power : PowerState := .run
  level : Nat := 0
  stop : Nat := 0
  startKind : Nat := 0
  /-- Batten of the evaluation at which Shutdown was entered (R406). -/
  shutdownAt : Nat := 0
  wake : BitVec 6 := 0
  dormantLen : Nat := 0
  /-- The quiet count of R384, in battens. -/
  quietMs : Nat := 0
  next : Nat := 0
  nextKind : Nat := 0
  wakeAt : Nat := 0
  cmdRes : Nat := 0
  sensors : Vector Sensor 6 := Vector.replicate 6 {}
  rails : Vector Nat 4 := Vector.replicate 4 0
  entries : Nat := 0
  abandons : Nat := 0
  throttles : Nat := 0
  warnings : Nat := 0
  /-- Dormant entry under way (R386), the batten at which it was decided. -/
  entering : Option Nat := Option.none
  /-- The last batten before Dormant or Ship runs (step 4 of R386). -/
  last : Bool := false
  /-- Step 6 of R386 has begun: the cores stop, no edge follows. -/
  asleep : Bool := false
  /-- The module has put the PSRAM in self-refresh and the NOR in deep power-down (R380, R386). -/
  memoriesDown : Bool := false
  /-- A Ship order is carried out (R390). -/
  shipOrdered : Bool := false
  /-- Batten of the wake that began the running wake round (R389). -/
  wakeRound : Option Nat := Option.none
  /-- A wake is in progress (R388). -/
  waking : Bool := false
  /-- The AON wake timer: its batten and the PWR_WAKE bits it sets (R385, R387). -/
  timer : Option (Nat × Nat) := Option.none
  /-- The orderly stop's commits have ended and slot 6 is to write the all-off word; it has written it (R406). -/
  allOff : Bool := false
  offSent : Bool := false
  /-- The cores are halted (R406, R407), and consecutive rounds with every sensor below 120.0 degrees. -/
  halted : Bool := false
  coolRounds : Nat := 0
deriving DecidableEq, Repr, Inhabited

structure Cdc where
  ovr : BitVec 15 := 0
  /-- Items that wait in each crossing, but for the words of crossing 6 (R392). -/
  fill : Vector Nat 15 := Vector.replicate 15 0
  full : Vector Nat 15 := Vector.replicate 15 0
  dropped : Vector Nat 15 := Vector.replicate 15 0
  wakes : Nat := 0
deriving DecidableEq, Repr, Inhabited

/-! ## Gutter (R410 to R418) -/

structure Entry where
  batten : Nat := 0
  cycle : BitVec 18 := 0
  source : Nat := 0
  code : Nat := 0
  cls : Nat := 0
  detail : Word := 0
deriving DecidableEq, Repr, Inhabited

structure Gtr where
  /-- The ring's entries, newest first, at most 1 024. -/
  ring : List Entry := []
  /-- Entries logged since the last clear (GTR_TOTAL, kept whole). -/
  total : Nat := 0
  /-- Entries routed to the sessions so far, counted as `total`. -/
  routed : Nat := 0
  overwritten : Nat := 0
  suppressed : Nat := 0
  /-- The entries logged in the running batten and the one before it, overwritten ones too (R415). -/
  recent : List Entry := []
  /-- F entries waiting in a release buffer: partition and entry (R417). -/
  held : List (Nat × Entry) := []
deriving DecidableEq, Repr, Inhabited

/-! ## The whole module -/

/-- Why the machine stops with a fault. -/
inductive Fault where
  /-- Raised by SLOT_ENTRY_START and CLOSING_CHECKPOINT for a cycle beyond the batten: a batten is exactly
  240 000 CORE cycles (R25), so no work starts there. Safe: no run of the hardware gives such a cycle. -/
  | noSuchCycle
deriving DecidableEq, Repr, Inhabited

/-- Why a command gets no meaning. -/
inductive Refusal where
  /-- A command with no meaning in the model yet. Safe. -/
  | notModelled (mnemonic : String)
  /-- Raised by DEBUG_INSTRUCTION in Bench for an instruction code other than those R285 and R287 describe:
  what the Henastin debug unit does there the manual does not say. Safe. -/
  | debugUnit (code : Byte)
deriving DecidableEq, Repr, Inhabited

/-- The state of the module. -/
structure State where
  /-- Commands that wait, first in, first out. -/
  pending : List Instr := []
  /-- The model's own counter behind its free values. -/
  fresh : Nat := 0
  lands : Lands := {}
  /-- The NOR's two image slots, 8 MB; an unlisted address reads 0xFF, erased (R46, R47). -/
  nor : Mem := []
  /-- The MRAM of the ledger, 512 KB; an unlisted address reads 0 (R196). -/
  mram : Mem := []
  /-- PSRAM 0x0000_0000 to 0x03FF_FFFF; an unlisted address reads 0 (R204). -/
  psram : Mem := []
  img : Img := {}
  cfg : Image := {}
  bat : Bat := {}
  owl : Owl := {}
  tha : Tha := {}
  est : Est := {}
  led : Led := {}
  pgr : Pgr := {}
  rdg : Rdg := {}
  spar : Spar := {}
  cpr : Cpr := {}
  /-- The two cores' private data memories; an unlisted octet reads 0 (R267). -/
  priv : Priv := {}
  eav : Eav := {}
  hst : Hst := {}
  can : Vector Can 2 := Vector.replicate 2 {}
  vrg : Vrg := {}
  fbk : Vector Fbk 4 := Vector.replicate 4 {}
  pwr : Pwr := {}
  cdc : Cdc := {}
  gtr : Gtr := {}
deriving DecidableEq, Repr, Inhabited

/-- The module right after reset and before its cold start has loaded anything: no image, every string
register at Open, Spar in START, every channel off, memories with nothing listed. -/
def State.reset : State := {}

end Sys2Proof.Machine
end

