-- ==== Sys2Proof/Machine/Ops.lean ====
section
/-! DEFINITION. The named operations over memory, octets, checksums and the state's parts that every block uses:
the canonical byte memories, CRC-32 and SHA-256 (R51, R52), lookups in the loaded image, and the Gutter's logging
(R410 to R417). -/

namespace Sys2Proof.Machine

/-- The outcome of a command that goes on. -/
abbrev Out := Host.Outcome State Fault Refusal

/-! ## Byte memories -/

/-- What an address reads as; `d` is what an unlisted address reads as. -/
def memGet (d : Byte) : Mem → Nat → Byte
  | [], _ => d
  | (a, b) :: m, x => if a = x then b else memGet d m x

/-- The memory with one byte written, kept canonical: writing `d` removes the entry. -/
def memPut (d : Byte) : Mem → Nat → Byte → Mem
  | [], x, v => if v = d then [] else [(x, v)]
  | (a, b) :: m, x, v =>
    if x < a then (if v = d then (a, b) :: m else (x, v) :: (a, b) :: m)
    else if x = a then (if v = d then m else (x, v) :: m)
    else (a, b) :: memPut d m x v

/-- `n` bytes from an address, of a memory whose entries all lie at or above it. -/
def memTake (d : Byte) : Nat → Nat → Mem → List Byte
  | 0, _, _ => []
  | n + 1, x, [] => d :: memTake d n (x + 1) []
  | n + 1, x, (a, b) :: m => if a = x then b :: memTake d n (x + 1) m else d :: memTake d n (x + 1) ((a, b) :: m)

/-- `n` bytes from an address. -/
def memGets (d : Byte) (m : Mem) (x n : Nat) : List Byte := memTake d n x (m.dropWhile (fun c => c.1 < x))

/-- Bytes written from an address on. -/
def memPuts (d : Byte) : Mem → Nat → List Byte → Mem
  | m, _, [] => m
  | m, a, b :: bs => memPuts d (memPut d m a b) (a + 1) bs

/-- A range of addresses back to what an unlisted address reads as. -/
def memErase (m : Mem) (lo hi : Nat) : Mem := m.filter (fun c => c.1 < lo || hi ≤ c.1)

/-- The canonical form: addresses strictly rising from `lo` on, no entry equal to `d`. -/
def memWfFrom (d : Byte) : Nat → Mem → Bool
  | _, [] => true
  | lo, (a, b) :: m => lo ≤ a && b != d && memWfFrom d (a + 1) m

/-- The canonical form of a memory whose unlisted addresses read as `d`. -/
def Mem.wf (d : Byte) (m : Mem) : Bool := memWfFrom d 0 m

/-- What an erased NOR byte reads as (R47). -/
def norBlank : Byte := 0xFF
/-- What an unlisted byte of the MRAM and the PSRAM reads as. DESIGN CHOICE, log entry 3. -/
def ramBlank : Byte := 0

/-! ## Octets and numbers -/

/-- The little-endian number of a list of octets (R6). -/
def leNat : List Byte → Nat
  | [] => 0
  | b :: bs => b.toNat + 256 * leNat bs

/-- The big-endian number of a list of octets. -/
def beNat (l : List Byte) : Nat := leNat l.reverse

/-- A number as `n` octets, little-endian (R6). -/
def natLe : Nat → Nat → List Byte
  | 0, _ => []
  | n + 1, v => BitVec.ofNat 8 v :: natLe n (v / 256)

/-- A number as `n` octets, big-endian. -/
def natBe (n v : Nat) : List Byte := (natLe n v).reverse

/-- `n` octets of a list from an offset. -/
def slice (l : List Byte) (off n : Nat) : List Byte := (l.drop off).take n

/-- The little-endian field of `n` octets at an offset. -/
def fieldLe (l : List Byte) (off n : Nat) : Nat := leNat (slice l off n)

/-- The signed little-endian field of `n` octets at an offset. -/
def fieldSe (l : List Byte) (off n : Nat) : Int := ofTwos (8 * n) (fieldLe l off n)

/-! ## Checksums -/

/-- One octet of the reflected CRC-32 of R51. -/
def crc32Byte (c : BitVec 32) (b : Byte) : BitVec 32 :=
  (List.range 8).foldl (fun (c : BitVec 32) _ => if c.getLsbD 0 then (c >>> 1) ^^^ 0xEDB88320#32 else c >>> 1)
    (c ^^^ b.setWidth 32)

/-- A CRC-32 run over octets from a register value, without the final XOR (R51, R269). -/
def crc32Run (c : BitVec 32) (l : List Byte) : BitVec 32 := l.foldl crc32Byte c

/-- The CRC-32 of R51. -/
def crc32 (l : List Byte) : BitVec 32 := crc32Run 0xFFFFFFFF#32 l ^^^ 0xFFFFFFFF#32

/-- One octet of the CRC-16 of R93, most significant bit first. -/
def crc16Byte (c : BitVec 16) (b : Byte) : BitVec 16 :=
  (List.range 8).foldl (fun (c : BitVec 16) _ => if c.getLsbD 15 then (c <<< 1) ^^^ 0x1021#16 else c <<< 1)
    (c ^^^ (b.setWidth 16 <<< 8))

/-- The CRC-16 of R93. -/
def crc16 (l : List Byte) : BitVec 16 := l.foldl crc16Byte 0xFFFF#16

/-- The whole part of the `k`-th root of a number below 2^(40·k), bit by bit from the highest. -/
def wholeRoot (k n : Nat) : Nat := (List.range 40).foldr (fun b r => if (r + 2 ^ b) ^ k ≤ n then r + 2 ^ b else r) 0

/-- The first 64 primes. -/
def firstPrimes : List Nat := (List.range 312).filter (fun p => 1 < p && (List.range p).all (fun d => d < 2 || p % d != 0))

/-- The first 32 fraction bits of the `k`-th roots of the first primes: SHA-256 (R52) starts from square roots and adds
one cube root in every round. -/
def rootWords (k n : Nat) : List Word := (firstPrimes.take n).map (fun p => BitVec.ofNat 32 (wholeRoot k (p * 2 ^ (32 * k))))

/-- The XOR of a word's right rotations. -/
def xorRots (x : Word) (l : List Nat) : Word := (l.map x.rotateRight).foldr (· ^^^ ·) 0

/-- A message block's sixteen words drawn out by `n` more, each from four earlier ones. -/
def shaDraw : Nat → List Word → List Word
  | 0, w => w
  | n + 1, w =>
    let back := fun k => w.getD (w.length - k) 0
    let lo := back 15
    let hi := back 2
    shaDraw n (w ++ [(xorRots hi [17, 19] ^^^ (hi >>> 10))
      + (xorRots lo [7, 18] ^^^ (lo >>> 3)) + back 7 + back 16])

/-- A round over the eight working words, with the round's constant and message word summed. -/
def shaMix (v : List Word) (kw : Word) : List Word :=
  match v with
  | [a, b, c, d, e, f, g, h] =>
    let t := kw + h + xorRots e [6, 11, 25] + (g ^^^ (e &&& (f ^^^ g)))
    [t + xorRots a [2, 13, 22] + ((a &&& (b ||| c)) ||| (b &&& c)), a, b, c, d + t, e, f, g]
  | _ => v

/-- A block of 64 octets taken into the chaining words. -/
def shaTake (v : List Word) (block : List Byte) : List Word :=
  let w := shaDraw 48 ((List.range 16).map (fun i => BitVec.ofNat 32 (beNat (slice block (4 * i) 4))))
  List.zipWith (· + ·) v ((List.zipWith (· + ·) (rootWords 3 64) w).foldl shaMix v)

/-- The SHA-256 digest of R52: the octets, a one bit, zeros up to a whole block, the length in bits. -/
def sha256 (l : List Byte) : List Byte :=
  let m := l ++ 0x80#8 :: List.replicate ((119 - l.length % 64) % 64) 0#8 ++ natBe 8 (8 * l.length)
  let v := (List.range (m.length / 64)).foldl (fun v i => shaTake v (slice m (64 * i) 64)) (rootWords 2 8)
  v.flatMap (fun w => natBe 4 w.toNat)

/-! ## The loaded image -/

/-- The PORT record of a port; an unused port where the image has none. -/
def portRec (s : State) (p : Nat) : PortRec := s.cfg.ports.getD p {}
/-- The number of cells of a port (R55). -/
def portCells (s : State) (p : Nat) : Nat := (portRec s p).cells
/-- The first cell of a port: the sum of CELLS over the lower ports (R55). -/
def firstCell (s : State) (p : Nat) : Nat := sumN ((s.cfg.ports.take p).map (·.cells))
/-- The number of configured strings. -/
def nStr (s : State) : Nat := s.cfg.strings.length
/-- The STRING record of a string. -/
def strRec (s : State) (k : Nat) : StringRec := s.cfg.strings.getD k {}
/-- A string is configured. -/
def hasStr (s : State) (k : Nat) : Bool := k < nStr s
/-- The configured strings. -/
def strs (s : State) : List Nat := List.range (nStr s)
/-- The ports of a string, ascending (R71). -/
def strPorts (s : State) (k : Nat) : List Nat :=
  if hasStr s k then (List.range 32).filter (fun p => 0 < portCells s p && (portRec s p).string == k) else []
/-- The used ports. -/
def usedPorts (s : State) : List Nat := (List.range 32).filter (fun p => 0 < portCells s p)
/-- The cells of a port. -/
def cellsOfPort (s : State) (p : Nat) : List Nat := (List.range (portCells s p)).map (firstCell s p + ·)
/-- The cells of a string, ascending. -/
def cellsOfStr (s : State) (k : Nat) : List Nat := (strPorts s k).flatMap (cellsOfPort s)
/-- The number of cells of the plant. -/
def nCells (s : State) : Nat := s.cfg.plant.cellsTotal
/-- The port and local index of a cell. -/
def portOfCell (s : State) (c : Nat) : Option (Nat × Nat) :=
  (List.range 32).findSome? (fun p =>
    let f := firstCell s p
    if f ≤ c && c < f + portCells s p then some (p, c - f) else none)
/-- The port of a cell; 32 for a cell that is not configured. -/
def cellPort (s : State) (c : Nat) : Nat := ((portOfCell s c).getD (32, 0)).1
/-- The string of a cell; 4 for a cell that is not configured. -/
def cellStr (s : State) (c : Nat) : Nat :=
  match portOfCell s c with
  | some (p, _) => (portRec s p).string
  | none => 4
/-- The chemistry of a cell. -/
def cellChem (s : State) (c : Nat) : Nat := (portRec s (cellPort s c)).chem
/-- The CELL_MODEL record of a chemistry. -/
def modelOf (s : State) (chem : Nat) : ModelRec := (s.cfg.models.find? (fun m => m.chem == chem)).getD {}
/-- The CELL_MODEL record of a cell. -/
def cellModel (s : State) (c : Nat) : ModelRec := modelOf s (cellChem s c)
/-- The OCV record of a chemistry. -/
def ocvOf (s : State) (chem : Nat) : OcvRec := (s.cfg.ocv.find? (fun m => m.chem == chem)).getD {}
/-- The CONTACTOR record of a string's role (R57), with its index in the section. -/
def contactorOf (s : State) (k role : Nat) : Option (Nat × ContactorRec) :=
  (List.range s.cfg.contactors.length).findSome? (fun i =>
    let r := s.cfg.contactors.getD i {}
    if r.string == k && r.role == role then some (i, r) else none)
/-- The Eaves output of a string's contactor role. -/
def coilOf (s : State) (k role : Nat) : Nat := ((contactorOf s k role).map (·.2.output)).getD 16
/-- The EAVES record of a channel. -/
def eavRec (s : State) (c : Nat) : EavesRec := s.cfg.eaves.getD c {}

/-- The channels commanded on at the die (R291, R304, R306). -/
def eavOn (s : State) : BitVec 24 := if s.eav.down then 0 else s.eav.on

/-- The module is in Operating. -/
def operating (s : State) : Bool := s.img.module == .operating
/-- The module is in Unconfigured. -/
def unconfigured (s : State) : Bool := s.img.module == .unconfigured
/-- The module is in Bench. -/
def inBench (s : State) : Bool := s.img.module == .bench
/-- The batten within its course (R25). -/
def phaseOf (s : State) : Nat := s.bat.num % 10
/-- The course number (R25). -/
def courseOf (s : State) : Nat := s.bat.num / 10
/-- The supplies of R380. -/
inductive Supply where
  | vsup | rail33 | rail09 | sparRegulator | isolatedConverter | vhold
deriving DecidableEq, Repr

/-- A supply is on in a power state (R380): in Dormant the rails hold their content in low-power mode and retention, in Ship
VSUP alone stands. -/
def supplyOn (p : PowerState) (x : Supply) : Bool :=
  match p, x with
  | _, .vsup => true
  | .ship, _ => false
  | .dormant, .isolatedConverter => false
  | _, _ => true

/-- The register fabric works: not in Dormant, not in Ship, not asleep (R380, R387). -/
def mapUp (s : State) : Bool := s.pwr.power != .ship && s.pwr.power != .dormant && !s.pwr.asleep
/-- The firmware runs: no core-pair reset or halt is under way (R236, R280, R406), the debugger does not hold the lead
core (R287), the module neither sleeps nor restarts (R82, R386). -/
def coresRun (s : State) : Bool :=
  s.cpr.run == .running && !s.pwr.halted && !s.cpr.dbgHalted && !s.img.restarting && mapUp s
/-- Battens are counted: an edge comes every millisecond. -/
def battensRun (s : State) : Bool := !unconfigured s && mapUp s && !s.pwr.halted && !s.img.restarting
/-- The value that this batten's agreement read of an input returned to both cores (R273). -/
def agreedFor (s : State) (i : AgreeInput) : Option Word := (s.cpr.agreed.find? (fun x => x.1 == i)).map (·.2)
/-- SEALOPEN as the cores see it: the land, and the value agreed in this batten (R274). -/
def sealSeen (s : State) : Bool := s.lands.sealOpen && agreedFor s .sealOpen != some 0
/-- The output compare gate holds the lead core's words: not in Unconfigured, where no batten runs, and not while the pair
is split or its gate only records (R270, R282, R283). -/
def gateOn (s : State) : Bool := coresRun s && !unconfigured s && s.cpr.coupling == .joined
/-- Writes of hosts are served: not while both cores are halted for good, but for a soft reset (R280). -/
def writesServed (s : State) : Bool := s.cpr.run != .halted
/-- The sequencer runs the image's work: not in Unconfigured, the cores running and not waiting for an edge, the batten's
work not ended by R38. -/
def slotsRun (s : State) : Bool :=
  !unconfigured s && coresRun s && mapUp s && !s.cpr.resume && !s.bat.first && !s.bat.ended
/-- The sequencer's fixed slots run: an image is loaded, the module neither sleeps, restarts nor halts, the debugger does
not hold the lead core (R287), and the batten's slots are not ended (R38). -/
def fixedRuns (s : State) : Bool :=
  !unconfigured s && mapUp s && !s.pwr.halted && !s.img.restarting && !s.bat.first && !s.cpr.dbgHalted && !s.bat.ended
/-- Slot `k` of R27 comes next: the fixed slots before it have ended in this batten, and it has not (R11, R33). -/
def slotNext (s : State) (k : Nat) : Bool := s.bat.fixedDone == k
/-- A fixed slot ends. -/
def endSlot (s : State) (k : Nat) : State := { s with bat := { s.bat with fixedDone := k + 1 } }
/-- The string record of Ridge. -/
def strOf (s : State) (k : Nat) : Str := vget s.rdg.strs k
/-- The state of a string. -/
def strState (s : State) (k : Nat) : StrState := (strOf s k).st
/-- Every configured string is Open. -/
def allOpen (s : State) : Bool := (strs s).all (fun k => strState s k == .opened)
/-- A string is in Lockout. -/
def anyLockout (s : State) : Bool := (strs s).any (fun k => strState s k == .lockout)
/-- The record of a monitor port. -/
def portOf (s : State) (p : Nat) : Port := vget s.owl.ports p
/-- A port is IN SERVICE. -/
def inService (s : State) (p : Nat) : Bool := (portOf s p).st == .inService
/-- Every port of a string is IN SERVICE (R113). -/
def allInService (s : State) (k : Nat) : Bool := (strPorts s k).all (inService s)

/-! ## Updates of the state's parts -/

/-- A monitor port changed. -/
def modPort (s : State) (p : Nat) (f : Port → Port) : State :=
  { s with owl := { s.owl with ports := vmod s.owl.ports p f } }
/-- A Thatch cell record changed. -/
def modCell (s : State) (c : Nat) (f : CellRec → CellRec) : State :=
  { s with tha := { s.tha with cells := vmod s.tha.cells c f } }
/-- A string record of Ridge changed. -/
def modStr (s : State) (k : Nat) (f : Str → Str) : State :=
  { s with rdg := { s.rdg with strs := vmod s.rdg.strs k f } }
/-- An Eaves channel changed. -/
def modChan (s : State) (c : Nat) (f : Chan → Chan) : State :=
  { s with eav := { s.eav with chans := vmod s.eav.chans c f } }
/-- A session changed. -/
def modSess (s : State) (n : Nat) (f : Sess → Sess) : State :=
  { s with hst := { s.hst with sess := vmod s.hst.sess n f } }
/-- A CAN controller changed. -/
def modCan (s : State) (c : Nat) (f : Can → Can) : State := { s with can := vmod s.can c f }
/-- A feedback channel changed. -/
def modFbk (s : State) (c : Nat) (f : Fbk → Fbk) : State := { s with fbk := vmod s.fbk c f }
/-- A state-changing action for each of a list, in order. -/
def forEach {α : Type} (l : List α) (f : State → α → State) (s : State) : State := l.foldl f s

/-- The batten that the next edge begins: the number that stands for the first edge after a load or a wake, else one more
(R25, R26). -/
def nextBatten (s : State) : Nat := if s.bat.first then s.bat.num else s.bat.num + 1

/-- The next free value's counter, and the state with the counter advanced. -/
def takeFresh (s : State) : Nat × State := (s.fresh, { s with fresh := s.fresh + 1 })

/-- What falls due for the learning and the ledger from outside partition 0x08 stands in its work lists, and outlasts a
restart of that partition (R189, R201, R276). -/
def oweLedger (s : State) (f : LedWork → LedWork) : State :=
  { s with
    led := { s.led with work := f s.led.work }
    cpr := { s.cpr with saved := { s.cpr.saved with work := f s.cpr.saved.work } } }

/-! ## The Gutter (R410 to R417) -/

/-- The class of an event (R411, R412). -/
def evClass (src code : Nat) : Nat :=
  if src < 32 then
    match code with
    | 1 => 0 | 2 => 2 | 3 => 1 | 4 => 1 | 5 => 1 | 6 => 2 | 7 => 2 | 8 => 1 | _ => 3
  else if src < 56 then
    match code with
    | 1 => 2 | 2 => 2 | 3 => 1 | 4 => 1 | 5 => 2 | 6 => 2 | _ => 1
  else if src < 72 then 3
  else if src < 80 then (if code = 1 then 0 else 1)
  else if src < 82 then
    match code with
    | 1 => 1 | 2 => 2 | 3 => 0 | 4 => 1 | 5 => 0 | 6 => 1 | _ => 1
  else if src < 84 then
    match code with
    | 1 => 2 | 2 => 0 | 3 => 1 | 4 => 1 | 5 => 0 | _ => 0
  else if src < 88 then (if code ≤ 4 then 1 else 0)
  else if src = 88 then 1
  else if src = 89 then (match code with | 1 => 1 | 2 => 2 | _ => 0)
  else if src = 90 then (if code = 1 then 1 else 0)
  else if src = 91 then (if code = 1 then 1 else 0)
  else if src = 92 then 0
  else if src = 93 then 1
  else if src < 100 then
    match code with
    | 1 => 0 | 2 => 3 | 3 => 3 | 4 => 3 | 5 => 2 | 6 => 0 | 7 => 1 | 8 => 1 | _ => 2
  else if src = 100 then (match code with | 1 => 1 | 2 => 0 | _ => 1)
  else if src = 101 then 0
  else if src = 104 then (match code with | 1 => 2 | 2 => 0 | 3 => 1 | _ => 0)
  else if src = 105 then (match code with | 1 => 1 | 2 => 1 | 3 => 3 | _ => 0)
  else if src = 106 then (if code = 1 then 2 else 0)
  else if src = 107 then 1
  else if src = 108 then 0
  else if src = 112 then 1
  else if src = 113 then (if code = 3 then 2 else 3)
  else if src = 114 then 1
  else if src = 115 then (if code = 3 then 1 else 0)
  else if src = 116 then 2
  else if src = 117 then 2
  else if src = 118 then (if code = 1 then 0 else 1)
  else if src = 120 then (if code = 1 then 0 else 2)
  else if src = 121 then 1
  else if src = 122 then 0
  else if src = 124 then 1
  else if src = 125 then 0
  else 1

/-- The firmware partition that logs a source's entries (R410, R268); none for an H source. -/
def logPart (src code : Nat) : Option Nat :=
  if src < 32 then
    if code = 9 then some 3 else if code = 1 ∨ code = 2 ∨ code = 3 then some 1 else some 2
  else if 56 ≤ src ∧ src < 72 then some 3
  else if src = 92 then some 2
  else if src = 93 then some 8
  else if 96 ≤ src ∧ src < 104 then some 3
  else if 105 ≤ src ∧ src < 112 then some 3
  else if 120 ≤ src ∧ src < 124 then some 6
  else none

/-- A partition is protective (R69): its words pass the gate; another's wait in the release buffer. With no
PARTITION section loaded no checkpoint runs, and nothing waits. -/
def protectivePart (s : State) (p : Nat) : Bool :=
  p ≤ 5 || s.cfg.partitions.isEmpty || (s.cfg.partitions.any (fun r => r.part == p && r.cls == 2))

/-- An entry placed in the ring; the oldest goes when it is full (R413, R416). -/
def ringPush (g : Gtr) (e : Entry) : Gtr :=
  { g with
    recent := e :: g.recent.filter (fun x => e.batten ≤ x.batten + 1)
    ring := (e :: g.ring).take 1024
    total := g.total + 1
    overwritten := if g.ring.length < 1024 then g.overwritten else satAdd 16 g.overwritten 1 }

/-- Words of a partition wait before they leave the pair: a protective one's in the output compare gate while that is on, a
restartable one's in the release buffer (R270, R271). -/
def wordsWait (s : State) (p : Nat) : Bool := !protectivePart s p || gateOn s

/-- An entry with the same SOURCE, CODE and DETAIL has been logged in this batten (R415), one already overwritten too. -/
def alreadyLogged (g : Gtr) (b src code : Nat) (detail : Word) : Bool :=
  let same := fun (e : Entry) => e.batten == b && e.source == src && e.code == code && e.detail == detail
  g.recent.any same || g.held.any (fun h => same h.2)

/-- An event logged at the batten number `b` (R412 to R417): suppressed when its like stands in the batten; an F entry waits
in the gate or the release buffer of its partition; during a core-pair reset only H sources log. -/
def logAt (s : State) (b src code detail : Nat) : State :=
  let d : Word := BitVec.ofNat 32 detail
  match logPart src code, coresRun s with
  | some _, false => s
  | part, _ =>
    if alreadyLogged s.gtr b src code d then
      { s with gtr := { s.gtr with suppressed := satAdd 16 s.gtr.suppressed 1 } }
    else
      let (n, s) := takeFresh s
      let e : Entry := ⟨b, Config.freeCycle n, src, code, evClass src code, d⟩
      match part with
      | some p =>
        if wordsWait s p then { s with gtr := { s.gtr with held := s.gtr.held ++ [(p, e)] } }
        else { s with gtr := ringPush s.gtr e }
      | none => { s with gtr := ringPush s.gtr e }

/-- An event logged in the running batten. -/
def logEv (s : State) (src code detail : Nat) : State := logAt s s.bat.num src code detail

/-- An entry placed among others by ascending SOURCE, then CODE, behind its equals. -/
def insertEntry (key : α → Entry) (x : α) : List α → List α
  | [] => [x]
  | y :: l =>
    let (a, b) := (key x, key y)
    if a.source < b.source || (a.source == b.source && a.code < b.code) then x :: y :: l else y :: insertEntry key x l

/-- Entries by ascending SOURCE, then CODE. -/
def sortEntries (key : α → Entry) (l : List α) : List α := l.foldl (fun m x => insertEntry key x m) []

/-- The entries that one logger has added between two states stand by ascending SOURCE, then CODE (R414). -/
def orderNew (a b : State) : State :=
  let n := b.gtr.total - a.gtr.total
  let k := a.gtr.held.length
  { b with gtr := { b.gtr with
    ring := (sortEntries id (b.gtr.ring.take n).reverse).reverse ++ b.gtr.ring.drop n
    held := b.gtr.held.take k ++ sortEntries (·.2) (b.gtr.held.drop k) } }

/-- The gate's equal copies let the oldest entry of a partition into the ring (R270, R417). -/
def releaseEntry (s : State) (p : Nat) : State :=
  match s.gtr.held.find? (fun h => h.1 == p) with
  | some h => { s with gtr := ringPush { s.gtr with held := s.gtr.held.erase h } h.2 }
  | none => s

/-- The entries that wait enter the ring at a clean checkpoint (R417): a checkpoint compares the words released (R272). -/
def releaseHeld (s : State) : State :=
  let g := s.gtr.held.foldl (fun g h => ringPush g h.2) s.gtr
  { s with gtr := { g with held := [] } }

/-- Entries of partitions whose run is discarded never enter the ring (R276, R417). -/
def dropHeld (s : State) (parts : List Nat) : State :=
  { s with gtr := { s.gtr with held := s.gtr.held.filter (fun h => !parts.contains h.1) } }

end Sys2Proof.Machine
end

