-- ==== Sys2Proof/Machine/Real.lean ====
section
/-! DEFINITION. The arithmetic of the engines' formulas: rounding to IEEE 754 single precision (R152), and the
exponential, logarithm, square root and circular functions as fixed-point series far finer than a single's last
place. DESIGN CHOICE, log entry 9: the manual does not fix where inside a formula the rounding falls; the model
rounds each quantity a formula names. -/

namespace Sys2Proof.Machine

/-- A quotient rounded to the nearest whole number, ties to even. -/
def divEven (n d : Nat) : Nat :=
  let q := n / d
  let r := n % d
  if 2 * r < d then q else if d < 2 * r then q + 1 else if q % 2 = 0 then q else q + 1

/-- The binary exponent of a positive quotient: `2 ^ e ≤ n / d < 2 ^ (e + 1)`. -/
def binExp (n d : Nat) : Int :=
  let e : Int := (n.log2 : Int) - (d.log2 : Int)
  let below := if 0 ≤ e then decide (n < d * 2 ^ e.toNat) else decide (n * 2 ^ (-e).toNat < d)
  if below then e - 1 else e

/-- A rational rounded to the nearest IEEE 754 single, ties to even, subnormals included; the exponent is not
bounded above (log entry 9). -/
def r32 (x : Rat) : Rat :=
  if x = 0 then 0
  else
    let n := x.num.natAbs
    let e := max (binExp n x.den) (-126)
    let k : Int := 23 - e
    let m := if 0 ≤ k then divEven (n * 2 ^ k.toNat) x.den else divEven n (x.den * 2 ^ (-k).toNat)
    let v : Rat := if 0 ≤ k then mkRat m (2 ^ k.toNat) else ((m * 2 ^ (-k).toNat : Nat) : Rat)
    if x.num < 0 then -v else v

/-- The IEEE 754 single of a rational as 32 bits; infinity above the largest single. -/
def singleBits (x : Rat) : Nat :=
  let v := r32 x
  if v = 0 then 0
  else
    let n := v.num.natAbs
    let e := max (binExp n v.den) (-126)
    let k : Int := 23 - e
    let m := if 0 ≤ k then n * 2 ^ k.toNat / v.den else n / (v.den * 2 ^ (-k).toNat)
    let b := if m < 2 ^ 23 then m else if 127 < e then 255 * 2 ^ 23 else (e + 127).toNat * 2 ^ 23 + (m - 2 ^ 23)
    if v.num < 0 then 2 ^ 31 + b else b

/-- The value of 32 bits as an IEEE 754 single; a free value for an infinity or a NaN (log entry 7). -/
def ofSingle (n : Nat) : Rat :=
  let e := bits n 30 23
  let m := bits n 22 0
  let v : Rat :=
    if e = 255 then Config.freeReal n
    else if e = 0 then mkRat m (2 ^ 149)
    else if 150 ≤ e then (((2 ^ 23 + m) * 2 ^ (e - 150) : Nat) : Rat)
    else mkRat (2 ^ 23 + m) (2 ^ (150 - e))
  if 2 ^ 31 ≤ n % 2 ^ 32 then -v else v

/-- The fixed-point resolution: 96 fractional bits. -/
def fxOne : Int := 2 ^ 96
/-- A rational in fixed point. -/
def toFx (x : Rat) : Int := (x * (fxOne : Rat)).floor
/-- A fixed-point number as a rational. -/
def ofFx (i : Int) : Rat := mkRat i (2 ^ 96)
/-- A fixed-point product. -/
def fxMul (a b : Int) : Int := a * b / fxOne
/-- The natural logarithm of 2 in fixed point. -/
def ln2Fx : Int := 54916777467707473351141471128
/-- The circle's number in fixed point. -/
def piFx : Int := 248902613312231085230521944622

/-- The series of a power function: each term is the last times `x` over a number. -/
def fxSeries (x : Int) (nums : List Int) : Int :=
  (nums.foldl (fun (acc : Int × Int) n => let t := fxMul acc.2 x / n; (acc.1 + t, t)) (fxOne, fxOne)).1

/-- 2 to a whole power, as a rational. -/
def pow2 (k : Int) : Rat := if 0 ≤ k then ((2 ^ k.toNat : Nat) : Rat) else mkRat 1 (2 ^ (-k).toNat)

/-- The exponential. -/
def expR (x : Rat) : Rat :=
  if x < -200 then 0
  else
    let y := toFx (minR x 200)
    let k := y / ln2Fx
    ofFx (fxSeries (y - k * ln2Fx) [1, 2, 3, 4, 5, 6, 7, 8, 9, 10, 11, 12, 13, 14, 15, 16, 17, 18, 19, 20, 21, 22, 23, 24]) * pow2 k

/-- The inverse hyperbolic tangent's series for a small fixed-point argument. -/
def fxAtanh (z : Int) : Int :=
  let z2 := fxMul z z
  ((List.range 32).foldl (fun (acc : Int × Int) (i : Nat) => (acc.1 + acc.2 / (2 * (i : Int) + 1), fxMul acc.2 z2)) (0, z)).1

/-- The natural logarithm of a positive number; a free value for another (log entry 7). -/
def lnR (x : Rat) : Rat :=
  if x ≤ 0 then Config.freeReal 0
  else
    let e := binExp x.num.natAbs x.den
    let m := toFx (x * pow2 (-e))
    ofFx (2 * fxAtanh ((m - fxOne) * fxOne / (m + fxOne)) + e * ln2Fx)

/-- The logarithm to the base 10. -/
def log10R (x : Rat) : Rat := lnR x / lnR 10

/-- The whole square root, by halving the unknown bits. -/
def isqrt (n : Nat) : Nat → Nat → Nat
  | 0, r => r
  | k + 1, r => let c := r + 2 ^ k; if c * c ≤ n then isqrt n k c else isqrt n k r

/-- The square root of a number; 0 for one that is not positive. -/
def sqrtR (x : Rat) : Rat :=
  if x ≤ 0 then 0
  else
    let e := binExp x.num.natAbs x.den
    let k : Nat := (64 - e / 2).toNat
    mkRat (isqrt (x * pow2 (2 * (k : Int))).floor.toNat 72 0) (2 ^ k)

/-- The sine's series for a fixed-point angle of at most an eighth of a turn [rad]. -/
def fxSin (x : Int) : Int :=
  let x2 := fxMul x x
  ((List.range 16).foldl (fun (acc : Int × Int) (i : Nat) =>
    (acc.1 + acc.2, -(fxMul acc.2 x2 / ((2 * (i : Int) + 2) * (2 * (i : Int) + 3))))) (0, x)).1

/-- The cosine's series for a fixed-point angle of at most an eighth of a turn [rad]. -/
def fxCos (x : Int) : Int :=
  let x2 := fxMul x x
  ((List.range 16).foldl (fun (acc : Int × Int) (i : Nat) =>
    (acc.1 + acc.2, -(fxMul acc.2 x2 / ((2 * (i : Int) + 1) * (2 * (i : Int) + 2))))) (0, fxOne)).1

/-- Cosine and sine of a fraction of a turn. -/
def cisTurn (u : Rat) : Rat × Rat :=
  let v := u - u.floor
  let q := (v * 4 + 1 / 2).floor
  let a := toFx (v - (q : Rat) / 4)
  let x := fxMul a (2 * piFx)
  let c := ofFx (fxCos x)
  let s := ofFx (fxSin x)
  if q % 4 = 0 then (c, s) else if q % 4 = 1 then (-s, c) else if q % 4 = 2 then (-c, -s) else (s, -c)

/-- The arctangent's series for a fixed-point argument of at most a quarter. -/
def fxAtan (z : Int) : Int :=
  let z2 := fxMul z z
  ((List.range 40).foldl (fun (acc : Int × Int) (i : Nat) => (acc.1 + acc.2 / (2 * (i : Int) + 1), -(fxMul acc.2 z2))) (0, z)).1

/-- The arctangent of a fixed-point number from 0 to 1, by two halvings of the angle. -/
def fxAtan01 (z : Int) : Int :=
  let half := fun (w : Int) =>
    let h := toFx (sqrtR (ofFx (fxOne + fxMul w w)))
    w * fxOne / (fxOne + h)
  4 * fxAtan (half (half z))

/-- The angle of a point in degrees, from −180 exclusive to 180; a free value at the origin (log entry 7). -/
def atan2Deg (y x : Rat) : Rat :=
  if x = 0 ∧ y = 0 then Config.freeReal 1
  else
    let ax := absR x
    let ay := absR y
    let t := if ay ≤ ax then ofFx (fxAtan01 (toFx (ay / ax))) else ofFx (piFx / 2) - ofFx (fxAtan01 (toFx (ax / ay)))
    let d := t * 180 / ofFx piFx
    let d := if x < 0 then 180 - d else d
    if y < 0 then -d else d

/-- The square of a number. -/
def sq (x : Rat) : Rat := x * x

end Sys2Proof.Machine
end

