-- ==== Sys2Proof/Machine/CellModel.lean ====
section
/-! DEFINITION. The open-circuit voltage of a chemistry (R58, R146) and its inverse (R159). -/

namespace Sys2Proof.Machine

/-- The temperature axis' place of T [°C]: a lower index and the weight of the next, T held to the axis (R146). -/
def axisPlace (axis : List Int) (t : Rat) : Nat × Rat :=
  let x := t * 10
  let i := ((List.range 7).filter (fun i => ((axis.getD i 0 : Int) : Rat) ≤ x)).length - 1
  let a : Rat := ((axis.getD i 0 : Int) : Rat)
  let b : Rat := ((axis.getD (i + 1) 0 : Int) : Rat)
  (i, clampR 0 1 ((x - a) / (b - a)))

/-- OCV at a whole SOC percent and a place of the axis [V]. -/
def ocvPoint (o : OcvRec) (pl : Nat × Rat) (s : Nat) : Rat :=
  let u : Rat := ((o.table.getD (pl.1 * 101 + s) 0 : Nat) : Rat)
  let v : Rat := ((o.table.getD ((pl.1 + 1) * 101 + s) 0 : Nat) : Rat)
  (u + pl.2 * (v - u)) / 10000

/-- The SOC segment that holds a SOC: the first and last segments extend outward (R146). Of the two that meet at a 1 % point the
upper one holds it (DESIGN CHOICE, log entry 72). -/
def socSegment (soc : Rat) : Nat := min 99 (soc * 100).floor.toNat

/-- OCV(SOC, T) [V], SOC a fraction (R146). -/
def ocv (o : OcvRec) (soc t : Rat) : Rat :=
  let pl := axisPlace o.axis t
  let k := socSegment soc
  let a := ocvPoint o pl k
  r32 (a + (soc * 100 - (k : Rat)) * (ocvPoint o pl (k + 1) - a))

/-- The slope of a SOC segment [V per unit SOC]. -/
def segSlope (o : OcvRec) (pl : Nat × Rat) (k : Nat) : Rat := (ocvPoint o pl (k + 1) - ocvPoint o pl k) * 100

/-- The slope ∂OCV/∂SOC at a SOC (R146). -/
def ocvSlope (o : OcvRec) (soc t : Rat) : Rat := r32 (segSlope o (axisPlace o.axis t) (socSegment soc))

/-- The largest slope over a SOC range (R180). -/
def maxSlope (o : OcvRec) (lo hi t : Rat) : Rat :=
  let pl := axisPlace o.axis t
  let a := socSegment lo
  let b := socSegment hi
  r32 ((List.range (b + 1 - a)).foldl (fun m i => maxR m (segSlope o pl (a + i))) (segSlope o pl a))

/-- The SOC at which OCV(SOC, T) equals `v`; the middle of a flat run; 0 below OCV(0), 1 above OCV(1) (R159). -/
def ocvInverse (o : OcvRec) (v t : Rat) : Rat :=
  let pl := axisPlace o.axis t
  let pts := (List.range 101).map (ocvPoint o pl)
  let below := (pts.filter (fun x => x < v)).length
  let upTo := (pts.filter (fun x => x ≤ v)).length
  if v < pts.getD 0 0 then 0
  else if pts.getD 100 0 < v then 1
  else if below < upTo then r32 (mkRat (below + (upTo - 1)) 200)
  else
    let a := pts.getD (below - 1) 0
    let b := pts.getD below 0
    r32 ((((below - 1 : Nat) : Rat) + (v - a) / (b - a)) / 100)

/-- σ_o of R159: (1.5 mV + HYST_MAX) / s, held between 0.5 % and 30 %. -/
def sigmaOcv (m : ModelRec) (slope : Rat) : Rat :=
  if slope ≤ 0 then 3 / 10 else r32 (clampR (1 / 200) (3 / 10) ((mkRat 15 10000 + mkRat m.hystMax 10000) / slope))

end Sys2Proof.Machine
end

