-- ==== Sys2Proof/Machine/Gates.lean ====
section
/-! DEFINITION. Spar's coil gates and what holds them: tone masks, lane masks, service, Dormant (R106, R107, R244,
R253, R258). -/

namespace Sys2Proof.Machine

/-- Spar's logic runs: powered, out of its reset, its clock not stopped (R257, R258). -/
def sparRuns (s : State) : Bool := !s.spar.inReset && !s.spar.stopped && supplyOn s.pwr.power .sparRegulator

/-- A lane is used: its string is configured; lane 4 with any string (R253). -/
def laneUsed (sp : Spar) (l : Nat) : Bool := if l < 4 then l < sp.strings else 0 < sp.strings

/-- The used lanes as a mask. -/
def usedLanes (sp : Spar) : BitVec 5 := maskOf 5 (laneUsed sp)

/-- Spar holds the gates of string `k` (R106, R112, R253, R258; SPR_HOLD). -/
def sparHeld (sp : Spar) (k : Nat) : Bool :=
  sp.service.getLsbD k || sp.dormant || sp.laneMask.getLsbD k || sp.laneMask.getLsbD 4
    || (List.range 32).any (fun p => sp.usedPorts.getLsbD p && vget sp.portStr p == k && sp.toneMask.getLsbD p)

/-- Every condition of R244 for gate `c`. -/
def gateHolds (sp : Spar) (c : Nat) : Bool :=
  sp.mode == .armed && sp.gateUse.getLsbD c && !sparHeld sp (vget sp.gateMap c) && sp.gateReq.getLsbD c
    && !sp.holdExpired && sp.supplyOk && !sp.stopped && !sp.inReset

/-- The gates follow their conditions (R244), and the switches their gates, but for those sensed against their command
(R245). -/
def sparGates (s : State) : State :=
  let on := maskOf 16 (gateHolds s.spar)
  let bad := s.spar.gateBad &&& ~~~on
  let dead := s.spar.gateDead &&& on
  { s with spar := { s.spar with gateCmd := on, gateBad := bad, gateDead := dead, gateOn := (on &&& ~~~dead) ||| bad } }

end Sys2Proof.Machine
end

