-- ==== Sys2Proof/Machine/Onwell.lean ====
section
/-! DEFINITION. The monitor ports and the Onwell link (R85 to R116): frames, the exchange of a batten, repeats and
misses, the bulk window, identity, port states, and the command frames of the batten edge. The balance and
impedance contents of the commands are formed in Balance.lean and Impedance.lean. -/

namespace Sys2Proof.Machine

/-! ## Frames (R93 to R97) -/

/-- A frame without its error: TYPE, REP and payload; none for a frame error (R93, R94). `len` says which payload
lengths its TYPE allows. -/
def parseFrame (f : LineFrame) (type : Nat) (len : Nat → Bool) : Option (Bool × List Byte) :=
  let o := f.octets
  let n := fieldLe o 3 1
  let body := slice o 2 (2 + n)
  if f.codeViolation || fieldLe o 0 1 != 0xAA || fieldLe o 1 1 != 0x3C || o.length != n + 6
      || fieldLe o 2 1 % 16 != type || !len n || (crc16 body).toNat != fieldLe o (4 + n) 2 then none
  else some (fieldLe o 2 1 / 16 % 2 == 1, slice o 4 n)

/-- A downlink frame as it leaves: PRE, SFD, HEADER with REP 0, payload, CRC low octet first (R93). -/
def frameOctets (type : Nat) (payload : List Byte) : List Byte :=
  let body := [BitVec.ofNat 8 type, BitVec.ofNat 8 payload.length] ++ payload
  [0xAA#8, 0x3C#8] ++ body ++ natLe 2 (crc16 body).toNat

/-- The payload of a CMD in batten `b` (R95). -/
def cmdPayload (b : Nat) (c : Cmd) : List Byte :=
  natLe 2 (b % 65536) ++ [c.tselA, c.tselB, c.code].map (BitVec.ofNat 8 ·)
    ++ (List.range 8).map (fun i => BitVec.ofNat 8 (c.arg.getD i 0)) ++ [0#8, 0#8, 0#8]

/-- The frame of a bulk request (R94, R99): REPEAT, BULK_REQ with its selector, or WRITE. -/
def bulkFrame : BulkReq → List Byte
  | .repeatMeas => frameOctets 2 []
  | .ident => frameOctets 3 [1#8]
  | .burst _ => frameOctets 3 [2#8]
  | .openWire => frameOctets 3 [3#8]
  | .progress => frameOctets 3 [4#8]
  | .write o => frameOctets 4 (o.map (BitVec.ofNat 8 ·))

/-- The cells a satellite of a KIND reports in its MEAS frame (R97, R114). -/
def kindCells (kind : Nat) : Nat := if kind = 2 then 12 else 16
/-- The payload length of a MEAS frame (R94, R114). -/
def measLen (kind : Nat) : Nat := if kind = 2 then 38 else 46

/-- The LEN of a BULK answer per selector (R94): IDENT, burst, open wire, balance progress (R100, R126, R140, R169). Another
selector has none. -/
def bulkLen (kind sel : Nat) : Option Nat :=
  match sel with
  | 1 => some 17
  | 2 => some (if kind = 2 then 107 else 139)
  | 3 => some 8
  | 4 => some (3 + 2 * kindCells kind)
  | _ => none

/-- An uplink frame of a satellite without a frame error: a TYPE of R94 with the LEN it lists, for a BULK that of its
selector. -/
def uplinkGood (kind : Nat) (f : LineFrame) : Bool :=
  (parseFrame f 0x9 (· == measLen kind)).isSome
    || (parseFrame f 0xA (fun n => 1 ≤ n)).any (fun r => bulkLen kind (fieldLe r.2 0 1) == some r.2.length)
    || (parseFrame f 0xB (· == 1)).isSome || (parseFrame f 0xC (· == 1)).isSome

/-- A frame's TYPE octet, [3:0]. -/
def frameType (f : LineFrame) : Nat := fieldLe f.octets 2 1 % 16

/-- The contents of a MEAS payload (R97). -/
def measOf (kind : Nat) (p : List Byte) : Meas :=
  let c := kindCells kind
  let o := 2 + 2 * c
  { batten := fieldLe p 0 2
    volts := (List.range c).map (fun i => fieldLe p (2 + 2 * i) 2)
    tempA := fieldLe p o 2, tempB := fieldLe p (o + 2) 2, total := fieldLe p (o + 4) 2
    dieTemp := fieldSe p (o + 6) 2, status := BitVec.ofNat 32 (fieldLe p (o + 8) 4) }

/-- A MEAS frame of a port read: the frame when it has no error. -/
def readMeas (s : State) (p : Nat) (f : LineFrame) : Option (Bool × Meas) :=
  let kind := (portRec s p).kind
  (parseFrame f 9 (· == measLen kind)).map (fun r => (r.1, measOf kind r.2))

/-- STATUS[23], SAMPLE_LATE (R97). -/
def sampleLate (m : Meas) : Bool := m.status.getLsbD 23

/-- An IDENT answer (R100), after the selector octet. -/
def identOf (p : List Byte) : Ident :=
  { serial := fieldLe p 0 8, chem := fieldLe p 8 1, week := fieldLe p 9 2, cells := fieldLe p 11 1,
    proto := fieldLe p 12 1, fwRev := fieldLe p 14 2 }

/-! ## Which ports are active -/

/-- A port sends markers and polls its satellite (R89): used, not out of service by order, and the module neither
Unconfigured nor in Dormant or Ship. -/
def portActive (s : State) (p : Nat) : Bool :=
  let q := portOf s p
  !unconfigured s && (s.pwr.power == .run || s.pwr.power == .doze) && !s.pwr.asleep && !s.pwr.halted && !s.img.restarting && 0 < portCells s p
    && q.st != .unused && !(q.st == .outOfService && q.cause == .order)

/-- Data of the port enters Thatch (R109). -/
def thatchPort (s : State) (p : Nat) : Bool := (portOf s p).st == .proving || (portOf s p).st == .inService

/-- The code of a port state (R109). -/
def portStateCode : PortState → Nat
  | .unused => 0 | .outOfService => 1 | .syncing => 2 | .identifying => 3 | .proving => 4 | .inService => 5
/-- The code of an OUT OF SERVICE cause (R116). -/
def portCauseCode : PortCause → Nat
  | .none => 0 | .link => 1 | .count => 2 | .chemistry => 3 | .order => 4

/-! ## Port states (R109, R110) -/

/-- A port state entered, with its event: OUT OF SERVICE has a code of its own (R412); its cells' PROVING flag
follows (R118). -/
def enterPort (s : State) (p : Nat) (st : PortState) (cause : PortCause) : State :=
  let s := modPort s p (fun q => { q with st := st, cause := cause, clean := 0, proveFrom := none })
  let s := forEach (cellsOfPort s p) (fun s c =>
    modCell s c (fun r => { r with flags := setBit r.flags 1 (st == .proving) })) s
  if st = .outOfService then logEv s p 2 (portCauseCode cause * 16)
  else logEv s p 1 (portStateCode st + (portOf s p).identResult * 256)

/-- A command code queued for a coming batten's CMD (R96). -/
def queueCmd (s : State) (p code : Nat) (arg : List Nat) : State :=
  modPort s p (fun q => { q with cmdQueue := q.cmdQueue ++ [{ code := code, arg := arg }] })

/-- The cells of a port become stale in Thatch (R103). -/
def staleCells (s : State) (p : Nat) : State :=
  forEach (cellsOfPort s p) (fun s c => modCell s c (fun r => { r with flags := setBit r.flags 0 true })) s

/-- A port goes OUT OF SERVICE with a cause (R103, R108, R112): its cells leave PROVING and become stale; where it goes on
being sent CMDs, BLEED_OFF goes in the next one if it balanced (R135), and IMP_STOP follows (R167). The count of missed
battens stands (R116). -/
def portOut (s : State) (p : Nat) (cause : PortCause) : State :=
  let bled := (portOf s p).balancing
  let s := enterPort s p .outOfService cause
  let s := staleCells s p
  let s := modPort s p (fun q => { q with
    accRun := 0, bulk := [], inFlight := none, test := none,
    testWanted := false, testAgain := none, settings := false, clearDue := false, admitted := false, cmdQueue := [],
    pulsed := false, pulseDue := false, pulsing := false, balancing := false, satFails := 0, satRun := 0, pairRuns := Vector.replicate 16 0, singleRuns := Vector.replicate 16 0,
    blankOpen := false })
  let s := if bled && cause != .order then queueCmd s p 7 [] else s
  if cause != .order && s.cfg.impedance.isSome then queueCmd s p 3 [] else s

/-- The port asks Spar to unmask its tone (R107); TONE_PRESENT brings it. -/
def requestUnmask (s : State) (p : Nat) : State :=
  { s with spar := { s.spar with unmaskReq := setBit s.spar.unmaskReq p true } }

/-- A port enters SYNCING with a count of consecutive accepted battens (R110); the count of missed ones stands (R103). -/
def portSync (s : State) (p acc : Nat) : State :=
  let s := enterPort s p .syncing .none
  let s := modPort s p (fun q => { q with
    accRun := acc, identFails := 0, admitted := false,
    settings := false, clearDue := false, test := none, testWanted := false, testAgain := none, bulk := [], inFlight := none,
    pulsed := false, pulseDue := false, pulsing := false, satFails := 0, satRun := 0, pairRuns := Vector.replicate 16 0, singleRuns := Vector.replicate 16 0, blankOpen := false })
  requestUnmask s p

/-- Ten consecutive missed battens take a port out of service with cause LINK (R103). -/
def missLimit (s : State) (p : Nat) : State :=
  let q := portOf s p
  if 10 ≤ q.missed && (q.st == .syncing || q.st == .identifying || q.st == .proving || q.st == .inService)
  then portOut s p .link else s

/-- PORT_MISS_LIMIT: the limit acts where it has been reached. -/
def execPortMissLimit (p : Fin 32) (s : State) : Out := .next (missLimit s p)

/-- A batten is missed for a port, once (R102, R103): the run of accepted battens ends, that of failed satellite checks in
consecutive battens too (R129; DEDUCED, log entry 64), and the course is not clean. -/
def missBatten (s : State) (p : Nat) : State :=
  if (portOf s p).counted then s
  else
    let s := modPort s p (fun q => { q with
      counted := true, missed := q.missed + 1, missedCnt := satAdd 16 q.missedCnt 1,
      accRun := 0, satFails := 0, satRun := 0, courseClean := false })
    missLimit s p

/-- Four consecutive accepted battens with the tone unmasked move a port from SYNCING to IDENTIFYING (R110), which asks for
its IDENT in the batten's bulk window. -/
def syncReady (s : State) (p : Nat) : Bool :=
  (portOf s p).st == .syncing && 4 ≤ (portOf s p).accRun && !s.spar.toneMask.getLsbD p

/-- The port's road from SYNCING to IDENTIFYING, taken where the condition stands. -/
def syncingDone (s : State) (p : Nat) : State :=
  if syncReady s p then
    modPort (enterPort s p .identifying .none) p (fun q => { q with identFails := 0, bulk := q.bulk ++ [.ident] })
  else s

/-- Three consecutive failed IDENT transactions return a port to SYNCING (R110). -/
def identFailLimit (s : State) (p : Nat) : State :=
  let q := portOf s p
  if q.st == .identifying && 3 ≤ q.identFails then portSync s p 0 else s

/-- IDENT_FAIL_LIMIT: acts where three transactions have failed. -/
def execIdentFailLimit (p : Fin 32) (s : State) : Out := .next (identFailLimit s p)

/-- A port enters IN SERVICE: its cells carry WIRE_TEST_PENDING (R118, R125). -/
def portInService (s : State) (p : Nat) : State :=
  let s := enterPort s p .inService .none
  let s := modPort s p (fun q => { q with testedInService := false, clean := 3 })
  forEach (cellsOfPort s p) (fun s c => modCell s c (fun r =>
    { r with flags := setBit r.flags 7 true })) s

/-- The third consecutive clean course puts a port in service (R110). -/
def provingDone (s : State) (p : Nat) : State :=
  let q := portOf s p
  if q.st == .proving && 3 ≤ q.clean then portInService s p else s

/-- PROVING_COMPLETE: acts where three clean courses have been counted. -/
def execProvingComplete (p : Fin 32) (s : State) : Out := .next (provingDone s p)

/-- The edge of batten 0 ends a course for a port in PROVING: clean courses are counted from the first batten 0
edge after IDENTIFYING (R110, R111). -/
def proveCourse (s : State) (p : Nat) : State :=
  let q := portOf s p
  let s :=
    if q.st == .proving then
      match q.proveFrom with
      | none => modPort s p (fun q => { q with proveFrom := some s.bat.num })
      | some _ =>
        if q.courseClean then provingDone (modPort s p (fun q => { q with clean := min 3 (q.clean + 1) })) p
        else modPort s p (fun q => { q with clean := 0 })
    else s
  modPort s p (fun q => { q with courseClean := true })

/-! ## Service orders (R112) -/

/-- A service order is accepted only while the string is Open or in Lockout (R112); it waits for the next edge. -/
def serviceOrder (s : State) (k : Nat) (out : Bool) : Option State :=
  if operating s && hasStr s k && (strState s k == .opened || strState s k == .lockout) then
    some { s with owl := { s.owl with service := s.owl.service ++ [(k, out)] } }
  else none

/-- A service order takes effect at an edge (R112): OUT takes the ports out with cause ORDER and makes Spar hold
the string's gates and mask its tones; IN returns them to SYNCING, with no
missed batten counted (DESIGN CHOICE, log entry 72: R110 does not say what becomes of the count). -/
def serviceEdge (s : State) (o : Nat × Bool) : State :=
  let (k, out) := o
  let s := { s with spar := { s.spar with service := setBit s.spar.service k out } }
  sparGates <| forEach (strPorts s k) (fun s p =>
    if out then
      let s := if (portOf s p).st != .unused then portOut s p .order else s
      { s with spar := { s.spar with toneMask := setBit s.spar.toneMask p true,
                                     unmaskReq := setBit s.spar.unmaskReq p false } }
    else if (portOf s p).st == .outOfService && (portOf s p).cause != .link then
      portSync (modPort s p (fun q => { q with missed := 0 })) p 0
    else s) s

/-! ## The exchange (R90, R91, R98, R102) -/

/-- How a MEAS frame of the batten stands (R98). -/
def judgeMeas (s : State) : Option (Bool × Meas) → Exchange
  | none => .frameError
  | some (_, m) =>
    if m.batten != s.bat.num % 65536 then .stamp else if sampleLate m then .lateSample else .accepted

/-- A frame error, STAMP or LATE SAMPLE counts in OWL_ERRA[15:0]; NO RESPONSE and LATE in [31:16] (R116). -/
def countError (q : Port) (e : Exchange) : Port :=
  match e with
  | .frameError => { q with errFrames := satAdd 16 q.errFrames 1 }
  | .stamp => { q with errFrames := satAdd 16 q.errFrames 1 }
  | .lateSample => { q with errFrames := satAdd 16 q.errFrames 1 }
  | .noResponse => { q with errMisses := satAdd 16 q.errMisses 1 }
  | .late => { q with errMisses := satAdd 16 q.errMisses 1 }
  | _ => q

/-- A MEAS frame arrives in the uplink window: accepted or refused per R98. A frame after the exchange has been
decided, or on a port that is not polled, is disregarded. -/
def execMeasFrameReceived (p : Fin 32) (f : LineFrame) (s : State) : Out :=
  let q := portOf s p
  if !portActive s p || q.exch != .pending then .next s
  else
    let m := readMeas s p f
    let e := judgeMeas s m
    .next (modPort s p (fun q => { countError q e with
      exch := e, meas := if e = .accepted then m.map (·.2) else none }))

/-- An exchange still open when a window closes is missed with a cause (R91). -/
def exchangeMissed (s : State) (p : Nat) (e : Exchange) : State :=
  if portActive s p && (portOf s p).exch == .pending then
    modPort s p (fun q => { countError q e with exch := e, meas := none })
  else s

/-- UPLINK_START_EXPIRY: no preamble by 70.0 µs, cause NO RESPONSE. -/
def execUplinkStartExpiry (p : Fin 32) (s : State) : Out := .next (exchangeMissed s p .noResponse)

/-- UPLINK_END_EXPIRY: no complete frame by 125.0 µs, cause LATE. -/
def execUplinkEndExpiry (p : Fin 32) (s : State) : Out := .next (exchangeMissed s p .late)

/-- The satellite shows RESET in a frame of a batten (R104): in PROVING or IN SERVICE, after the first CLEAR_RESET,
and not in the batten whose CMD carried CLEAR_RESET. -/
def resetSeen (q : Port) (b : Nat) (m : Meas) : Bool :=
  m.status.getLsbD 19 && (q.st == .proving || q.st == .inService) && q.admitted && q.clearAt != some b
    && !q.settings && !q.clearDue

/-- The place of a request in R92's order. -/
def bulkRank : BulkReq → Nat
  | .repeatMeas => 0 | .ident => 1 | .burst _ => 2 | .write _ => 3 | .openWire => 4 | .progress => 4

/-- The WRITE settings of an admission: the bleed limits of R137 from BAL_ADJ. -/
def bleedLimits (s : State) (p : Nat) : List Nat :=
  if (portRec s p).balAdj = 1 then [2, 1, 16] else [2, 0, 8]

/-- The balance-target WRITEs of a port (R137): two frames of eight cells, TARGET [100 µV] and BUDGET [s] rounded up. -/
def targetWrites (s : State) (p : Nat) : List (List Nat) :=
  let q := portOf s p
  [0, 8].map (fun f => [1, f] ++ (List.range 8).flatMap (fun i =>
    let t := if f + i < portCells s p then vget q.target (f + i) else 0
    let b := if f + i < portCells s p then ceilDiv (vget q.budget (f + i)) 1000000 else 0
    [t % 256, t / 256, b % 256, b / 256]))

/-- The local cells that a bleed window starting at batten `b` pulses (R176). -/
def pulseMask (s : State) (p b : Nat) : BitVec 16 :=
  maskOf 16 (fun i => i < portCells s p && ((portRec s p).balAdj == 1 || i % 2 == b / 10000 % 2))

/-- The impedance settings WRITE for a bleed window (R168, R176). -/
def impWrite (s : State) (p b : Nat) : List Nat :=
  let f := match s.cfg.impedance with
    | some r => r.freq.getD r.tempFreq 0
    | none => 0
  let m := (pulseMask s p b).toNat
  [3, f % 256, f / 256, m % 256, m / 256, 0]

/-- A native port holds balance targets. -/
def holdsTargets (s : State) (p : Nat) : Bool :=
  (portRec s p).kind == 1 && (List.range 16).any (fun i => vget (portOf s p).budget i != 0)

/-- The port's WRITE settings are written in the bulk windows of the following battens (R104): bleed limits, the balance
targets it held, and the impedance settings of a running bleed window; CLEAR_RESET follows their acknowledgement. -/
def writeSettings (s : State) (p : Nat) : State :=
  modPort s p (fun q => { q with
    settings := true, clearDue := false, writeFrom := s.bat.num + 1
    bulk := q.bulk.filter (fun b => bulkRank b != 3) ++ [.write (bleedLimits s p)]
      ++ (if holdsTargets s p then (targetWrites s p).map .write else [])
      ++ (if q.pulsed then [.write (impWrite s p s.bat.num)] else []) })

/-- A commanded code whose CMD was not carried out is sent again (R98). The balance codes are formed anew in every
batten. -/
def resendCmd (q : Port) (m : Meas) : Port :=
  if (m.status.getLsbD 25 || m.status.getLsbD 26) && q.cmd.code != 0 && q.cmd.code != 1 && q.cmd.code != 5 then
    { q with cmdQueue := { code := q.cmd.code, arg := q.cmd.arg } :: q.cmdQueue,
             test := if q.cmd.code = 4 then q.test.map (fun t => { t with sent := false }) else q.test,
             clearAt := if q.cmd.code = 6 then none else q.clearAt }
  else q

/-- An accepted exchange's firmware work: the run of accepted battens, the return from LINK, RESET, commands sent
again, impedance arming (R98, R104, R110, R167). -/
def acceptExchange (s : State) (p : Nat) (m : Meas) (b : Nat) : State :=
  let q := portOf s p
  let seen := resetSeen q b m
  let s := modPort s p (fun q =>
    let q := resendCmd q m
    { q with accRun := q.accRun + 1, missed := 0, prev := q.last, last := some (m, b) })
  let s := if q.st == .outOfService && q.cause == .link then portSync s p 1 else s
  let s := if seen then writeSettings (logEv s p 3 0) p else s
  let s :=
    if s.cfg.impedance.isSome && !m.status.getLsbD 21 && thatchPort s p
        && !((portOf s p).cmdQueue.any (fun c => c.code == 2)) then queueCmd s p 2 [0] else s
  syncingDone s p

/-- Slot 3 for one port: the exchange is classed, repeats are asked for, misses are counted (R98, R102, R103). In a
core-pair reset the firmware part waits (R236). -/
def completePort (s : State) (p : Nat) : State :=
  if !portActive s p then s
  else
    let s := exchangeMissed s p .late
    if !coresRun s then modPort s p (fun q => { q with courseClean := false })
    else
      let q := portOf s p
      match q.exch with
      | .accepted =>
        let s := match q.meas with
          | some m => acceptExchange s p m s.bat.num
          | none => s
        if (portOf s p).st == .identifying && !((portOf s p).bulk.contains .ident) then
          modPort s p (fun q => { q with bulk := q.bulk ++ [.ident] })
        else s
      | .stamp => missBatten s p
      | .lateSample => missBatten s p
      | .recovered => s
      | _ =>
        let s := modPort s p (fun q => { q with bulk := q.bulk ++ [.repeatMeas], repeats := 0 })
        if (portOf s p).st == .identifying && !((portOf s p).bulk.contains .ident) then
          modPort s p (fun q => { q with bulk := q.bulk ++ [.ident] })
        else s

/-- EXCHANGE_COMPLETION: slot 3 for every port, once per batten; slots 0 to 2 end with it. -/
def execExchangeCompletion (s : State) : Out :=
  if !fixedRuns s || 3 < s.bat.fixedDone then .next s
  else .next (forEach (List.range 32) completePort (endSlot s 3))

/-! ## The bulk window (R91, R92, R99) -/

/-- The first request in R92's order, oldest first within a kind, and the others; WRITE frames only where they may go. -/
def nextBulk (l : List BulkReq) (writes : Bool) : Option (BulkReq × List BulkReq) :=
  (List.range 5).findSome? (fun r =>
    if r == 3 && !writes then none else (l.find? (fun b => bulkRank b == r)).map (fun b => (b, l.erase b)))

/-- The port's next request is sent when the window is open and the line is free (R92); the output compare gate holds it
until its copies are equal (R270); the settings of an admission or a satellite's reset wait for the next batten's window
(R104). -/
def sendBulk (s : State) (p : Nat) : State :=
  let q := portOf s p
  if !s.owl.bulkOpen || !coresRun s || q.inFlight.isSome || !portActive s p then s
  else match nextBulk q.bulk (q.writeFrom ≤ s.bat.num) with
  | some (r, rest) => modPort s p (fun q => { q with
      inFlight := some r, bulk := rest, lineOut := if gateOn s then q.lineOut else q.lineOut ++ [bulkFrame r]
      bulkGate := gateOn s })
  | none => s

/-- SYNCING_COMPLETE: acts where the condition of R110 stands; in an open bulk window the IDENT is asked for at once. -/
def execSyncingComplete (p : Fin 32) (s : State) : Out :=
  .next (if syncReady s p then sendBulk (syncingDone s p) p else s)

/-- The result code of R108's first row that applies; an IDENT that no row fits, as one of another FW_REV, has result 1
(DEDUCED, log entry 63). -/
def identResult (s : State) (p : Nat) (i : Ident) : Nat :=
  let r := portRec s p
  if i.cells != r.cells || i.proto != r.kind then 5
  else match vget s.led.idents p with
  | none => 2
  | some (l, _, _) =>
    if i.chem != l.chem then 4 else if i.serial != l.serial || i.week != l.week then 3 else 1

/-- The ledger index of a cell: port and local cell (R196). -/
def ledgerCell (s : State) (c : Nat) : Nat :=
  match portOfCell s c with
  | some (p, l) => 16 * p + l
  | none => 0

/-- A record joins those due for a commit, once (R201). -/
def dueWith (r : Rec) (w : LedWork) : LedWork :=
  if w.due.contains (.write r) then w else { w with due := w.due ++ [.write r] }

/-- A ledger record falls due for a commit (R201). -/
def ledgerDue (s : State) (r : Rec) : State := oweLedger s (dueWith r)

/-- What identity results 2 and 3 do to a cell's learned values (R194): FIRST takes the image's values, UNLEARNED
keeps them; both widen the variances and clear the evidence. -/
def relearnCell (s : State) (first : Bool) (c : Nat) : State :=
  let m := cellModel s c
  let f := fun (l : LearnCell) =>
    let q : Rat := if first then mkRat s.cfg.plant.cellAh 1000 else l.q
    let r : Rat := if first then mkRat m.rser 1000000 else l.rser
    { l with q := q, rser := r, pq := q * q / 100, pr := 9 * r * r / 100, aR := 0, bR := 0, pend := none,
             updates := 0, lifetime := if first then 0 else l.lifetime,
             status := if first then .first else .unlearned, socRec := if first then none else l.socRec }
  let s := { s with cpr := { s.cpr with saved := { s.cpr.saved with cells := vmod s.cpr.saved.cells c f } } }
  let s := { s with led := { s.led with cells := vmod s.led.cells c f },
                    est := { s.est with widen := setBit s.est.widen c true, reinitDone := setBit s.est.reinitDone c false,
                                        unlearned := if first then s.est.unlearned else setBit s.est.unlearned c true } }
  let s := { s with psram := if s.pgr.psramOk then memErase s.psram (0xC00000 + 512 * c) (0xC00200 + 512 * c) else s.psram }
  ledgerDue s (.cell (ledgerCell s c))

/-- Admission: the port enters PROVING, its settings are written, impedance is armed in the next CMD, balancing is no
longer suspended (R104, R132, R167). -/
def admitPort (s : State) (p : Nat) : State :=
  let s := enterPort s p .proving .none
  let s := modPort s p (fun q => { q with balSuspended := false, blankRun := 0, blankDue := false, admitted := false, clearAt := none })
  let s := writeSettings s p
  if s.cfg.impedance.isSome then queueCmd s p 2 [0] else s

/-- A received IDENT decides the port's outcome (R108). -/
def identCheck (s : State) (p : Nat) (i : Ident) : State :=
  let s := modPort s p (fun q => { q with id := some i })
  if (portOf s p).st != .identifying then s
  else
    let res := identResult s p i
    let s := modPort s p (fun q => { q with identResult := res, identFails := 0 })
    let old := vget s.led.idents p
    let accept := fun (s : State) (changes : Nat) =>
      ledgerDue { s with led := { s.led with idents := vset s.led.idents p (some (i, s.bat.num, changes)) } } (.port p)
    if res = 5 then portOut s p .count
    else if res = 4 then portOut s p .chemistry
    else if res = 2 then
      let s := accept s 0
      admitPort (forEach (cellsOfPort s p) (fun s c => relearnCell s true c) s) p
    else if res = 3 then
      let s := accept s (satAdd 16 ((old.map (·.2.2)).getD 0) 1)
      admitPort (forEach (cellsOfPort s p) (fun s c => relearnCell s false c) s) p
    else admitPort s p

/-- Every setting is acknowledged: CLEAR_RESET goes into the CMD of the next batten (R104). -/
def settingsAcked (s : State) (p : Nat) : State :=
  let q := portOf s p
  let writes := q.bulk.any (fun b => bulkRank b == 3)
  if q.settings && !writes then
    let s := modPort s p (fun q => { q with settings := false, clearDue := true })
    if q.admitted && s.cfg.impedance.isSome then queueCmd s p 2 [0] else s
  else s

/-- A failed transaction (R92, R102, R110): a REPEAT is made twice at most, an IDENT is counted, a WRITE waits in its place
for another try. A balance-progress read is not tried again within its course (DESIGN CHOICE, log entry 72: R140 does not
say). -/
def bulkFail (s : State) (p : Nat) : State :=
  let q := portOf s p
  let s := modPort s p (fun q => { q with inFlight := none })
  match q.inFlight with
  | none => s
  | some .repeatMeas =>
    if q.repeats + 1 < 2 then modPort s p (fun q => { q with repeats := q.repeats + 1, bulk := q.bulk ++ [.repeatMeas] })
    else missBatten s p
  | some .ident => identFailLimit (modPort s p (fun q => { q with identFails := q.identFails + 1 })) p
  | some (.burst _) => s
  | some (.write o) => modPort s p (fun q => { q with bulk := q.bulk ++ [.write o] })
  | some .openWire => s
  | some .progress => s

/-- A batten's recovered exchange shows in its frame while that is still staged (R210; DEDUCED, log entry 15). -/
def markRecovered (s : State) (p : Nat) : State :=
  let upd := fun (f : Nat × List Byte) =>
    if fieldLe f.2 0 6 == s.bat.num then
      (f.1, f.2.set (64 + 6 * p + 5) (f.2.getD (64 + 6 * p + 5) 0 ||| 2#8))
    else f
  { s with pgr := { s.pgr with frames := s.pgr.frames.map upd } }

/-- A repeated MEAS recovers the exchange, or is refused (R102). -/
def repeatAnswer (s : State) (p : Nat) (f : LineFrame) : State :=
  match readMeas s p f with
  | none => bulkFail (modPort s p (fun q => countError q .frameError)) p
  | some (rep, m) =>
    let e := judgeMeas s (some (rep, m))
    let s := modPort s p (fun q => { countError q e with inFlight := none })
    if e = .accepted then
      let s := modPort s p (fun q => { q with exch := .recovered, late := some m, recoveredCnt := satAdd 16 q.recoveredCnt 1 })
      markRecovered (acceptExchange s p m s.bat.num) p
    else missBatten s p

/-- A BULK answer of a selector, or none for an answer that is not one (R99): its payload after the selector octet. -/
def bulkPayload (kind : Nat) (f : LineFrame) (sel : Nat) : Option (List Byte) :=
  match parseFrame f 0xA (fun n => bulkLen kind sel == some n) with
  | some (_, pl) => if fieldLe pl 0 1 = sel then some (pl.drop 1) else none
  | none => none

/-- A NAK of a selector or target octet (R99). -/
def isNak (f : LineFrame) (octet : Nat) : Bool :=
  match parseFrame f 0xC (· == 1) with
  | some (_, pl) => fieldLe pl 0 1 == octet
  | none => false

/-- An ACK of a target octet (R99). -/
def isAck (f : LineFrame) (octet : Nat) : Bool :=
  match parseFrame f 0xB (· == 1) with
  | some (_, pl) => fieldLe pl 0 1 == octet
  | none => false

/-- At 940 µs the window closes: a repeat that is not settled misses the batten, other work under way moves to the
next window in the same order (R91, R92, R102). -/
def closeBulk (s : State) (p : Nat) : State :=
  let q := portOf s p
  let rep := q.inFlight == some .repeatMeas || q.bulk.contains .repeatMeas
  let s := modPort s p (fun q => { q with
    bulk := ((match q.inFlight with | some r => [r] | none => []) ++ q.bulk).filter (· != .repeatMeas), inFlight := none })
  if rep && coresRun s then missBatten s p else s

/-- BULK_WINDOW_END. -/
def execBulkWindowEnd (s : State) : Out :=
  let s := { s with owl := { s.owl with bulkOpen := false } }
  .next (forEach (List.range 32) closeBulk s)

/-! ## The command frame of an edge (R95, R96) -/

/-- The local indices of the port's thermistors, ascending (R95). -/
def thermList (s : State) (p : Nat) : List Nat :=
  (List.range (portCells s p)).filter (fun i => maskBit' (portRec s p).tempMap i)
where
  /-- Bit `i` of a number. -/
  maskBit' (m i : Nat) : Bool := m / 2 ^ i % 2 == 1

/-- The thermistors a batten's CMD names, and the list position after it (R95). -/
def thermSelect (s : State) (p : Nat) : Nat × Nat × Nat :=
  let l := thermList s p
  let n := l.length
  let i := (portOf s p).thermPos
  if n = 0 then (255, 255, 0) else (l.getD (i % n) 0, l.getD ((i + 1) % n) 0, (i + 2) % n)

/-- The CMD of the batten leaves on a port's line (R90, R95). -/
def putCmd (s : State) (p : Nat) (c : Cmd) : State :=
  modPort s p (fun q => { q with cmd := c, lineOut := q.lineOut ++ [frameOctets 1 (cmdPayload s.bat.num c)] })

/-- The CMD that a port sends at an edge: an OPEN_WIRE that starts, else CLEAR_RESET when it is due, else the oldest
waiting code, else `idle`, the balance code or NOP; the output compare gate holds it until its copies are equal (R270);
which of several waiting codes goes first is log entry 10. In a core-pair reset the serialiser forms NOP by itself (R236). -/
def sendCmd (s : State) (p : Nat) (idle : Cmd) : State :=
  if !portActive s p then s
  else if !coresRun s then putCmd s p { tselA := 255, tselB := 255, code := 0, arg := [] }
  else
    let (a, b, pos) := thermSelect s p
    let q := portOf s p
    let (c, rest) := match q.cmdQueue.find? (fun c => c.code == 4), q.clearDue, q.cmdQueue with
      | some c, _, l => (c, l.erase c)
      | none, true, l => (({ code := 6, arg := [] } : Cmd), l)
      | none, false, c :: l => (c, l)
      | none, false, [] => (idle, [])
    let c : Cmd := { c with tselA := a, tselB := b }
    modPort (if gateOn s then modPort s p (fun q => { q with cmd := c }) else putCmd s p c) p (fun q => { q with
      cmdGate := if gateOn s then some ⟨q.cmdQueue, q.thermPos, q.clearDue, q.clearAt, q.admitted, q.test, q.pulsing⟩ else none
      cmdQueue := rest, thermPos := pos
      clearDue := if c.code = 6 then false else q.clearDue
      admitted := if c.code = 6 then true else q.admitted
      clearAt := if c.code = 6 then some s.bat.num else q.clearAt
      pulsing := if c.code = 2 then c.arg.headD 0 == 1 else q.pulsing && c.code != 3
      test := if c.code = 4 then q.test.map (fun t => { t with sent := true, start := s.bat.num }) else q.test })

/-- A batten's exchange opens: what the last batten left unsettled is missed (R102). -/
def openExchange (s : State) (p : Nat) : State :=
  let q := portOf s p
  let unsettled := q.exch != .accepted && q.exch != .recovered && coresRun s && portActive s p
    && !(q.exch == .pending)
  let s := if unsettled then missBatten s p else s
  modPort s p (fun q => { q with
                          exch := .pending, meas := none, counted := false, repeats := 0, lineOut := []
                          cmdGate := none, bulkGate := false })

end Sys2Proof.Machine
end

