-- ==== Sys2Proof/Machine/Crossing.lean ====
section
/-! DEFINITION. The crossings between clock domains (R392 to R397, R409): their kinds and depths, writes, takes and
resets. The words of crossing 6 that wait for INTENT_WORD_ACCEPT stand in `Eav`; of every other crossing the state counts
the items that wait. -/

namespace Sys2Proof.Machine

/-- The kinds of crossing (R392). -/
inductive CrossKind where
  | pulse | value | queue
deriving DecidableEq, Repr

/-- The kind of a crossing's items that can wait: of one that carries pulses beside words or values, theirs (R395). -/
def crossKind : Nat → CrossKind
  | 0 => .queue | 1 => .queue | 3 => .queue | 8 => .queue | 9 => .queue | 11 => .queue
  | 14 => .pulse
  | _ => .value

/-- The depth of a crossing (R395): of its queue, or 1. -/
def crossDepth : Nat → Nat
  | 0 => 64 | 1 => 4 | 3 => 4 | 8 => 32 | 9 => 32 | 11 => 16
  | _ => 1

/-- A crossing overruns: its bit, and the event of the first (R409). -/
def cdcOverrun (s : State) (k : Nat) : State :=
  if s.cdc.ovr.getLsbD k then s
  else logEv { s with cdc := { s.cdc with ovr := setBit s.cdc.ovr k true } } 126 1 k

/-- Items of a crossing dropped by a reset (R396). -/
def crossDrop (s : State) (k n : Nat) : State :=
  { s with cdc := { s.cdc with dropped := vmod s.cdc.dropped k (fun d => satAdd 16 d n) } }

/-- So many items wait in a crossing. -/
def crossFill (s : State) (k n : Nat) : State := { s with cdc := { s.cdc with fill := vset s.cdc.fill k n } }

/-- An item is written into a crossing (R392, R393): a pulse merges with one not yet seen, a value goes to the holding
register, to the pending slot or over the pending value, an item for a full queue is dropped and counted. -/
def crossWrite (s : State) (k : Nat) : State :=
  let n := vget s.cdc.fill k
  match crossKind k with
  | .pulse => if n = 0 then crossFill s k 1 else cdcOverrun s k
  | .value => if n ≤ 1 then crossFill s k (n + 1) else cdcOverrun s k
  | .queue =>
    if n < crossDepth k then crossFill s k (n + 1)
    else cdcOverrun { s with cdc := { s.cdc with full := vmod s.cdc.full k (fun d => satAdd 16 d 1) } } k

/-- The reader has taken some of the items that waited: how many is a free value, since no command tells it. -/
def crossTake (s : State) (k : Nat) : State :=
  let n := vget s.cdc.fill k
  let (f, s) := takeFresh s
  crossFill s k (n - (Config.freeWord f).toNat % (n + 1))

/-- A crossing is reset with the block at one of its ends: what waits in it is dropped and counted (R396). -/
def crossReset (s : State) (k : Nat) : State := crossFill (crossDrop s k (vget s.cdc.fill k)) k 0

/-- Every item that waits has been taken: a crossing's round trip ends long before the next edge (R393, R395). -/
def crossDrain (s : State) : State := { s with cdc := { s.cdc with fill := Vector.replicate 15 0 } }

/-- A word is written into crossing 6: into the pending slot while the holding register is full; one that replaces a
pending word is an overrun (R393). A die held in reset drops it (R397). -/
def crossWord (s : State) (w : IntentWord) : State :=
  if s.spar.inReset then crossDrop s 6 1
  else if s.eav.word.isNone then { s with eav := { s.eav with word := some w } }
  else
    let s := if s.eav.wordNext.isSome then cdcOverrun s 6 else s
    { s with eav := { s.eav with wordNext := some w } }

end Sys2Proof.Machine
end

