-- ==== Sys2Proof/Machine/Verge.lean ====
section
/-! DEFINITION. The Verge die (R353 to R367): samples and their validity, the charge counters, the comparator lanes
and the insulation monitor. -/

namespace Sys2Proof.Machine

/-! ## Samples (R353 to R359) -/

/-- A voltage channel is converted (R353). -/
def voltUsed (s : State) (n : Nat) : Bool := s.vrg.cfg.div.getD n 0 != 0
/-- A shunt channel is converted (R353). -/
def shuntUsed (s : State) (k : Nat) : Bool := s.vrg.cfg.shunt.getD k 0 != 0
/-- A voltage from its code [V]: code × 8 µV × DIV / 1 000. -/
def voltOf (s : State) (n : Nat) (code : Int) : Rat := mkRat (code * 8 * s.vrg.cfg.div.getD n 0) 1000000000
/-- A current from its code [A]: code × 6.25 nV / (SHUNT × 10⁻⁹ Ω). -/
def ampOf (s : State) (k : Nat) (code : Int) : Rat := mkRat (code * 25) (4 * s.vrg.cfg.shunt.getD k 0)
/-- A code strictly inside its range (R358). -/
def inside (range code : Int) : Bool := -range < code && code < range

/-- The die delivers samples: powered, configured, its barrier delay within reach (R355, R365). -/
def vergeUp (s : State) : Bool := s.vrg.powered && s.vrg.configured && s.vrg.delay ≤ 400

/-- A frame counts (R357, R358): in time, its CRC and batten number right, the die's status good. -/
def frameGood (s : State) (f : VergeFrame) : Bool :=
  f.crcOk && f.batten.toNat == s.bat.num % 256 && f.supplyGood && f.referenceGood && f.clockGood
    && s.vrg.delay ≤ 400

/-- The currents of a frame's instant: valid ones kept per string (R358). -/
def takeAmps (s : State) (f : VergeFrame) (good : Bool) (k : Nat) : State :=
  let code := vget f.amps k
  if good && shuntUsed s k && inside 8388608 code then
    let a := ampOf s k code
    { s with vrg := { s.vrg with
        amps := vmod s.vrg.amps k (fun v => vset v f.k a)
        iOk := vmod s.vrg.iOk k (fun m => setBit m f.k true)
        i := if f.k.val = 0 then vset s.vrg.i k a else s.vrg.i } }
  else s

/-- A voltage channel of frame 0: a valid sample is kept. -/
def takeVolt (s : State) (f : VergeFrame) (good : Bool) (n : Nat) : State :=
  let code := vget f.volts n
  if good && voltUsed s n && inside 131072 code then
    { s with vrg := { s.vrg with v := vset s.vrg.v n (voltOf s n code), vOk := setBit s.vrg.vOk n true } }
  else s

/-- String `k`'s part of frame 0 is valid in this batten: string voltage, link voltage, current of instant 0. -/
def frame0Valid (s : State) (k : Nat) : Bool :=
  s.vrg.vOk.getLsbD (2 * k) && s.vrg.vOk.getLsbD (2 * k + 1) && (vget s.vrg.iOk k).getLsbD 0

/-- A string's Verge samples as slots 4 and 5 judge them: frame 0 of this batten, and instants 1 to 3 of the last
(R358; the later frames of this batten have not arrived, DEDUCED, log entry 11). -/
def strValid (s : State) (k : Nat) : Bool := vergeUp s && frame0Valid s k && s.vrg.tailOk.getLsbD k

/-- The string voltage, the link voltage and the current at the edge, last valid values (R356, R359). -/
def vString (s : State) (k : Nat) : Rat := vget s.vrg.v (2 * k)
/-- The link voltage of a string [V]. -/
def vLink (s : State) (k : Nat) : Rat := vget s.vrg.v (2 * k + 1)
/-- The current of a string at the edge [A]. -/
def iString (s : State) (k : Nat) : Rat := vget s.vrg.i k

/-- The registers of an insulation result that enters CORE with a valid frame 0, stamped with its cycle's end (R364;
DEDUCED, log entry 71). -/
def publishInsulation (s : State) : State :=
  match s.vrg.resultDue with
  | none => s
  | some (rp, rn, dead, above, below, mains) =>
    { s with vrg := { s.vrg with
        rPos := rp, rNeg := rn, result := min rp rn, busDead := dead, above := above, below := below, resMains := mains
        resAt := some (s.bat.num / 2000 * 2000), resFrom := (s.bat.num / 2000 * 2000 : Nat), noResult := 0
        newResult := true, resultDue := none } }

/-- A Verge frame crosses the barrier (R357, R358). A frame after its deadline, or one already taken, counts for
nothing; a die that sends one has its clock (R361). -/
def execVergeFrameReceived (f : VergeFrame) (s : State) : Out :=
  if !s.vrg.powered || !s.vrg.configured || s.vrg.seen.getLsbD f.k || unconfigured s then .next s
  else
    let good := frameGood s f
    let s := { s with vrg := { s.vrg with
      seen := setBit s.vrg.seen f.k true, supplyGood := f.supplyGood, refGood := f.referenceGood
      clockGood := f.clockGood && s.vrg.delay ≤ 400, stopped := false
      missing := if f.k.val = 0 then 0 else s.vrg.missing } }
    let s := forEach (List.range 4) (fun s k => takeAmps s f good k) s
    if f.k.val = 0 then
      let s := forEach (List.range 8) (fun s n => takeVolt s f good n) s
      .next (if good then publishInsulation { s with vrg := { s.vrg with firstValid := true } } else s)
    else .next s

/-- A frame's deadline passes: it counts as missing (R358). -/
def frameDeadline (s : State) (k : Nat) : State :=
  if s.vrg.seen.getLsbD k || unconfigured s then s
  else { s with vrg := { s.vrg with
    seen := setBit s.vrg.seen k true
    missing := if k = 0 then min 255 (s.vrg.missing + 1) else s.vrg.missing } }

/-- VERGE_FRAME_DEADLINE. -/
def execVergeFrameDeadline (k : Fin 4) (s : State) : Out := .next (frameDeadline s k)

/-! ## The batten's end: charge and windows (R148, R149, R356) -/

/-- The charge of a current over a time in µs [µA·s], to the nearest. -/
def chargeOf (amps : Rat) (us : Nat) : Int := rndEven (amps * (us : Rat))

/-- One string's batten ends: validity, charge counter, mean current, and the count of invalid battens. The batten mean is
that of four valid current samples (R356); an invalid batten takes the charge of the mean before it (R149). -/
def vergeString (s : State) (k : Nat) : State :=
  let all := vget s.vrg.iOk k == 0xF
  let ok := vergeUp s && s.vrg.vOk.getLsbD (2 * k) && s.vrg.vOk.getLsbD (2 * k + 1) && all
  let a := vget s.vrg.amps k
  let sum := sumR a.toList
  let mean := sum / 4
  let b := s.bat.num
  let w := s.cfg.plant.avgWindow
  let v : Vrg := s.vrg
  let v : Vrg := { v with
    valid := setBit v.valid k ok
    tailOk := setBit v.tailOk k ((vget v.iOk k) ||| 1#4 == 0xF)
    lastV := vset v.lastV k (vget v.v (2 * k)), lastVOk := setBit v.lastVOk k ok, lastVolts := v.vOk
    lastAmps := vset v.lastAmps k a }
  let v :=
    if ok then { v with
      charge := vset v.charge k (vget v.charge k + sumI (a.toList.map (fun x => chargeOf x 250)))
      means := vmod v.means k (fun l => ((b, mean) :: l).filter (fun e => b < e.1 + w)) }
    else { v with
      charge := vset v.charge k (vget v.charge k + chargeOf (vget v.iMean k) 1000)
      means := vmod v.means k (fun l => l.filter (fun e => b < e.1 + w))
      inv := vset v.inv k (satAdd 8 (vget v.inv k) 1)
      gaps := vset v.gaps k (vget v.gaps k + 1) }
  { s with vrg := { v with iMean := if all then vset v.iMean k mean else v.iMean } }

/-- The bus voltage of R362: the highest link voltage among strings whose main-negative is commanded closed, 0 V without one. -/
def busVoltage (s : State) : Rat :=
  match (strs s).filter (fun k => (eavOn s).getLsbD (coilOf s k 0)) with
  | [] => 0
  | k :: ks => ks.foldl (fun m k => maxR m (vLink s k)) (vLink s k)

/-- The strings whose main-negative is commanded closed. -/
def mainsClosed (s : State) : BitVec 4 := maskOf 4 (fun k => hasStr s k && (eavOn s).getLsbD (coilOf s k 0))

/-- A mean of the bus voltage over 100 battens of a half, put in its place. -/
def putMean (b : InsBus) (second late : Bool) (m : Rat) : InsBus :=
  match second, late with
  | false, false => { b with early1 := m }
  | false, true => { b with late1 := m }
  | true, false => { b with early2 := m }
  | true, true => { b with late2 := m }

/-- The insulation monitor's batten: the bus voltage joins the running mean over battens 800 to 899 or 900 to 999 of a half
(R362). -/
def insulationBatten (s : State) : State :=
  let ph := s.bat.num % 1000
  let v : Vrg := { s.vrg with bus := { s.vrg.bus with mains := s.vrg.bus.mains ||| mainsClosed s } }
  let v : Vrg := if 800 ≤ ph then { v with uSum := v.uSum + busVoltage s, uNum := v.uNum + 1 } else v
  if ph = 899 || ph = 999 then
    { s with vrg := { v with
      bus := putMean v.bus (s.bat.num % 2000 == 1000 + ph) (ph == 999) (v.uSum / (v.uNum : Rat)), uSum := 0, uNum := 0 } }
  else { s with vrg := v }

/-- The shunt channels valid at all four instants, converted ones of strings not configured too (R353, R367). -/
def shuntsValid (s : State) : State :=
  { s with vrg := { s.vrg with shuntValid := maskOf 4 (fun k => vget s.vrg.iOk k == 0xF) } }

/-- The Verge side of a batten that ends; `s.bat.num` is still its number. -/
def vergeBattenEnd (s : State) : State :=
  let s := shuntsValid (forEach (List.range 4) frameDeadline s)
  let s := forEach (strs s) vergeString s
  insulationBatten s

/-- The Verge side of a batten that begins: no sample of it has arrived; on the grid an insulation cycle ends and the
next one starts (R355, R362). -/
def vergeBattenStart (s : State) : State :=
  let v : Vrg := { s.vrg with vOk := 0, iOk := Vector.replicate 4 0, seen := 0 }
  let v : Vrg := if s.bat.num % 2000 = 0 then { v with
      ended := if v.cycleOk then some v.bus else none, cycleOver := true, cycleOk := v.firstValid && v.configured, bus := {}, uSum := 0, uNum := 0 }
    else v
  { s with vrg := v }

/-! ## Insulation (R362 to R364) -/

/-- A conductance [1/kΩ] as a resistance within 20 to 50 000 kΩ, with ABOVE and BELOW RANGE (R363): a negative one
gives a resistance below the range, 0 one above it (DEDUCED, log entry 71). -/
def insResistance (g : Rat) : Nat × Bool × Bool :=
  if g < 0 ∨ 1 < g * 20 then (20, false, true)
  else if g * 50000 < 1 then (50000, true, false)
  else ((rndEven (1 / g)).toNat, false, false)

/-- The node equations of R363 from the halves' chassis voltages [V] and bus voltages [V]: 1/R+ and 1/R− [1/kΩ], or
both as 1/G with BUS DEAD. A singular pair of equations states no value: a free one (log entry 7). -/
def insSolve (n : Nat) (u1 u2 b1 b2 : Rat) : Rat × Rat × Bool :=
  if b1 < 50 ∧ b2 < 50 then
    let g := if u1 = u2 then 1 else 50 / (200 * (u1 - u2)) - 1 / 200
    (g, g, true)
  else
    let c1 := (u1 - 25) / 200
    let c2 := (u2 + 25) / 200
    let det := b2 * u1 - b1 * u2
    if det = 0 then (Config.freeReal n, Config.freeReal (n + 1), false)
    else
      let a := (c2 * u1 - c1 * u2) / det
      let g := (b1 * c2 - b2 * c1) / det
      (a, g - a, false)

/-- A cycle ends without a result (R362, R364). -/
def insNone (s : State) : State :=
  let n := s.vrg.noResult + 1
  { s with vrg := { s.vrg with
    unsettled := true, noResult := satTo 16 n, insEvents := if n = 5 then s.vrg.insEvents ++ [(3, 0)] else s.vrg.insEvents } }

/-- The current limiter acted in a half of the cycle: it does while the chassis lies more than 100 V off HVREF (R436). -/
def insLimited (c : InsCycle) : Bool :=
  c.limited1 || c.limited2 || [c.early1, c.late1, c.early2, c.late2].any (fun u => 100000000 < absI u)

/-- Both halves of a cycle are settled: the means of the chassis voltage and of the bus voltage agree, and the current
limiter acted in neither (R362, R436; DEDUCED, log entry 71). -/
def insSettled (c : InsCycle) (b : InsBus) : Bool :=
  !insLimited c && absI (c.early1 - c.late1) ≤ 250000 && absI (c.early2 - c.late2) ≤ 250000
    && decide (absR (b.early1 - b.late1) ≤ 1 / 4) && decide (absR (b.early2 - b.late2) ≤ 1 / 4)

/-- INSULATION_CYCLE_END, of the cycle that ended last: its equations give a result, which enters CORE with the next
frame 0, or none. A cycle that began before the die's first valid frame, or whose end the die does not see in service,
gives none (R364, R365). -/
def execInsulationCycleEnd (c : InsCycle) (s : State) : Out :=
  if unconfigured s || !s.vrg.cycleOver then .next s
  else
  let up := vergeUp s
  let ended := s.vrg.ended
  let s := { s with vrg := { s.vrg with ended := none, cycleOver := false } }
  match up, ended with
  | true, some b =>
    if !insSettled c b then .next (insNone s)
    else
      let u1 := mkRat c.late1 1000000
      let u2 := mkRat c.late2 1000000
      let (gp, gn, dead) := insSolve s.fresh u1 u2 b.late1 b.late2
      let (rp, ap, bp) := insResistance gp
      let (rn, an, bn) := insResistance gn
      .next { s with fresh := s.fresh + 2, vrg := { s.vrg with
        unsettled := false, resultDue := some (rp, rn, dead, ap || an, bp || bn, b.mains) } }
  | _, _ => .next (insNone s)

/-! ## Power and lanes (R359 to R361, R365) -/

/-- VERGE_POWER_UP: the barrier delay is measured, the configuration is loaded where an image is, and no sample is
valid until a frame 0 is (R355, R365); crossings 2 and 3 start empty (R396). In Dormant and Ship its converter is off. -/
def execVergePowerUp (delay : Nat) (s : State) : Out :=
  if !mapUp s && !s.pwr.waking then .next s
  else .next { s with
    vrg := { s.vrg with
      powered := true, configured := !unconfigured s, cfg := s.cfg.verge, strings := nStr s, delay := delay
      supplyGood := true, refGood := true, clockGood := decide (delay ≤ 400), stopped := false, firstValid := false, vOk := 0
      iOk := Vector.replicate 4 0, tailOk := 0xF, comparators := 0, cycleOk := false, ended := none, resultDue := none
      rPos := 0, rNeg := 0, result := 0, busDead := false, above := false, below := false, unsettled := false
      resMains := 0, resAt := none, noResult := 0 } }

/-- The die loses its supply: its lanes stop toggling, nothing of it is valid (R361). -/
def vergeOff (s : State) : State :=
  { s with
    vrg := { s.vrg with
      powered := false, configured := false, supplyGood := false, refGood := false, clockGood := false
      firstValid := false, vOk := 0, iOk := Vector.replicate 4 0, cycleOk := false, ended := none, resultDue := none } }

/-- VERGE_POWER_LOSS: crossings 2 and 3 are reset with it (R395, R396). -/
def execVergePowerLoss (s : State) : Out := .next (forEach [2, 3] crossReset (vergeOff s))

/-- HVS_CLOCK_FAULT: the die's status shows it; the frames it sends from there on show the clock not good, and count for
nothing (R358, R359). Whether the clock has stopped or runs outside its tolerance is a free value (log entry 16). -/
def execHvsClockFault (s : State) : Out :=
  let (f, s) := takeFresh s
  .next { s with vrg := { s.vrg with clockGood := false, stopped := (Config.freeWord f).getLsbD 0 } }

/-- A comparator lane toggles toward Spar: the die powered and clocked, its comparator not active (R361). -/
def laneToggles (s : State) (l : Nat) : Bool := s.vrg.powered && !s.vrg.stopped && !s.vrg.comparators.getLsbD l

/-- COMPARATOR_ACTIVE: the lane stops toggling; an unconfigured die holds every comparator inactive (R360, R361). -/
def execComparatorActive (l : Fin 5) (s : State) : Out :=
  if s.vrg.powered && s.vrg.configured then
    .next { s with vrg := { s.vrg with comparators := setBit s.vrg.comparators l true } }
  else .next s

/-- COMPARATOR_RELEASE: the lane toggles again (R360, R361). -/
def execComparatorRelease (l : Fin 5) (s : State) : Out :=
  .next { s with vrg := { s.vrg with comparators := setBit s.vrg.comparators l false } }

end Sys2Proof.Machine
end

