-- ==== Sys2Proof/Machine/Thatch.lean ====
section
/-! DEFINITION. Thatch (R117 to R132): the batten's values with their holds and averages, the plausibility checks,
the open-wire test and what the module makes of its findings. -/

namespace Sys2Proof.Machine

/-! ## Flags (R118, R130) -/

/-- A quality flag of a cell set or cleared. -/
def setFlag (s : State) (c i : Nat) (on : Bool) : State := modCell s c (fun r => { r with flags := setBit r.flags i on })
/-- The stale age of a cell: battens since VLAST's batten, saturating (R117). -/
def cellAge (s : State) (c : Nat) : Nat :=
  match (vget s.tha.cells c).vlastAt with
  | some b => min 65535 (s.bat.num - b)
  | none => min 65535 (s.bat.num + 1)
/-- A quality flag of a cell. -/
def flagOf (s : State) (c i : Nat) : Bool := (vget s.tha.cells c).flags.getLsbD i
/-- A cause of CHAIN_FAULT set or cleared on a cell; the flag stands while any cause does (R130). -/
def setChain (s : State) (c i : Nat) (on : Bool) : State :=
  modCell s c (fun r => let ch := setBit r.chain i on; { r with chain := ch, flags := setBit r.flags 6 (ch != 0) })
/-- A cell is WIRE_OPEN or CHAIN_FAULT (R130). -/
def cellBad (s : State) (c : Nat) : Bool := flagOf s c 5 || flagOf s c 6

/-! ## Values and averages (R119, R120, R127, R132) -/

/-- The port's cells are held by an open-wire test in batten `b` (R127). -/
def testHold (q : Port) (b : Nat) : Bool :=
  match q.test with
  | some t => t.sent && (b == t.start + 1 || b == t.start + 2)
  | none => false

/-- Local cell `i` reports a blanking failure in a frame (R132). -/
def bleedBit (n : Nat) (m : Meas) (i : Nat) : Bool := i < n && m.status.getLsbD i
/-- Local cell `i` is held for a blanking failure of itself or a neighbour (R132). -/
def blankHold (n : Nat) (m : Meas) (i : Nat) : Bool :=
  bleedBit n m i || bleedBit n m (i + 1) || (0 < i && bleedBit n m (i - 1))

/-- The reading of local cell `i` of a batten `b` takes part: not held by a test, a blanking failure or an open wire. -/
def readingHeld (s : State) (p b : Nat) (m : Meas) (i : Nat) : Bool :=
  testHold (portOf s p) b || blankHold (portCells s p) m i || flagOf s (firstCell s p + i) 5

/-- VAVG over the accepted readings of the window (R120); without one it stands and the cell is stale. While the cell is
WIRE_OPEN it keeps its value from before the finding (R130). -/
def average (s : State) (r : CellRec) : CellRec :=
  let w := r.window.filter (fun e => s.bat.num < e.2 + s.cfg.plant.avgWindow)
  if r.flags.getLsbD 5 then { r with window := w }
  else if w.isEmpty then { r with window := w, flags := setBit r.flags 0 true }
  else { r with window := w, vavg := (rndEven (mkRat (sumN (w.map (·.1))) w.length)).toNat }

/-- One cell's step of the Thatch update (R119 steps 1 to 4): a blanking hold alone leaves STALE as it stands (R118,
R132). `cur` is the port's accepted frame of this batten, `old` one recovered from the last. -/
def updateCell (s : State) (p : Nat) (cur old : Option Meas) (i : Nat) : State :=
  let c := firstCell s p + i
  let q := portOf s p
  let b := s.bat.num
  let s := modCell s c (fun r =>
    let r : CellRec := match old with
      | some m => if readingHeld s p (b - 1) m i then r else { r with window := r.window ++ [(m.volts.getD i 0, b - 1)] }
      | none => r
    let held := match cur with
      | some m => readingHeld s p b m i
      | none => true
    let v := match cur with
      | some m => m.volts.getD i 0
      | none => 0
    let r : CellRec :=
      let stale := cur.isNone || testHold q b || r.flags.getLsbD 5
      if held then { r with flags := setBit r.flags 0 (stale || r.flags.getLsbD 0) }
      else { r with
        vlast := v, vlastAt := some b, flags := setBit r.flags 0 false, window := (v, b) :: r.window
        hMin := min r.hMin v, hMax := max r.hMax v }
    let blank := match cur, old with
      | some m, _ => bleedBit (portCells s p) m i
      | none, some m => bleedBit (portCells s p) m i
      | none, none => false
    average s { r with flags := setBit (setBit r.flags 2 (testHold q b)) 10 blank, held := held })
  s

/-- A thermistor reading of a frame: the local index it names, and its value (R95, R97). -/
def takeTemp (s : State) (p idx val : Nat) : State :=
  if idx < portCells s p && val != 0x8000 then
    modCell s (firstCell s p + idx) (fun r => { r with tmeas := some (ofTwos 16 val), tmeasAt := s.bat.num })
  else s

/-- OV and UV of a port's cells from the last accepted MEAS (R118). -/
def takeOvUv (s : State) (p : Nat) (m : Meas) : State :=
  forEach (cellsOfPort s p) (fun s c => setFlag (setFlag s c 8 (m.status.getLsbD 16)) c 9 (m.status.getLsbD 17)) s

/-- The count of consecutive battens with a blanking failure (R132): a batten without an accepted exchange in slot 4 waits
for the frame that recovers it, and ends the run where none came. -/
def blankCount (s : State) (p : Nat) (cur old : Option Meas) : State :=
  let n := portCells s p
  let fails := fun (m : Meas) => (List.range n).any (bleedBit n m)
  let next := fun (run : Nat) (m : Option Meas) => if m.any fails then run + 1 else 0
  modPort s p (fun q =>
    let before := if q.blankOpen then next q.blankRun old else q.blankRun
    let run := if cur.isSome then next before cur else before
    { q with blankOpen := cur.isNone, blankRun := run, blankDue := q.blankDue || 10 ≤ before || 10 ≤ run })

/-- The hardware part of slot 4 for one port (R119, R236). Of a frame recovered late the readings, OV and UV are taken, the
thermistors not (DEDUCED, log entry 64). -/
def updatePort (s : State) (p : Nat) : State :=
  let q := portOf s p
  let live := thatchPort s p
  let cur := if live && q.exch == .accepted then q.meas else none
  let old := if live then q.late else none
  let s := forEach (List.range (portCells s p)) (fun s i => updateCell s p cur old i) s
  let s := match cur with
    | some m => takeOvUv (takeTemp (takeTemp s p q.cmd.tselA m.tempA) p q.cmd.tselB m.tempB) p m
    | none => match old with
      | some m => takeOvUv s p m
      | none => s
  blankCount s p cur old

/-! ## Satellite and string checks (R121, R122, R129) -/

/-- ΣV − TOTAL of a frame [100 µV] over the port's cells. -/
def satDiff (n : Nat) (m : Meas) : Int := (sumN (m.volts.take n) : Int) - 50 * m.total

/-- The satellite check's failures bring a test at 10 in a row and CHAIN_FAULT at 100 (R129). -/
def satFailLimit (s : State) (p : Nat) : State :=
  let q := portOf s p
  let s := if q.satRun = 10 then
      logEv (modPort s p (fun q => { q with testWanted := true })) p 5 (twos 16 q.satDiff)
    else s
  if 100 ≤ q.satRun && q.testedInService && q.owIntact && (cellsOfPort s p).any (fun c => !(vget s.tha.cells c).chain.getLsbD 0)
  then logEv (forEach (cellsOfPort s p) (fun s c => setChain s c 0 true) s) p 7 0
  else s

/-- SATELLITE_CHECK_FAIL_LIMIT. -/
def execSatelliteCheckFailLimit (p : Fin 32) (s : State) : Out := .next (satFailLimit s p)

/-- The satellite check of a frame (R121): |ΣV − TOTAL| ≤ 50 mV + 0.25 % of TOTAL. -/
def satCheck (s : State) (p : Nat) (m : Meas) : State :=
  let d := satDiff (portCells s p) m
  let reg := satInt 16 (rndEven (mkRat d 50))
  if absI d * 8 ≤ 4000 + m.total then
    modPort s p (fun q => { q with satDiff := reg, satFails := 0, satRun := 0 })
  else
    satFailLimit (modPort s p (fun q => { q with
      satDiff := reg, satFails := satAdd 8 q.satFails 1, satRun := q.satRun + 1, courseClean := false, satCourseOk := false })) p

/-- STATUS[22] against OV, UV and SUPPLY (R131). -/
def toneConsistent (m : Meas) : Bool :=
  let good := !m.status.getLsbD 16 && !m.status.getLsbD 17 && m.status.getLsbD 18
  m.status.getLsbD 22 == good

/-- The consistency of an accepted frame's tone (R131). -/
def toneCheck (s : State) (p : Nat) (m : Meas) : State :=
  if toneConsistent m then s else logEv s p 4 (m.status.toNat / 65536)

/-- A frame's satellite check, unless a test holds the cells (R121). -/
def frameChecks (s : State) (p b : Nat) (m : Meas) : State :=
  if testHold (portOf s p) b then s else satCheck s p m

/-- The frame of a port accepted for a batten. -/
def frameOf (q : Port) (b : Nat) : Option Meas :=
  match q.last with
  | some (m, x) => if x = b then some m else (q.prev.bind (fun e => if e.2 = b then some e.1 else none))
  | none => none

/-- One hundred consecutive failed string checks set CHAIN_FAULT on the string (R129). -/
def strFailLimit (s : State) (k : Nat) : State :=
  let t := vget s.tha.strChk k
  if 100 ≤ t.fails && (cellsOfStr s k).any (fun c => !(vget s.tha.cells c).chain.getLsbD 1) then
    logEv (forEach (cellsOfStr s k) (fun s c => setChain s c 1 true) s) (96 + k) 9 (twos 16 t.diff)
  else s

/-- STRING_CHECK_FAIL_LIMIT. -/
def execStringCheckFailLimit (k : Fin 4) (s : State) : Out := .next (strFailLimit s k)

/-- The string check of a batten (R122) when every port of the string delivered and the Verge sample is valid:
|ΣTOTAL − V_string| ≤ 1.0 V + 0.5 % of V_string. -/
def strCheck (s : State) (k b : Nat) (v : Rat) (ok : Bool) : State :=
  let ms := (strPorts s k).map (fun p => if thatchPort s p then frameOf (portOf s p) b else none)
  if !ok || ms.isEmpty || ms.any (·.isNone) then s
  else
    let tot : Rat := mkRat (sumN (ms.map (fun m => (m.map (·.total)).getD 0))) 200
    let d := tot - v
    let reg := satInt 16 (rndEven (d * 10))
    let pass := absR d ≤ 1 + v / 200
    let put := fun (s : State) (f : StrCheck → StrCheck) => { s with tha := { s.tha with strChk := vmod s.tha.strChk k f } }
    if pass then put s (fun t => { t with diff := reg, fails := 0 })
    else
      let s := put s (fun t => { t with diff := reg, fails := satAdd 16 t.fails 1, courseOk := false })
      let s := forEach (strPorts s k) (fun s p => modPort s p (fun q => { q with courseClean := false })) s
      strFailLimit s k

/-! ## Deviations (R123, R129) -/

/-- A list of numbers in ascending order, by insertion. -/
def insertAsc (x : Int) : List Int → List Int
  | [] => [x]
  | y :: l => if x ≤ y then x :: y :: l else y :: insertAsc x l

/-- Twice the median of a list. -/
def median2 (l : List Int) : Int :=
  let a := l.foldr insertAsc []
  let n := a.length
  if n % 2 = 1 then 2 * a.getD (n / 2) 0 else a.getD (n / 2 - 1) 0 + a.getD (n / 2) 0

/-- Twice each local cell's deviation from the median of the cells not held; none for a held cell. -/
def deviations (vals : List (Option Int)) : List (Option Int) :=
  let m := median2 (vals.filterMap id)
  vals.map (fun v => v.map (fun x => 2 * x - m))

/-- Local cells `i` and `i + 1` show a pair signature. -/
def pairSig (e : List (Option Int)) (i : Nat) : Bool :=
  match e.getD i none, e.getD (i + 1) none with
  | some a, some b => ((5000 ≤ a && b ≤ -5000) || (a ≤ -5000 && 5000 ≤ b)) && absI (a + b) ≤ 2000
  | _, _ => false

/-- Local cell `i` shows a single deviation. -/
def singleSig (e : List (Option Int)) (i : Nat) : Bool :=
  match e.getD i none with
  | some a => 5000 ≤ absI a && !pairSig e i && !(0 < i && pairSig e (i - 1))
  | none => false

/-- Ten battens of a signature set its flag, and a new flag on a cell not confirmed asks for a test (R123, R125). -/
def deviationLimit (s : State) (p : Nat) : State :=
  let q := portOf s p
  let f := firstCell s p
  let mark := fun (s : State) (i bit : Nat) =>
    let s := if !flagOf s (f + i) bit && !q.confirmed.getLsbD i then modPort s p (fun q => { q with testWanted := true }) else s
    setFlag s (f + i) bit true
  let s := forEach (List.range (portCells s p - 1)) (fun s i =>
    if 10 ≤ vget q.pairRuns i then mark (mark s i 3) (i + 1) 3 else s) s
  forEach (List.range (portCells s p)) (fun s i => if 10 ≤ vget q.singleRuns i then mark s i 4 else s) s

/-- DEVIATION_SIGNATURE_LIMIT. -/
def execDeviationSignatureLimit (p : Fin 32) (s : State) : Out := .next (deviationLimit s p)

/-- The deviation check of a port on readings, held cells taking no part and their counts standing (R123). -/
def deviationCheck (s : State) (p : Nat) (vals : List (Option Int)) : State :=
  let n := portCells s p
  if n < 3 then s
  else
    let e := deviations vals
    let off := fun i => (e.getD i none).isNone
    let s := modPort s p (fun q => { q with
      pairRuns := (List.range (n - 1)).foldl (fun v i =>
        if off i || off (i + 1) then v else vmod v i (fun r => if pairSig e i then satAdd 8 r 1 else 0)) q.pairRuns
      singleRuns := (List.range n).foldl (fun v i =>
        if off i then v else vmod v i (fun r => if singleSig e i then satAdd 8 r 1 else 0)) q.singleRuns
      sigCourse := q.sigCourse ||| maskOf 16 (fun i => i < n && (pairSig e i || (0 < i && pairSig e (i - 1)) || singleSig e i)) })
    deviationLimit s p

/-! ## Blanking (R132) -/

/-- Ten battens of blanking failures, those of a core-pair reset among them: BLEED_OFF, balancing suspended until
admission, and an event (R132). -/
def blankingLimit (s : State) (p : Nat) : State :=
  let q := portOf s p
  if (10 ≤ q.blankRun || q.blankDue) && !q.balSuspended then
    let mask := match q.meas with
      | some m => m.status.toNat % 2 ^ portCells s p
      | none => 0
    logEv (queueCmd (modPort s p (fun q => { q with balSuspended := true, blankDue := false })) p 7 []) p 8 mask
  else s

/-- BLANKING_FAIL_LIMIT. -/
def execBlankingFailLimit (p : Fin 32) (s : State) : Out := .next (blankingLimit s p)

/-! ## The open-wire test (R125 to R130) -/

/-- The wires of a phase: 0 even, 1 odd, of a satellite of `n` cells, as a mask. -/
def phaseWires (n parity : Nat) : Nat := sumN (((List.range (n + 1)).filter (fun w => w % 2 == parity)).map (2 ^ ·))

/-- A frame's readings join the running test: baseline, even phase, odd phase (R126). -/
def testReading (s : State) (p b : Nat) (m : Meas) : State :=
  modPort s p (fun q => { q with test := q.test.map (fun t =>
    if !t.sent then t
    else if b = t.start then { t with base := m.volts }
    else if b = t.start + 1 then { t with even := m.volts }
    else if b = t.start + 2 then { t with odd := m.volts }
    else t) })

/-- A test ends without a result and is made again, with the category it had (R127). -/
def againTest (s : State) (p : Nat) : State :=
  modPort s p (fun q => { q with test := none, testAgain := q.test.map (·.category) })

/-- A test abandoned: repeated in the next OPEN_WIRE slot; three in a row are a CHAIN_FAULT (R127, R129). -/
def abandonTest (s : State) (p : Nat) : State :=
  let q := portOf s p
  let n := min 3 (q.abandoned + 1)
  let s := againTest (modPort s p (fun q => { q with abandoned := n })) p
  if n = 3 && q.abandoned < 3 then
    logEv (forEach (cellsOfPort s p) (fun s c => setChain s c 2 true) s) p 7 1
  else s

/-- A running test is cut by a core-pair reset: it will be dropped, and its hold goes on till then (R127, R236). -/
def cutTest (s : State) (p : Nat) : State :=
  modPort s p (fun q => { q with test := q.test.map (fun t => if t.sent then { t with cut := true } else t) })

/-- A test dropped by a core-pair reset, once its held battens are over: not evaluated, not abandoned, started again with
its own priority (R127). -/
def dropTest (s : State) (p : Nat) : State := againTest s p

/-- Wire `w`'s phase reading collapses its cell (R128). -/
def collapses (t : WireTest) (w : Nat) : Bool :=
  let c := w - 1
  let r := if w % 2 = 0 then t.even else t.odd
  2 * r.getD c 0 ≤ t.base.getD c 0

/-- Wire `w`'s phase reading lifts the cell above it (R128). -/
def rises (t : WireTest) (w : Nat) : Bool :=
  let r := if w % 2 = 0 then t.even else t.odd
  4 * t.base.getD w 0 + t.base.getD (w - 1) 0 ≤ 4 * r.getD w 0

/-- Wire `w` is open (R128). -/
def wireOpen (n : Nat) (t : WireTest) (w : Nat) : Bool := collapses t w && (w == 0 || n ≤ w || rises t w)
/-- Wire `w`'s test shows an input fault of the cell below it (R128). -/
def inputFault (n : Nat) (t : WireTest) (w : Nat) : Bool := collapses t w && 0 < w && w < n && !rises t w

/-- The findings of a completed test (R128 to R130). -/
def testFindings (s : State) (p : Nat) (t : WireTest) : State :=
  let n := portCells s p
  let f := firstCell s p
  let open_ := (List.range (n + 1)).filter (wireOpen n t)
  let faults := ((List.range (n + 1)).filter (inputFault n t)).map (· - 1)
  let intact := open_.isEmpty
  let s := modPort s p (fun q => { q with
    test := none, abandoned := 0, owCourses := 0, owIntact := intact, testedInService := true
    owOpen := BitVec.ofNat 17 (sumN (open_.map (2 ^ ·))) })
  let s :=
    if intact then
      forEach (List.range n) (fun s i =>
        let c := f + i
        let s := setFlag (setFlag s c 5 false) c 7 false
        let s := setChain s c 2 false
        let s := if faults.contains i then s else setChain s c 3 false
        let s := if (flagOf s c 3 || flagOf s c 4) && !(portOf s p).confirmed.getLsbD i then
            logEv (modPort s p (fun q => { q with confirmed := setBit q.confirmed i true })) 92 1 c
          else s
        s) s
    else
      let s := forEach open_ (fun s w =>
        let s := if 0 < w then setFlag s (f + w - 1) 5 true else s
        if w < n then setFlag s (f + w) 5 true else s) s
      logEv s p 6 (sumN (open_.map (2 ^ ·)))
  forEach faults (fun s i =>
    let s := setChain s (f + i) 3 true
    logEv s p 7 (2 + 256 * i)) s

/-- The test's result is evaluated in slot 4 of t + 3 (R126 to R128). -/
def evaluateTest (s : State) (p : Nat) : State :=
  match (portOf s p).test with
  | none => s
  | some t =>
    if !t.sent || s.bat.num < t.start + 3 then s
    else if t.cut then dropTest s p
    else
      let n := portCells s p
      let masks := t.answer == some (phaseWires n 0, phaseWires n 1)
      if t.missed || t.base.isEmpty || t.even.isEmpty || t.odd.isEmpty || !masks then abandonTest s p
      else testFindings s p t

/-- A missed exchange in t, t + 1 or t + 2 spoils the running test (R127). -/
def testMiss (s : State) (p b : Nat) : State :=
  modPort s p (fun q => { q with test := q.test.map (fun t =>
    if t.sent && t.start ≤ b && b ≤ t.start + 2 then { t with missed := true } else t) })

/-- A port is chosen for a test: OPEN_WIRE goes into the next CMD (R125). -/
def startTest (s : State) (p category : Nat) : State :=
  modPort s p (fun q => { q with
    test := some { category := category }, testWanted := false, testAgain := none
    cmdQueue := { code := 4, arg := [] } :: q.cmdQueue })

/-- A port is eligible for a test out of turn (R125 item 2). -/
def outOfTurn (s : State) (p : Nat) : Bool :=
  let q := portOf s p
  q.testWanted || (cellsOfPort s p).any (fun c =>
    flagOf s c 5 || (vget s.tha.cells c).chain.getLsbD 2 || (vget s.tha.cells c).chain.getLsbD 3)

/-- The port whose rotation test is due: the next used port from the rotation's place (R125 item 3). -/
def rotationPort (s : State) : Option Nat :=
  let u := usedPorts s
  if u.isEmpty || courseOf s < s.owl.rotCourse + 100 / u.length then none
  else
    let order := u.filter (s.owl.rotation ≤ ·) ++ u.filter (· < s.owl.rotation)
    order.find? (inService s)

/-- The category a test of the port is recorded under, the first of R125's order it is eligible for; none for no test. A
test to be made again is eligible under its own. -/
def testCategory (s : State) (p : Nat) (rot : Option Nat) : Option Nat :=
  let again := (portOf s p).testAgain
  if (cellsOfPort s p).any (fun c => flagOf s c 7) || again == some 1 then some 1
  else if outOfTurn s p || again == some 2 then some 2
  else if rot == some p || again.isSome then some 3
  else none

/-- An OPEN_WIRE slot chooses ports and starts their tests (R125). -/
def openWireSlot (s : State) : State :=
  let rot := rotationPort s
  let s := forEach (List.range 32) (fun s p =>
    if inService s p && (portOf s p).test.isNone then
      match testCategory s p rot with
      | some k => startTest s p k
      | none => s
    else s) s
  match rot with
  | some p => { s with owl := { s.owl with rotation := p + 1, rotCourse := courseOf s } }
  | none => s

/-! ## The update (R119) -/

/-- The tones of the frames accepted for a port, in whatever state it is: of this batten, and one recovered late (R131). -/
def checkTones (s : State) (p : Nat) : State :=
  let q := portOf s p
  let s := match q.late with
    | some m => toneCheck s p m
    | none => s
  match q.exch, q.meas with
  | .accepted, some m => toneCheck s p m
  | _, _ => s

/-- The newest batten of the port's VLAST values. In a batten without an accepted exchange only the values of that one edge
are compared (R12, R123). -/
def lastValues (s : State) (p : Nat) : Option Nat :=
  ((cellsOfPort s p).filterMap (fun c => (vget s.tha.cells c).vlastAt)).max?

/-- The firmware part of slot 4 for one port: its checks, its test, its blanking count (R119, R236). On readings recovered late
the deviation check runs again and counts (R119), though they never enter VLAST, which R123 names (DESIGN CHOICE, log
entry 72). -/
def checkPort (s : State) (p : Nat) : State :=
  let s := checkTones s p
  if !thatchPort s p then s
  else
    let q := portOf s p
    let b := s.bat.num
    let s := match q.late with
      | some m =>
        let s := testReading (frameChecks s p (b - 1) m) p (b - 1) m
        deviationCheck s p ((List.range (portCells s p)).map (fun i =>
          if readingHeld s p (b - 1) m i then none else some (m.volts.getD i 0 : Int)))
      | none => if q.late.isNone && (frameOf q (b - 1)).isNone && 0 < b then testMiss s p (b - 1) else s
    let s := if q.exch = .accepted then match q.meas with
        | some m => testReading (frameChecks s p b m) p b m
        | none => s
      else s
    let s := deviationCheck s p ((List.range (portCells s p)).map (fun i =>
      let r := vget s.tha.cells (firstCell s p + i)
      let held := match (if q.exch = .accepted then q.meas else none) with
        | some m => readingHeld s p b m i
        | none => testHold q b || r.flags.getLsbD 5 || r.vlastAt != lastValues s p
      if held then none else some (r.vlast : Int)))
    blankingLimit (evaluateTest s p) p

/-- The string checks of slot 4: of this batten, and again of the last where a value of it was recovered (R119, R122). -/
def checkString (s : State) (k : Nat) : State :=
  let late := (strPorts s k).any (fun p => (portOf s p).late.isSome)
  let b := s.bat.num
  let s := if late then strCheck s k (b - 1) (vget s.vrg.lastV k) (s.vrg.lastVOk.getLsbD k) else s
  if (strPorts s k).all (fun p => (portOf s p).exch == .accepted) then strCheck s k b (vString s k) (strValid s k) else s

/-- A course ends for a port's and a string's findings (R118, R129, R130). A course in which no satellite check ran counts
as one in which every check passed (DEDUCED, log entry 64). -/
def thatchCourse (s : State) : State :=
  let s := forEach (usedPorts s) (fun s p =>
    let q := portOf s p
    let f := firstCell s p
    let s := forEach (List.range (portCells s p)) (fun s i =>
      let c := f + i
      let s := if q.satCourseOk then setChain s c 0 false else s
      let s := if q.confirmed.getLsbD i && !q.sigCourse.getLsbD i then
          modPort (setFlag (setFlag s c 3 false) c 4 false) p (fun q => { q with confirmed := setBit q.confirmed i false })
        else s
      modCell s c (fun r => { r with flags := setBit r.flags 11 r.bledThisCourse, bledThisCourse := false })) s
    modPort s p (fun q => { q with sigCourse := 0, satCourseOk := true, owCourses := satAdd 8 q.owCourses 1 })) s
  forEach (strs s) (fun s k =>
    let t := vget s.tha.strChk k
    let s := if t.courseOk then forEach (cellsOfStr s k) (fun s c => setChain s c 1 false) s else s
    { s with tha := { s.tha with strChk := vmod s.tha.strChk k (fun t => { t with courseOk := true }) } }) s

/-- A batten in which the cores check nothing: its course clears no flag of the checks (R129, R130, R236). -/
def uncheckedBatten (s : State) : State :=
  let s := forEach (usedPorts s) (fun s p => modPort s p (fun q => { q with satCourseOk := false, sigCourse := q.sigCourse ||| q.confirmed })) s
  { s with tha := { s.tha with strChk := s.tha.strChk.map (fun t => { t with courseOk := false }) } }

/-- Slot 4 but its snapshot freeze (R119, R236): the hardware part always, the checks while the cores run. A test whose
evaluation falls in a core-pair reset is dropped (R127). -/
def thatchUpdate (s : State) : State :=
  let s := forEach (usedPorts s) updatePort s
  let s :=
    if coresRun s then forEach (strs s) checkString (forEach (usedPorts s) checkPort s)
    else uncheckedBatten (forEach (usedPorts s) (fun s p =>
      match (portOf s p).test with
      | some t => if t.sent && t.start + 3 ≤ s.bat.num then dropTest s p else s
      | none => s) s)
  forEach (usedPorts s) (fun s p => modPort s p (fun q => { q with late := none })) s

end Sys2Proof.Machine
end

