-- ==== Sys2Proof/Machine/Balance.lean ====
section
/-! DEFINITION. Balancing (R135 to R142): budgets and targets, the balance commands of an edge, the BXS-12 duty and
the bleed the module accounts for. -/

namespace Sys2Proof.Machine

/-- Balancing of a port is permitted (R135). -/
def balanceAllowed (s : State) (p : Nat) : Bool :=
  let k := (portRec s p).string
  inService s p && (strState s k == .opened || strState s k == .closed || strState s k == .standstill)
    && !s.tha.balHold.getLsbD k && !(portOf s p).balSuspended

/-- The open-wire test pauses balancing and impedance on the port from t to t + 2 (R127). -/
def testPause (q : Port) (b : Nat) : Bool :=
  match q.test with
  | some t => t.sent && t.start ≤ b && b ≤ t.start + 2
  | none => false

/-- Local cell `i` still bleeds toward its end: budget left, not reported done, VLAST above its target (R136, R141). -/
def wantsBleed (s : State) (p i : Nat) : Bool :=
  let q := portOf s p
  i < portCells s p && 0 < vget q.budget i && !q.done.getLsbD i
    && (vget q.target i == 0 || vget q.target i < (vget s.tha.cells (firstCell s p + i)).vlast)

/-- The parity rule of odd/even alternation (R138): the local index has the parity of the batten. -/
def parityOk (s : State) (p i : Nat) : Bool := (portRec s p).balAdj == 1 || i % 2 == s.bat.num % 2

/-! ## BXS-12 duty (R141, R142) -/

/-- Entry, leave temperature [0.1 °C], ON_TIME and cells of a level (R142). -/
def dutyLevel : Nat → Int × Int × Nat × Nat × Nat
  | 0 => (0, 0, 780, 6, 12)
  | 1 => (850, 800, 520, 6, 8)
  | 2 => (950, 900, 260, 3, 4)
  | _ => (1050, 1000, 0, 0, 0)

/-- The level after a die temperature (R142). -/
def nextLevel (old : Nat) (t : Int) : Nat :=
  let entered := if 1050 ≤ t then 3 else if 950 ≤ t then 2 else if 850 ≤ t then 1 else 0
  let kept := if old = 3 ∧ t < 1000 then (if t < 900 then (if t < 800 then 0 else 1) else 2)
    else if old = 2 ∧ t < 900 then (if t < 800 then 0 else 1)
    else if old = 1 ∧ t < 800 then 0
    else old
  max entered kept

/-- The level the last die temperature has brought a port to (R142). -/
def dieLevel (q : Port) : Nat :=
  match q.last with
  | some (m, _) => nextLevel q.bleedLevel m.dieTemp
  | none => q.bleedLevel

/-- The bleed level that applies to a port (R142): level 3 when its last die temperature is older than 10 battens. -/
def bleedLevelOf (s : State) (q : Port) : Nat :=
  match q.last with
  | some (_, b) => if b + 10 < s.bat.num then 3 else dieLevel q
  | none => 3

/-- The cells chosen by the largest remaining budget, the lower index winning a tie (R142). -/
def pickCells (q : Port) : Nat → List Nat → List Nat
  | 0, _ => []
  | _, [] => []
  | n + 1, c :: l =>
    let best := l.foldl (fun b i => if vget q.budget b < vget q.budget i then i else b) c
    best :: pickCells q n ((c :: l).filter (· != best))

/-- BLEED_DUTY's mask and ON_TIME for this batten (R141, R142). -/
def dutyOf (s : State) (p : Nat) : BitVec 16 × Nat :=
  let q := portOf s p
  let (_, _, on, c0, c1) := dutyLevel (bleedLevelOf s q)
  let want := (List.range (min 12 (portCells s p))).filter (fun i => wantsBleed s p i && parityOk s p i)
  let cells := pickCells q (if (portRec s p).balAdj = 1 then c1 else c0) want
  let mask := maskOf 16 (fun i => cells.contains i)
  (mask, if cells.isEmpty then 0 else on)

/-! ## Bleed accounted (R136, R140, R148) -/

/-- A cell bled for a time [µs]: charge, course time, and the budget where the module counts it (R141). -/
def bled (s : State) (p i us : Nat) (count : Bool) : State :=
  let q := portOf s p
  let s := modCell s (firstCell s p + i) (fun r => { r with
    bleedCharge := r.bleedCharge + (vget q.ib i * us : Nat), courseOn := r.courseOn + us
    bledThisCourse := r.bledThisCourse || 0 < us })
  if count then modPort s p (fun q => { q with budget := vmod q.budget i (fun b => b - us) }) else s

/-- A course ends: IBLEED is the course's bleed time at the last reported current [0.1 mA] (R117, R140). -/
def bleedCourse (s : State) (p : Nat) : State :=
  let q := portOf s p
  forEach (List.range (portCells s p)) (fun s i => modCell s (firstCell s p + i) (fun r => { r with
    iBleed := satTo 16 (rndEven (mkRat (vget q.ib i * r.courseOn) 1000)).toNat, courseOn := 0 })) s

/-! ## Commands (R135, R138, R141) -/

/-- The balance code of a batten: SLEEP_BALANCE for a native port, BLEED_DUTY for a BXS-12, NOP otherwise. -/
def balanceCmd (s : State) (p : Nat) : Cmd :=
  let q := portOf s p
  if !balanceAllowed s p || q.pulsed || testPause q s.bat.num
      || !(List.range (portCells s p)).any (fun i => 0 < vget q.budget i) then {}
  else if (portRec s p).kind = 2 then
    let (mask, on) := dutyOf s p
    { code := 1, arg := [mask.toNat % 256, mask.toNat / 256, on % 256, on / 256, 0, 0, 0, 0] }
  else { code := 5, arg := [] }

/-- The cells whose reading has fallen to their TARGET are done until new targets (R136, R141). -/
def endBleeds (s : State) (p : Nat) : State :=
  let f := firstCell s p
  modPort s p (fun q => { q with done := q.done ||| maskOf 16 (fun i =>
    i < portCells s p && vget q.target i != 0 && (vget s.tha.cells (f + i)).vlast ≤ vget q.target i) })

/-- The edge's balance work of a port: BLEED_OFF when balancing stops being permitted, the CMD, the bleed it brings. -/
def balanceEdge (s : State) (p : Nat) : State :=
  let s := endBleeds s p
  let q := portOf s p
  let s := if q.balancing && !balanceAllowed s p then queueCmd (modPort s p (fun q => { q with balancing := false })) p 7 [] else s
  let cmd := balanceCmd s p
  let (mask, on) := dutyOf s p
  let s := if (portRec s p).kind = 2 then modPort s p (fun q => { q with bleedLevel := dieLevel q }) else s
  let s := sendCmd s p cmd
  let sent := (portOf s p).cmd.code
  if !portActive s p || !coresRun s then s
  else if sent = 1 then
    let s := modPort s p (fun q => { q with balancing := true, duty := mask, onTime := on })
    forEach (maskBits mask) (fun s i => bled s p i on true) s
  else if sent = 5 then
    let s := modPort s p (fun q => { q with balancing := true })
    forEach ((List.range (portCells s p)).filter (fun i => wantsBleed s p i && parityOk s p i))
      (fun s i => bled s p i Config.nativeOnTime.toNat false) s
  else modPort s p (fun q => { q with duty := 0, onTime := 0 })

/-! ## Budgets and targets (R136) -/

/-- A cell of the set in force; a cell without state where none is. -/
def estCell (s : State) (c : Nat) : EstCell :=
  match s.est.force with
  | some f => vget f.cells c
  | none => {}

/-- The cell takes part in the balance reference: in service, initialised, learned, believed (R136). -/
def balanceCell (s : State) (c : Nat) : Bool :=
  inService s (cellPort s c) && (estCell s c).init && !s.est.unlearned.getLsbD c && !cellBad s c

/-- BUDGET [s] and TARGET [100 µV] of a cell against its string's reference (R136). -/
def budgetOf (s : State) (c : Nat) (ref : Rat) (isOpen : Bool) (ib : Nat) : Nat × Nat :=
  let e := estCell s c
  let d := e.soc - ref
  if balanceCell s c && 1 / 100 < d then
    let sec : Nat := if ib = 0 then 60 else
      (ceilR ((d - 1 / 500) * (vget s.led.cells c).q * 3600000 / (ib : Rat))).toNat
    let tgt : Nat := if isOpen then (ceilR (ocv (ocvOf s (cellChem s c)) (ref + 1 / 500) e.tc * 10000)).toNat else 0
    (min 65535 sec, tgt)
  else (0, 0)

/-- The reference SOC of a string (R136); none where no cell takes part. -/
def socRef (s : State) (k : Nat) : Option Rat :=
  ((cellsOfStr s k).filter (balanceCell s)).foldl (fun m c =>
    let x := (estCell s c).soc
    match m with
    | none => some x
    | some y => some (minR x y)) none

/-- A port's cells get new budgets and targets; without a reference of their string every cell gets BUDGET 0 (R136). -/
def balancePort (s : State) (ref : Option Rat) (p : Nat) : State :=
  let isOpen := strState s (portRec s p).string == .opened
  let bt := (List.range 16).map (fun i =>
    match ref with
    | some r => if i < portCells s p then budgetOf s (firstCell s p + i) r isOpen (vget (portOf s p).ib i) else (0, 0)
    | none => (0, 0))
  modPort s p (fun q => { q with
    budget := Vector.ofFn (fun i => (bt.getD i (0, 0)).1 * 1000000)
    target := Vector.ofFn (fun i => (bt.getD i (0, 0)).2), done := 0 })

/-- A native port's targets are written in the bulk windows that follow, in place of older ones that wait (R137). -/
def sendTargets (s : State) (p : Nat) : State :=
  if (portRec s p).kind = 1 then
    modPort s p (fun q => { q with
      bulk := q.bulk.filter (fun b => match b with | .write (1 :: _) => false | _ => true)
        ++ (targetWrites s p).map .write })
  else s

/-- New budgets and targets for every cell of a string (R136). -/
def balanceString (s : State) (k : Nat) : State :=
  let ref := socRef s k
  forEach (strPorts s k) (fun s p => balancePort s ref p) s

/-- The balance computation for every string, and its targets written to every native port that is polled (R136, R137). -/
def balanceCompute (s : State) : State :=
  let s := forEach (strs s) balanceString s
  forEach (usedPorts s) (fun s p => if portActive s p then sendTargets s p else s) s

/-- A balance-progress answer (R140): bleeding ended, last bleed currents. The end of a BXS-12's bleeding is the module's
own record (R141). A current reported as 0 counts as none reported (DEDUCED, log entry 64). -/
def takeProgress (s : State) (p : Nat) (pl : List Byte) : State :=
  let n := kindCells (portRec s p).kind
  let done := if (portRec s p).kind = 2 then (portOf s p).done else BitVec.ofNat 16 (fieldLe pl 0 2)
  modPort s p (fun q => { q with
    progressDue := false
    done := done
    ib := Vector.ofFn (fun i => if i.val < n then fieldLe pl (2 + 2 * i.val) 2 else 0)
    budget := Vector.ofFn (fun i => if done.getLsbD i.val then 0 else vget q.budget i.val) })

end Sys2Proof.Machine
end

