-- ==== Sys2Proof/Machine/Impedance.lean ====
section
/-! DEFINITION. Impedance and core temperature (R133, R134, R167 to R179): sample correction, wire estimates, the
demodulation windows, their outcomes, the bleed windows and TCORE. -/

namespace Sys2Proof.Machine

/-- The IMPEDANCE section; one that uses no frequency where the image has none. -/
def impRec (s : State) : ImpedanceRec := s.cfg.impedance.getD {}
/-- FREQ of an index [0.1 Hz]; 0 for an unused one. -/
def impFreq (s : State) (j : Nat) : Nat := (impRec s).freq.getD j 0
/-- The window length of an index [battens] (R172); bleed windows are 10 000 long (R175). -/
def winLen (s : State) (j : Nat) (bleed : Bool) : Nat :=
  if bleed then 10000 else 1000 * (10 / Nat.gcd (impFreq s j) 10)
/-- A string runs bleed windows in batten `b` (R175). -/
def bleedOn (s : State) (k b : Nat) : Bool :=
  match vget s.est.bleedAt k with
  | some x => x ≤ b
  | none => false
/-- An impedance record of a cell changed. -/
def modImp (s : State) (c : Nat) (f : ImpCell → ImpCell) : State :=
  { s with est := { s.est with imp := vmod s.est.imp c f } }

/-! ## Correction of samples (R133) -/

/-- Cell `k`'s bleed current at an instant [mA], from its mask bit. -/
def bleedAtInstant (s : State) (p mask k : Nat) : Nat :=
  if k < portCells s p && mask / 2 ^ k % 2 == 1 then vget (portOf s p).ib k else 0

/-- RWIRE of a wire [0.1 mΩ]. -/
def rwire (s : State) (p w : Nat) : Option Nat := (vget (portOf s p).wires w).r

/-- A term current × wire [0.1 µV]; none where the wire has no estimate and a current flows. -/
def wireTerm (i : Nat) (r : Option Nat) : Option Nat := if i = 0 then some 0 else r.map (i * ·)

/-- A sample [100 µV] corrected [V]; none where it stays UNCORRECTED (R133). -/
def corrected (s : State) (p mask j sample : Nat) : Option Rat :=
  let own := bleedAtInstant s p mask j
  let lo := if j = 0 then 0 else bleedAtInstant s p mask (j - 1)
  let hi := bleedAtInstant s p mask (j + 1)
  match wireTerm own (rwire s p j), wireTerm own (rwire s p (j + 1)), wireTerm lo (rwire s p j),
      wireTerm hi (rwire s p (j + 1)) with
  | some a, some b, some c, some d =>
    some (mkRat sample 10000 - mkRat ((c + d : Nat) - (a + b : Nat) : Int) 10000000)
  | _, _, _, _ => none

/-- A sample is adjacent: cell and a neighbour bleed at its instant (R133). -/
def adjacent (s : State) (p mask j : Nat) : Bool :=
  let on := fun i => i < portCells s p && mask / 2 ^ i % 2 == 1
  on j && (on (j + 1) || (0 < j && on (j - 1)))

/-! ## Wire estimates (R134) -/

/-- One bleeding cell's neighbour adds to the shared wire's sums. -/
def wireSample (s : State) (p mask : Nat) (v0 v1 : List Nat) (dI : Rat) (k i w : Nat) : State :=
  let n := portCells s p
  let ib := vget (portOf s p).ib k
  if n ≤ i || mask / 2 ^ i % 2 == 1 || ib < 20 then s
  else
    let dv : Rat := mkRat ((v1.getD i 0 : Int) - (v0.getD i 0 : Int)) 10000
    let y := dv - (vget s.led.active (firstCell s p + i)).rser * dI
    let a : Rat := mkRat ib 1000
    modPort s p (fun q => { q with wires := vmod q.wires w (fun r => { r with a := r.a + a * y, b := r.b + a * a, n := r.n + 1 }) })

/-- A burst's change from the main sample to the 250 µs sample joins the wire estimates. -/
def wireBurst (s : State) (p mask : Nat) (v0 v1 : List Nat) (dI : Rat) : State :=
  forEach ((List.range (portCells s p)).filter (fun k => mask / 2 ^ k % 2 == 1)) (fun s k =>
    let s := if 0 < k then wireSample s p mask v0 v1 dI k (k - 1) k else s
    wireSample s p mask v0 v1 dI k (k + 1) (k + 1)) s

/-- Every 100 courses a wire with 1 000 contributions gets its RWIRE [0.1 mΩ]. -/
def wireUpdate (s : State) : State :=
  forEach (usedPorts s) (fun s p => modPort s p (fun q => { q with wires := q.wires.map (fun w =>
    if w.n < 1000 then w
    else { r := some (clampR 0 65534 (rndEven (w.a / w.b * 10000) : Rat)).floor.toNat, a := 0, b := 0, n := 0 }) })) s

/-! ## Windows (R172, R173) -/

/-- The unit vector e^(−jωt) of a FREQ [0.1 Hz] at a time [ms]. -/
def unitAt (freq : Nat) (ms : Rat) : Rat × Rat :=
  let (c, d) := cisTurn ((freq : Rat) * ms / 10000)
  (c, -d)

/-- The switch pulse of instant `k` of a batten conducts (R176): sin(2πf (t + 130 µs)) ≥ 0. -/
def pulseOn (freq b0 b k : Nat) : Bool :=
  let u : Rat := (freq : Rat) * (((b - b0 : Nat) : Rat) + (k : Rat) / 4 + 13 / 100) / 10000
  decide (u - (u.floor : Rat) ≤ 1 / 2)

/-- The MASK bit that the pattern gives a pulsed cell at instant `k`: the pulse of the instant before (R169, R176;
DEDUCED, log entry 13). -/
def maskExpected (freq b0 b k : Nat) : Bool := 0 < k && pulseOn freq b0 b (k - 1)

/-- The integral of e^(−jωt) over an interval [ms]. -/
def unitIntegral (freq : Nat) (a b : Rat) : Rat × Rat :=
  let x := unitAt freq a
  let y := unitAt freq b
  let w := 2 * ofFx piFx * (freq : Rat) / 10000
  ((x.2 - y.2) / w, (y.1 - x.1) / w)

/-- One batten of the commanded pattern joins a bleed window's sums. -/
def addPattern (freq b : Nat) (a : ImpAcc) : ImpAcc :=
  let t : Rat := ((b - a.first : Nat) : Rat)
  let base := unitIntegral freq t (t + 1)
  let a := { a with br := a.br + base.1, bi := a.bi + base.2 }
  (List.range 3).foldl (fun (a : ImpAcc) k =>
    if pulseOn freq a.first b k then
      let lo := t + (k : Rat) / 4 + 5 / 1000
      let x := unitIntegral freq lo (lo + 1 / 4)
      { a with pOn := a.pOn + 1 / 4, pr := a.pr + x.1, pi := a.pi + x.2 }
    else a) a

/-- One sample joins a window's sums (R172). -/
def addSample (freq b k : Nat) (v i : Rat) (a : ImpAcc) : ImpAcc :=
  let (c, d) := unitAt freq (((b - a.first : Nat) : Rat) + (k : Rat) / 4)
  { a with
    n := a.n + 1, sv := a.sv + v, si := a.si + i, er := a.er + c, ei := a.ei + d
    vr := a.vr + v * c, vi := a.vi + v * d, ir := a.ir + i * c, ii := a.ii + i * d }

/-- A cell's batten joins one running window, or is missing for it (R170, R174, R176). -/
def addBatten (s : State) (p l b : Nat) (masks : List Nat) (vs : List (Option Rat)) (j : Nat) (a : ImpAcc) : ImpAcc :=
  let f := impFreq s j
  let k := (portRec s p).string
  let bit := fun m => (masks.getD m 0) / 2 ^ l % 2 == 1
  let wrong := a.bleed && (List.range 4).any (fun m => bit m != (a.pulsed && maskExpected f a.first b m))
  if wrong || vs.any (·.isNone) then { a with missing := a.missing + 1 }
  else
    let amps := vget s.vrg.lastAmps k
    let a := (List.range 4).foldl (fun (a : ImpAcc) m =>
      let own : Rat := if !a.bleed && bit m then mkRat ((vget (portOf s p).ib l : Nat) : Int) 1000 else 0
      addSample f b m ((vs.getD m none).getD 0) (vget amps m + own) a) a
    if a.bleed then addPattern f b a else a

/-- A BULK burst answer's batten, masks and samples (R169). -/
def burstOf (kind : Nat) (pl : List Byte) : Nat × List Nat × List (List Nat) :=
  let c := kindCells kind
  (fieldLe pl 0 2, (List.range 4).map (fun k => fieldLe pl (2 + 2 * k) 2),
    (List.range 4).map (fun k => (List.range c).map (fun i => fieldLe pl (10 + 2 * (k * c + i)) 2)))

/-- A burst arrives in batten t + 1 for batten t: checked, corrected, added to the sums (R169 to R173). -/
def takeBurst (s : State) (p t : Nat) (pl : List Byte) : State :=
  let (bt, masks, vs) := burstOf (portRec s p).kind pl
  match frameOf (portOf s p) t with
  | none => s
  | some m =>
    if bt != t % 65536 || vs.getD 0 [] != m.volts || !thatchPort s p || (portOf s p).burstDone then s
    else
      let k := (portRec s p).string
      let valid := s.vrg.valid.getLsbD k
      let amps := vget s.vrg.lastAmps k
      let s := modPort s p (fun q => { q with burstDone := true })
      let s := forEach (List.range (portCells s p)) (fun s l =>
        let c := firstCell s p + l
        let cor := (List.range 4).map (fun i => corrected s p (masks.getD i 0) l ((vs.getD i []).getD l 0))
        let adj := (List.range 4).any (fun i => adjacent s p (masks.getD i 0) l)
        let use := if valid && !readingHeld s p t m l then cor else [none]
        let s := setFlag (setFlag s c 12 adj) c 13 (cor.any (·.isNone))
        modImp s c (fun r => { r with acc := Vector.ofFn (fun j =>
          (vget r.acc j.val).map (addBatten s p l t masks use j.val)) })) s
      if valid then wireBurst s p (masks.getD 1 0) (vs.getD 0 []) (vs.getD 1 []) (vget amps 1 - vget amps 0) else s

/-- The kind of window a cell runs at an index in batten `b`: none, ripple (false) or bleed (true) (R175). -/
def windowKind (s : State) (c j b : Nat) : Option Bool :=
  let p := cellPort s c
  if impFreq s j = 0 then none
  else if j = (impRec s).tempFreq && bleedOn s (portRec s p).string b then
    if (portOf s p).pulsed then some true else none
  else if (impRec s).source = 1 then none
  else some false

/-- A window of a cell that ends: it waits for an IMPEDANCE run; one still waiting is discarded and counted (R173). -/
def endWindow (s : State) (c j : Nat) (a : ImpAcc) : State :=
  let s := if (vget (vget s.est.imp c).waiting j).isSome then
      { s with est := { s.est with zAbandon := satAdd 16 s.est.zAbandon 1 } } else s
  modImp s c (fun r => { r with acc := vset r.acc j none, waiting := vset r.waiting j (some a) })

/-- A batten `o` ends: batten o − 1 without a burst is missing, finished windows wait, new ones open with batten o. -/
def impBattenEnd (s : State) : State :=
  if s.cfg.impedance.isNone then s
  else
    let o := s.bat.num
    let s := forEach (usedPorts s) (fun s p =>
      let k := (portRec s p).string
      let mean := sumR (vget s.vrg.lastAmps k).toList / 4
      let ok := s.vrg.valid.getLsbD k
      let done := (portOf s p).burstDone
      let s := forEach (cellsOfPort s p) (fun s c => forEach (List.range 3) (fun s j =>
        let step := fun (a : ImpAcc) =>
          let a := if done || o = a.first then a else { a with missing := a.missing + 1 }
          if ok && a.first < o then
            { a with iMin := some (minR mean (a.iMin.getD mean)), iMax := some (maxR mean (a.iMax.getD mean)) }
          else a
        let s := match vget (vget s.est.imp c).acc j with
          | some a =>
            let a := step a
            if a.first + winLen s j a.bleed ≤ o then endWindow s c j a
            else modImp s c (fun r => { r with acc := vset r.acc j (some a) })
          | none => s
        match windowKind s c j o with
        | some bl =>
          if o % winLen s j bl = 0 && (vget (vget s.est.imp c).acc j).isNone then
            let pm := bl && (pulseMask s p o).getLsbD (c - firstCell s p)
            modImp s c (fun r => { r with acc := vset r.acc j (some { first := o, bleed := bl, pulsed := pm }) })
          else s
        | none => s) s) s
      modPort s p (fun q => { q with burstDone := false })) s
    s

/-- A Dormant interval of `slept` battens up to the one that stands lies in the running windows: those of its battens
that a window holds are missing for it (R174), the last of them when the batten that stands ends. A string's bleed
windows whose turn passed in it go on at the next boundary of their grid (R175). -/
def impAsleep (s : State) (slept : Nat) : State :=
  let n := s.bat.num
  let from_ := n - slept
  let s := { s with est := { s.est with bleedAt := s.est.bleedAt.map (fun o => o.map (fun x =>
    if (decide (x ≤ from_) && decide (n < x + 10000)) || decide (n < x) then x else (n / 10000 + 1) * 10000)) } }
  forEach (List.range (nCells s)) (fun s c => forEach (List.range 3) (fun s j =>
    match vget (vget s.est.imp c).acc j with
    | some a =>
      let a := { a with missing := a.missing + (min (n - 1) (a.first + winLen s j a.bleed) - max from_ a.first) }
      if a.first + winLen s j a.bleed < n then endWindow s c j a
      else modImp s c (fun r => { r with acc := vset r.acc j (some a) })
    | none => s) s) s

/-! ## Outcomes (R174) -/

/-- The phasor of R172 from a count, a sum and the sums against the unit vector. -/
def phasor (n sx er ei xr xi : Rat) : Rat × Rat := (2 / n * (xr - sx / n * er), 2 / n * (xi - sx / n * ei))

/-- A window decided: its code and, for a RESULT, Z [Ω]. -/
def windowOutcome (s : State) (c j : Nat) (a : ImpAcc) : Nat × Rat × Rat :=
  let p := cellPort s c
  let ib : Nat := vget (portOf s p).ib (c - firstCell s p)
  let span := match a.iMin, a.iMax with
    | some x, some y => y - x
    | _, _ => 0
  let n : Rat := (a.n : Rat)
  let i0 := phasor n a.si a.er a.ei a.ir a.ii
  let v := phasor n a.sv a.er a.ei a.vr a.vi
  let exc := phasor (n / 4) a.pOn a.br a.bi a.pr a.pi
  let i : Rat × Rat := if a.bleed then (i0.1 + mkRat ib 1000 * exc.1, i0.2 + mkRat ib 1000 * exc.2) else i0
  let m := sq i.1 + sq i.2
  if winLen s j a.bleed < 100 * a.missing then (1, 0, 0)
  else if mkRat s.cfg.plant.cellAh 10000 < span then (2, 0, 0)
  else if a.bleed && decide (4 ≤ sq i0.1 + sq i0.2) then (3, 0, 0)
  else if (if a.bleed then !a.pulsed || decide (ib < 20) else decide (m < 4)) then (4, 0, 0)
  else if m = 0 then (0, Config.freeReal s.fresh, Config.freeReal (s.fresh + 1))
  else (0, r32 (-(v.1 * i.1 + v.2 * i.2) / m), r32 (-(v.2 * i.1 - v.1 * i.2) / m))

/-- TCORE of a phase [0.001°] [0.1 °C]; none outside the map (R177). -/
def mapTemp (pts : List (Int × Int)) (th : Rat) : Option Int :=
  (List.range 15).findSome? (fun i =>
    let a := pts.getD i (0, 0)
    let b := pts.getD (i + 1) (0, 0)
    let x : Rat := a.1
    let y : Rat := b.1
    if x ≤ th && th ≤ y && x < y then some (rndEven ((a.2 : Rat) + (th - x) / (y - x) * ((b.2 - a.2 : Int) : Rat))) else none)

/-- A cell's thermistor reading no older than 100 battens. -/
def freshTemp (s : State) (c : Nat) : Option Int :=
  let r := vget s.tha.cells c
  if s.bat.num ≤ r.tmeasAt + 100 then r.tmeas else none

/-- The reference of R179 and whether it is the cell's own: its own reading, else the nearest fresh one of the
satellite, the lower index winning a tie. -/
def tempReference (s : State) (c : Nat) : Option (Int × Bool) :=
  match freshTemp s c with
  | some t => some (t, true)
  | none =>
    let f := firstCell s (cellPort s c)
    let n := portCells s (cellPort s c)
    let l := c - f
    (List.range n).findSome? (fun d =>
      if d = 0 then none
      else
        let low := if d ≤ l then freshTemp s (c - d) else none
        match low with
        | some t => some (t, false)
        | none => if l + d < n then (freshTemp s (c + d)).map (fun t => (t, false)) else none)

/-- A new TCORE is compared with its reference (R179). -/
def compareTcore (s : State) (c : Nat) (t : Int) : State :=
  let mm := (impRec s).mismatch
  if mm = 0 then s
  else match tempReference s c with
  | none => modImp s c (fun r => { r with noRef := true })
  | some (ref, own) =>
    let bad := decide ((if own then mm else 2 * mm) < absI (t - ref))
    let old := vget s.est.imp c
    let s := modImp s c (fun r => { r with
      noRef := false, chkDiff := t - ref
      disRun := if bad then min 3 (r.disRun + 1) else 0, agreeRun := if bad then 0 else min 3 (r.agreeRun + 1)
      disagree := if bad then r.disagree || decide (3 ≤ r.disRun + 1)
        else r.disagree && !decide (3 ≤ r.agreeRun + 1) })
    let now := (vget s.est.imp c).disagree
    if now && !old.disagree then logEv s 91 1 (c + 65536 * twos 16 (t - ref))
    else if !now && old.disagree then logEv s 91 2 c else s

/-- A finished window of a cell and index is decided (R174, R177 to R179). -/
def decideWindow (s : State) (c j : Nat) : State :=
  match vget (vget s.est.imp c).waiting j with
  | none => s
  | some a =>
    let (code, re, im) := windowOutcome s c j a
    let at_ := a.first + winLen s j a.bleed
    let s := modImp s c (fun r => { r with
      waiting := vset r.waiting j none
      res := vmod r.res j (fun o =>
        if code = 0 then { code := 0, re := re, im := im, at_ := some at_, bleed := a.bleed } else { o with code := code }) })
    let s := { s with fresh := s.fresh + 2 }
    if code != 0 then { s with est := { s.est with zAbandon := satAdd 16 s.est.zAbandon 1 } }
    else if j != (impRec s).tempFreq then s
    else match mapTemp ((impRec s).map.getD (cellChem s c) []) (atan2Deg im re * 1000) with
    | none =>
      let s := modImp s c (fun r => { r with res := vmod r.res j (fun o => { o with code := 5 }) })
      { s with est := { s.est with mapRange := satAdd 16 s.est.mapRange 1 } }
    | some t =>
      let s := modCell s c (fun r => { r with tcore := some t, tcoreAt := at_ })
      compareTcore s c t

/-! ## Bleed windows (R175, R176) -/

/-- A string's bleed windows end: its pulsed ports go back to sampling alone. -/
def bleedStop (s : State) (k : Nat) : State :=
  let s := { s with est := { s.est with bleedAt := vset s.est.bleedAt k none } }
  forEach (strPorts s k) (fun s p =>
    let s := modPort s p (fun q => { q with pulseDue := false })
    if (portOf s p).pulsed then queueCmd (modPort s p (fun q => { q with pulsed := false })) p 2 [0] else s) s

/-- A port pulses in a bleed window that begins: native, its balancing permitted (R175). -/
def pulsePort (s : State) (p : Nat) : Bool := (portRec s p).kind == 1 && balanceAllowed s p

/-- A string's bleed window begins at the next edge: the impedance settings of its ports are written in this batten's bulk
window (R176). -/
def pulseSettings (s : State) (k : Nat) : State :=
  forEach (strPorts s k) (fun s p =>
    if pulsePort s p then
      modPort s p (fun q => { q with pulseDue := true, bulk := q.bulk ++ [.write (impWrite s p (s.bat.num + 1))] })
    else s) s

/-- What a string's decided windows of TEMP_FREQ mean for its bleed windows under SOURCE 0x02 (R175). -/
def bleedRule (s : State) (k : Nat) (ripple bleed : List Nat) : State :=
  let tf := (impRec s).tempFreq
  let code := fun (s : State) c => (vget (vget s.est.imp c).res tf).code
  if (impRec s).source != 2 then s
  else if bleed.any (fun c => code s c == 3) then
    let s := bleedStop s k
    forEach (cellsOfStr s k) (fun s c => modImp s c (fun r =>
      if ((vget r.acc tf).map (·.bleed)).getD false then { r with acc := vset r.acc tf none } else r)) s
  else if (vget s.est.bleedAt k).isNone && ripple == cellsOfStr s k && ripple.all (fun c => code s c == 4) then
    let b0 := (s.bat.num / 10000 + 1) * 10000
    let s := { s with est := { s.est with bleedAt := vset s.est.bleedAt k (some b0) } }
    if b0 = s.bat.num + 1 then pulseSettings s k else s
  else s

/-- An IMPEDANCE run decides every waiting window, in ascending cell and index (R173, R174). -/
def impRun (s : State) : State :=
  if s.cfg.impedance.isNone then s
  else
    let tf := (impRec s).tempFreq
    forEach (strs s) (fun s k =>
      let cs := cellsOfStr s k
      let has := fun (bl : Bool) c => ((vget (vget s.est.imp c).waiting tf).map (·.bleed)) == some bl
      let ripple := cs.filter (has false)
      let bleed := cs.filter (has true)
      let s := forEach cs (fun s c => forEach (List.range 3) (fun s j => decideWindow s c j) s) s
      bleedRule s k ripple bleed) s

/-- A command code put at the front of a port's commands. -/
def urgentCmd (s : State) (p code : Nat) (arg : List Nat) : State :=
  modPort s p (fun q => { q with cmdQueue := { code := code, arg := arg } :: q.cmdQueue })

/-- A port at the start of a bleed window of its string: one whose settings were written pulses while R135 still permits it and
no open-wire test pauses it (R127); one that pulsed before and does not now goes back to sampling (R175, R176). -/
def pulseStart (s : State) (p : Nat) : State :=
  let q := portOf s p
  let on := q.pulseDue && pulsePort s p && !testPause q s.bat.num && !q.cmdQueue.any (fun c => c.code == 4)
  let s := modPort s p (fun q => { q with pulseDue := false, pulsed := on })
  if on then urgentCmd s p 2 [1] else if q.pulsed then urgentCmd s p 2 [0] else s

/-- The bleed windows of a string at an edge: one begins, or its settings are written the batten before (R176). The permission
of R135 is tested where a window begins; a port whose permission ends within one pulses on to its end (DESIGN CHOICE, log
entry 72: R175 does not say). -/
def bleedEdge (s : State) (k : Nat) : State :=
  let b := s.bat.num
  match vget s.est.bleedAt k with
  | none => s
  | some b0 =>
    let s :=
      if b == b0 || b == b0 + 10000 then
        forEach (strPorts s k) pulseStart { s with est := { s.est with bleedAt := vset s.est.bleedAt k (some b) } }
      else s
    if b + 1 == b0 || b + 1 == b0 + 10000 then pulseSettings s k else s

/-- The pulses of a batten count as bleed charge of the pulsed cells (R176): where the satellite was commanded to pulse and no
open-wire test pauses it (R127). -/
def pulseCharge (s : State) (p : Nat) : State :=
  let q := portOf s p
  match vget s.est.bleedAt (portRec s p).string with
  | none => s
  | some b0 =>
    if q.pulsed && q.pulsing && !testPause q s.bat.num then
      let f := impFreq s (impRec s).tempFreq
      let us := 250 * ((List.range 3).filter (pulseOn f b0 s.bat.num)).length
      forEach (maskBits (pulseMask s p b0)) (fun s i => bled s p i us false) s
    else s

/-- TCORE_EXPIRY: 60 000 battens without a new TCORE clear it (R178). -/
def execTcoreExpiry (cell : Fin 512) (s : State) : Out :=
  let r := vget s.tha.cells cell
  if r.tcore.isSome && r.tcoreAt + 60000 ≤ s.bat.num then
    .next (modCell s cell (fun r => { r with tcore := none }))
  else .next s

end Sys2Proof.Machine
end

