-- ==== Sys2Proof/Machine/Bulk.lean ====
section
/-! DEFINITION. The bulk window's transactions (R91, R92, R99): what is asked for in a batten, and what the answers do. -/

namespace Sys2Proof.Machine

/-- The burst of the last batten is wanted: no open-wire test pauses the port, and the batten's accepted frame showed the
satellite armed, without which there is none to ask for (R127, R169; DESIGN CHOICE, log entry 72). -/
def wantsBurst (s : State) (p : Nat) : Bool :=
  let q := portOf s p
  let t := s.bat.num - 1
  s.cfg.impedance.isSome && thatchPort s p && 0 < s.bat.num && !testPause q t
    && (match frameOf q t with | some m => m.status.getLsbD 21 | none => false)

/-- The open-wire answer is read in the bulk window of t + 2 (R126). -/
def wantsOpenWire (q : Port) (b : Nat) : Bool :=
  match q.test with
  | some t => t.sent && b == t.start + 2
  | none => false

/-- The work that a batten's bulk window brings to a port: the burst, the open-wire answer, the balance progress once
per course, in its batten 0 (R92, R126, R140). A test whose answer falls due in a core-pair reset is cut (R127). -/
def fillBulk (s : State) (p : Nat) : State :=
  if !portActive s p then s
  else if !coresRun s then (if wantsOpenWire (portOf s p) s.bat.num then cutTest s p else s)
  else
    let q := portOf s p
    let keep := q.bulk.filter (fun b => match b with | .burst _ => false | _ => true)
    let add := (if wantsBurst s p then [BulkReq.burst (s.bat.num - 1)] else [])
      ++ (if wantsOpenWire q s.bat.num && !q.test.any (·.cut) then [BulkReq.openWire] else [])
      ++ (if ((q.balancing && phaseOf s == 0) || q.progressDue) && !keep.contains .progress then [BulkReq.progress] else [])
    sendBulk (modPort s p (fun q => { q with bulk := keep ++ add })) p

/-- BULK_WINDOW_START: where battens run (R23, R91). -/
def execBulkWindowStart (s : State) : Out :=
  if !battensRun s then .next s
  else
    let s := { s with owl := { s.owl with bulkOpen := true } }
    .next (forEach (List.range 32) fillBulk s)

/-- The targets last written, after an acknowledged WRITE of balance targets (R117, R137). -/
def writtenBy (v : Vector Nat 16) (o : List Nat) : Vector Nat 16 :=
  match o with
  | 1 :: f :: l => (List.range 8).foldl (fun v i => vset v (f + i) (l.getD (4 * i) 0 + 256 * l.getD (4 * i + 1) 0)) v
  | _ => v

/-- A WRITE's answer (R99, R104, R139): ACK ends it; a NAK of a Dormant entry's targets is kept; otherwise it waits
for another try. -/
def writeAnswer (s : State) (p : Nat) (o : List Nat) (f : LineFrame) : State :=
  let target := o.headD 0
  if isAck f target then
    settingsAcked (modPort s p (fun q => { q with inFlight := none, written := writtenBy q.written o })) p
  else if isNak f target && s.pwr.entering.isSome && target == 1 then
    modPort s p (fun q => { q with
      inFlight := none, sleepNak := true
      bulk := q.bulk.filter (fun b => match b with | .write (1 :: _) => false | _ => true) })
  else bulkFail s p

/-- An answer to the request in flight; a frame error counts (R94, R116). -/
def bulkAnswer (s : State) (p : Nat) (f : LineFrame) : State :=
  let kind := (portRec s p).kind
  let s := if (portOf s p).inFlight == some .repeatMeas || (portOf s p).inFlight.isNone || uplinkGood kind f then s
    else modPort s p (fun q => countError q .frameError)
  let done := fun (s : State) => modPort s p (fun q => { q with inFlight := none })
  match (portOf s p).inFlight with
  | none => s
  | some .repeatMeas => repeatAnswer s p f
  | some .ident =>
    match bulkPayload kind f 1 with
    | some pl => identCheck (done s) p (identOf pl)
    | none => bulkFail s p
  | some (.burst t) =>
    match bulkPayload kind f 2 with
    | some pl => takeBurst (done s) p t pl
    | none => bulkFail s p
  | some (.write o) => writeAnswer s p o f
  | some .openWire =>
    match bulkPayload kind f 3 with
    | some pl => modPort (done s) p (fun q => { q with
        test := q.test.map (fun t => { t with answer := some (fieldLe pl 0 3, fieldLe pl 3 3) }) })
    | none => bulkFail s p
  | some .progress =>
    match bulkPayload kind f 4 with
    | some pl => takeProgress (done s) p pl
    | none => bulkFail s p

/-- BULK_ANSWER_RECEIVED: the answer is taken, and the port's next request is sent. An answer that no request waits
for, or one whose request the gate still holds, is disregarded; in a core-pair reset no answer is collected (R236). -/
def execBulkAnswerReceived (p : Fin 32) (f : LineFrame) (s : State) : Out :=
  if !s.owl.bulkOpen || (portOf s p).bulkGate then .next s
  else if !coresRun s then .next (modPort s p (fun q => { q with inFlight := none }))
  else .next (sendBulk (bulkAnswer s p f) p)

/-- BULK_ANSWER_TIMEOUT: 6 µs without an answer is a failed transaction. -/
def execBulkAnswerTimeout (p : Fin 32) (s : State) : Out :=
  if !s.owl.bulkOpen || (portOf s p).bulkGate then .next s
  else if !coresRun s then .next (modPort s p (fun q => { q with inFlight := none }))
  else .next (sendBulk (bulkFail s p) p)

end Sys2Proof.Machine
end

