-- ==== Sys2Proof/Machine/Estimator.lean ====
section
/-! DEFINITION. Per-cell state estimation (R144 to R165), the evidence for Rser (R190), cell and string limits (R180
to R184), the snapshot and the hand-over (R13). -/

namespace Sys2Proof.Machine

/-! ## Parameters of a cell in engine units -/

/-- The parameters a run loads for a cell: SI units. -/
structure CellPar where
  q : Rat
  rser : Rat
  rf : Rat
  tf : Rat
  rs : Rat
  ts : Rat
  hmax : Rat
  hrate : Rat
  cth : Rat
  rth : Rat
deriving DecidableEq, Repr

/-- The parameters of a cell: learned Q and Rser, the others of its chemistry (R59, R144). -/
def cellPar (s : State) (c : Nat) : CellPar :=
  let m := cellModel s c
  let l := vget s.led.active c
  { q := l.q, rser := l.rser, rf := mkRat m.rfast 1000000, tf := mkRat m.tauFast 100, rs := mkRat m.rslow 1000000,
    ts := mkRat m.tauSlow 10, hmax := mkRat m.hystMax 10000, hrate := mkRat m.hystRate 1000,
    cth := (m.thermCap : Rat), rth := mkRat m.thermRes 100 }

/-- The states that R145 holds at 0, in the order SOC, v_f, v_s, h. -/
def heldStates (c : CellPar) : List Bool := [false, c.rf == 0, c.rs == 0, c.hmax == 0]

/-! ## Matrices of the filter -/

/-- A matrix as its rows. -/
abbrev Mat := List (List Rat)
/-- An element of a matrix. -/
def mat (m : Mat) (i j : Nat) : Rat := (m.getD i []).getD j 0
/-- The 4 × 4 matrix of a function, each element a single. -/
def mat4 (f : Nat → Nat → Rat) : Mat := (List.range 4).map (fun i => (List.range 4).map (fun j => r32 (f i j)))
/-- The matrix of an upper triangle by rows. -/
def ofUpper (p : List Rat) : Mat :=
  let at_ := fun i j => [0, 1, 2, 3, 1, 4, 5, 6, 2, 5, 7, 8, 3, 6, 8, 9].getD (4 * i + j) 0
  (List.range 4).map (fun i => (List.range 4).map (fun j => p.getD (at_ i j) 0))
/-- The upper triangle by rows. -/
def toUpper (m : Mat) : List Rat :=
  (List.range 4).flatMap (fun i => (List.range (4 - i)).map (fun d => mat m i (i + d)))
/-- The diagonal alone. -/
def diagOf (m : Mat) : Mat := mat4 (fun i j => if i = j then mat m i i else 0)

/-- One column of the Cholesky factor; none at a pivot that is not positive (R152). A state held at 0 has a column of
zeros. The columns found so far are `l`. -/
def cholColumn (held : List Bool) (p : Mat) (l : List (List Rat)) (j : Nat) : Option (List Rat) :=
  let dot := fun i k => sumR (l.map (fun c => c.getD i 0 * c.getD k 0))
  if held.getD j false then some [0, 0, 0, 0]
  else
    let d := mat p j j - dot j j
    if d ≤ 0 then none
    else
      let r := r32 (sqrtR d)
      some ((List.range 4).map (fun i => if i < j then 0 else if i = j then r else r32 ((mat p i j - dot i j) / r)))

/-- The columns of the lower Cholesky factor. -/
def chol (held : List Bool) (p : Mat) : Option (List (List Rat)) :=
  (List.range 4).foldl (fun (acc : Option (List (List Rat))) j =>
    acc.bind (fun l => (cholColumn held p l j).map (fun c => l ++ [c]))) (some [])

/-- The factor, or that of the diagonal where a pivot fails, and whether it was repaired. -/
def cholRepair (held : List Bool) (p : Mat) : List (List Rat) × Mat × Bool :=
  match chol held p with
  | some l => (l, p, false)
  | none => ((List.range 4).map (fun j => (List.range 4).map (fun i => if i = j then r32 (sqrtR (mat p j j)) else 0)), diagOf p, true)

/-- The nine sigma points about a mean (R150). -/
def sigmaPoints (x : List Rat) (l : List (List Rat)) : List (List Rat) :=
  let r5 := r32 (sqrtR 5)
  let shift := fun (k : Rat) (c : List Rat) => (List.range 4).map (fun i => r32 (x.getD i 0 + k * r5 * c.getD i 0))
  x :: (l.map (shift 1) ++ l.map (shift (-1)))

/-- The weight of a sigma point: 0.2 for the centre, 0.1 for the others. -/
def sigmaWeight (k : Nat) : Rat := if k = 0 then 1 / 5 else 1 / 10

/-- The weighted mean of values over the sigma points. -/
def sigmaMean (l : List Rat) : Rat := sumR ((List.range l.length).map (fun k => sigmaWeight k * l.getD k 0))

/-! ## The process model (R144, R151) -/

/-- The sign of a current. -/
def sgnR (i : Rat) : Rat := if i < 0 then -1 else if 0 < i then 1 else 0

/-- One step of the model over `dt` seconds at a current. -/
def propagate (c : CellPar) (i dt : Rat) (x : List Rat) : List Rat :=
  let af := r32 (expR (-(dt / c.tf)))
  let as_ := r32 (expR (-(dt / c.ts)))
  let eh := r32 (expR (-(c.hrate * absR i * dt * 100 / (3600 * c.q))))
  [r32 (x.getD 0 0 - i * dt / (3600 * c.q)),
   if c.rf = 0 then 0 else r32 (af * x.getD 1 0 + c.rf * (1 - af) * i),
   if c.rs = 0 then 0 else r32 (as_ * x.getD 2 0 + c.rs * (1 - as_) * i),
   if c.hmax = 0 then 0 else r32 (eh * x.getD 3 0 - (1 - eh) * c.hmax * sgnR i)]

/-- The diagonal of the process noise (R151): `inv` invalid battens, the stale term, the Dormant term. -/
def processNoise (c : CellPar) (iMax : Nat) (i dt : Rat) (inv : Nat) (stale : Bool) (slept : Option (Nat × Nat)) : List Rat :=
  let cap := 3600 * c.q
  let k := minR (dt * 100) 10
  let soc := sq (dt * (1 / 10 + absR i / 500) / cap) + mkRat 25 10000000000 * dt
    + (inv : Rat) * (sq ((iMax : Rat) / 1000 / cap) / 3)
    + (if stale then mkRat 12 10000000000 * dt else 0)
    + (match slept with | some (b, ib) => sq ((b : Rat) * (ib : Rat) / 1000 / cap) / 3 | none => 0)
  [r32 soc, if c.rf = 0 then 0 else r32 (mkRat 1 100000000 * k), if c.rs = 0 then 0 else r32 (mkRat 25 10000000000 * k),
   if c.hmax = 0 then 0 else r32 (mkRat 25 10000000000 * k)]

/-- The covariance held within the bounds of R152, symmetric. -/
def conditionP (held : List Bool) (p : Mat) : Mat :=
  mat4 (fun i j =>
    if i != j then (mat p i j + mat p j i) / 2
    else if i = 0 then clampR (mkRat 25 100000000) (mkRat 9 100) (mat p 0 0)
    else if held.getD i false then mat p i i else maxR (mkRat 1 10000000000) (mat p i i))

/-! ## Initial values (R159 to R161) -/

/-- The initial variances of v_f, v_s and h (R159); 0 for a held state. -/
def initialVar (c : CellPar) : List Rat :=
  [0, if c.rf = 0 then 0 else mkRat 1 1000000, if c.rs = 0 then 0 else mkRat 4 1000000, r32 (sq (c.hmax / 2))]

/-- The diagonal matrix of a list. -/
def diagList (l : List Rat) : Mat := mat4 (fun i j => if i = j then l.getD i 0 else 0)

/-- What identity results 2 and 3 do to a covariance (R161, R194). -/
def widenP (c : CellPar) (p : Mat) : Mat :=
  let v := initialVar c
  diagList [maxR (mat p 0 0) (mkRat 1 100), v.getD 1 0, v.getD 2 0, v.getD 3 0]

/-- SOC and its variance from the open-circuit voltage (R159). -/
def socFromOcv (s : State) (c : Nat) (v t : Rat) : Rat × Rat :=
  let o := ocvOf s (cellChem s c)
  let soc := ocvInverse o v t
  let sg := sigmaOcv (cellModel s c) (ocvSlope o soc t)
  (soc, r32 (sq sg))

/-! ## The snapshot (R13, R148) -/

/-- A cell as the snapshot holds it. -/
def snapCell (s : State) (c : Nat) : SnapCell :=
  let r := vget s.tha.cells c
  let p := cellPort s c
  let force : Nat := match s.est.force with
    | some f => f.batten
    | none => 0
  { vavg := r.vavg, stale := r.flags.getLsbD 0 || cellBad s c, tmeas := r.tmeas, tmeasAge := s.bat.num - r.tmeasAt
    haveReading := !r.window.isEmpty, proving := (portOf s p).st == .proving, usable := thatchPort s p
    ov := r.flags.getLsbD 8, uv := r.flags.getLsbD 9, age := cellAge s c, bad := cellBad s c, tcore := r.tcore
    tcoreNew := decide (force < r.tcoreAt), disagree := (vget s.est.imp c).disagree, bleed := r.bleedCharge
    iBleed := r.iBleed, gaps := r.gaps }

/-- I_AVG of a string: the mean of its valid battens in the averaging window of VAVG, which ends with the running batten;
of that batten the edge's sample is the one that has arrived (R148, R149; DEDUCED, log entry 11). -/
def avgCurrent (s : State) (k : Nat) : Option Rat :=
  let old := ((vget s.vrg.means k).filter (fun e => s.bat.num < e.1 + s.cfg.plant.avgWindow)).map (·.2)
  let l := if strValid s k then iString s k :: old else old
  if l.isEmpty then none else some (r32 (sumR l / (l.length : Rat)))

/-- The snapshot frozen at the end of slot 4 of a batten 0. The pending learned values become the active ones (R189);
from a throttling on, the snapshot of an odd course is not run on, until an even course's run after it (R156). -/
def freezeSnapshot (s : State) : State :=
  let even := courseOf s % 2 == 0
  let skip := s.est.evenOnly || 2 ≤ s.pwr.level
  let s := { s with led := { s.led with active := s.led.cells }, est := { s.est with evenOnly := skip && !(even && s.pwr.level < 2) } }
  if skip && !even then s
  else
    { s with est := { s.est with snap := some {
        batten := s.bat.num
        cells := Vector.ofFn (fun i => if i.val < nCells s then snapCell s i else {})
        charge := s.vrg.charge, gaps := s.vrg.gaps, iAvg := Vector.ofFn (fun k => avgCurrent s k)
        allIn := maskOf 4 (fun k => hasStr s k && allInService s k), quiet := s.est.quiet } } }

/-! ## One cell's run (R150) -/

/-- The mean of the readings, no older than 100 battens, of some cells [°C]. -/
def meanTemp (sn : Snapshot) (cs : List Nat) : Option Rat :=
  let l := cs.filterMap (fun c =>
    let r := vget sn.cells c
    if r.tmeasAge ≤ 100 then r.tmeas else none)
  if l.isEmpty then none else some (r32 (mkRat (sumI l) (10 * l.length)))

/-- The boundary temperature of a cell (R147). -/
def boundaryTemp (s : State) (sn : Snapshot) (c : Nat) : Option Rat :=
  match meanTemp sn [c] with
  | some t => some t
  | none => match meanTemp sn (cellsOfPort s (cellPort s c)) with
    | some t => some t
    | none => meanTemp sn (cellsOfStr s (cellStr s c))

/-- The horizons of the limits [s]. -/
def horizons : List Nat := [2, 10, 60]

/-- One voltage-, charge- and temperature-limited current [A] of R180 to R182. -/
def limitOf (o : OcvRec) (m : ModelRec) (c : CellPar) (x : List Rat) (sg tc tb tHot : Rat) (discharge : Bool) (h : Nat) : Rat :=
  let cap := 3600 * c.q
  let hz : Rat := (h : Rat)
  let iMax : Rat := if discharge then (m.iDisMax : Rat) else (m.iChgMax : Rat)
  let socD := r32 (x.getD 0 0 - 3 * sg)
  let socC := r32 (x.getD 0 0 + 3 * sg)
  let dS := r32 (iMax * hz / cap)
  let af := r32 (expR (-(hz / c.tf)))
  let as_ := r32 (expR (-(hz / c.ts)))
  let e := r32 (expR (-(c.hrate * iMax * hz * 100 / cap)))
  let sl := if discharge then maxSlope o (socD - dS) socD tc else maxSlope o socC (socC + dS) tc
  let rH := r32 (c.rser + c.rf * (1 - af) + c.rs * (1 - as_) + sl * hz / cap)
  let pol := af * x.getD 1 0 + as_ * x.getD 2 0
  let num := if discharge then
      r32 (ocv o socD tc + e * x.getD 3 0 - (1 - e) * c.hmax - pol - mkRat m.vMin 10000)
    else r32 (mkRat m.vMax 10000 - ocv o socC tc - e * x.getD 3 0 - (1 - e) * c.hmax + pol)
  let iV := if num < 0 then 0 else r32 (num / rH)
  let iS := maxR 0 (r32 ((if discharge then socD else 1 - socC) * cap / hz))
  let g := r32 (1 - expR (-(hz / (c.cth * c.rth))))
  let p := r32 ((mkRat m.tMax 10 - tHot) / (c.rth * g) + (tHot - tb) / c.rth)
  let iT := if 0 < p then r32 (sqrtR (p / (c.rser + c.rf + c.rs))) else 0
  minR (minR iV iS) (minR iT iMax)

/-- The six limits of a cell [0.1 A], in the order CHG2, CHG10, CHG60, DIS2, DIS10, DIS60 (R182, R183). -/
def cellLimits (o : OcvRec) (m : ModelRec) (c : CellPar) (sc : SnapCell) (x : List Rat) (sg tc tb : Rat) : List Nat :=
  let temps := tc :: ((if sc.tmeasAge ≤ 100 then sc.tmeas.toList else []) ++ (if sc.disagree then [] else sc.tcore.toList)).map
    (fun (t : Int) => mkRat t 10)
  let tHot := temps.foldl maxR tc
  let tCold := temps.foldl minR tc
  let none_ := sc.bad || 100 < sc.age || decide (mkRat m.tMax 10 ≤ tHot) || decide (tCold < mkRat m.tMin 10)
  let dir := fun (discharge : Bool) =>
    if none_ || (discharge && sc.uv) || (!discharge && sc.ov) then [0, 0, 0]
    else
      let l := horizons.map (limitOf o m c x sg tc tb tHot discharge)
      let a := l.getD 0 0
      let b := minR a (l.getD 1 0)
      [a, b, minR b (l.getD 2 0)].map (fun i => (i * 10).floor.toNat)
  dir false ++ dir true

/-- What a cell's run says beside its new state: covariance repaired, DIVERGED set, DIVERGED cleared, a gated update,
a reference, the Rser evidence (−y·Δi, Δi²), reinitialised. -/
structure RunNote where
  repaired : Bool := false
  diverged : Bool := false
  cleared : Bool := false
  gated : Bool := false
  ref : Option Ref := none
  evidence : Option (Rat × Rat) := none
  reinit : Bool := false
  /-- Reinitialised at its string's rest, which serves EST_REINIT (R160). -/
  rested : Bool := false
  inited : Bool := false
deriving DecidableEq, Repr

/-- The state of a cell as a list. -/
def stateOf (e : EstCell) : List Rat := [e.soc, e.vf, e.vs, e.h]

/-- The flags of R165 in their order. -/
def estFlags (unlearned stale quiet noUpdate diverged clamped noTemp reinit : Bool) : BitVec 8 :=
  maskOf 8 (fun i => [unlearned, stale, quiet, noUpdate, diverged, clamped, noTemp, reinit].getD i false)

/-- The thermal step (R147), with the propagated polarisation voltages. -/
def thermalStep (c : CellPar) (i vf vs tc tb dt : Rat) : Rat :=
  let p := r32 (sq i * c.rser + i * (vf + vs))
  r32 (tb + p * c.rth + (tc - tb - p * c.rth) * r32 (expR (-(dt / (c.cth * c.rth)))))

/-- The initialising run of a cell (R159), or a cell still without state. -/
def initCell (s : State) (sn : Snapshot) (c : Nat) : EstCell × RunNote :=
  let sc := vget sn.cells c
  let k := cellStr s c
  let tb := boundaryTemp s sn c
  let old : EstCell := match s.est.force with
    | some f => vget f.cells c
    | none => {}
  if !(sc.haveReading && !sc.stale && sc.usable) then
    ({ old with
        tb := tb.getD old.tb, tc := tb.getD old.tb, lims := [0, 0, 0, 0, 0, 0], updated := false
        q := (cellPar s c).q, rser := (cellPar s c).rser
        flags := estFlags (s.est.unlearned.getLsbD c) (s.est.refStale.getLsbD c) (sn.quiet.getLsbD k) true false false tb.isNone false },
      {})
  else
    let par := cellPar s c
    let l := vget s.led.active c
    let t := tb.getD old.tb
    let (so, vo) := socFromOcv s c (mkRat sc.vavg 10000) t
    let (soc, var) := match (if l.status == .unlearned then none else l.socRec) with
      | some (x, sg, chg) =>
        let sl := r32 (x - mkRat (vget sn.charge k - chg) 1000000 / (3600 * l.q))
        let vl := r32 (sq sg + mkRat 4 10000)
        let v := r32 (1 / (1 / vo + 1 / vl))
        (r32 (v * (so / vo + sl / vl)), v)
      | none => (so, vo)
    let v := initialVar par
    let p := conditionP (heldStates par) (diagList [var, v.getD 1 0, v.getD 2 0, v.getD 3 0])
    let clamped := decide (soc < 0) || decide (1 < soc)
    let soc := clampR 0 1 soc
    let lims := cellLimits (ocvOf s (cellChem s c)) (cellModel s c) par sc [soc, 0, 0, 0] (r32 (sqrtR (mat p 0 0))) t t
    ({ old with
        init := true, soc := soc, vf := 0, vs := 0, h := 0, p := toUpper p, tc := t, tb := t, nis := 0, gated := 0, goodRun := 0
        q := par.q, rser := par.rser, updated := false, lims := lims
        flags := estFlags (s.est.unlearned.getLsbD c) (s.est.refStale.getLsbD c) (sn.quiet.getLsbD k) true false clamped tb.isNone true },
      { inited := true })

/-- The string of a cell has been at rest long enough (R160). -/
def atRest (s : State) (k : Nat) : Bool :=
  let m := (cellsOfStr s k).foldl (fun m c => max m ((cellModel s c).tauSlow)) 0
  s.est.quiet.getLsbD k && s.cfg.plant.quietTime * 1000 ≤ vget s.est.restMs k && 500 * m ≤ vget s.est.restMs k

/-- What a run knows before its update: prior mean and covariance, parameters, interval, currents, T_c of the state in
force and that of the thermal step (R147). -/
structure Prior where
  par : CellPar
  x : List Rat
  p : Mat
  dt : Rat
  i : Rat
  iMeas : Rat
  tc : Rat
  tcStep : Rat
  tb : Rat
  u : Rat
  repaired : Bool
deriving DecidableEq, Repr

/-- Prediction of a cell over the interval of a snapshot (R148, R150). -/
def predict (s : State) (sn : Snapshot) (f : EstSet) (c : Nat) : Prior :=
  let par := cellPar s c
  let sc := vget sn.cells c
  let k := cellStr s c
  let e := vget f.cells c
  let held := heldStates par
  let tcStep := if sc.tcoreNew && !sc.disagree then (sc.tcore.map (fun t => mkRat t 10)).getD e.tc else e.tc
  let dt : Rat := mkRat (sn.batten - f.batten : Nat) 1000
  let i := r32 ((mkRat (vget sn.charge k - vget f.charge k) 1000000 + mkRat (sc.bleed - vget f.bleed c) 1000000000) / dt)
  let im := r32 ((vget sn.iAvg k).getD 0 + mkRat sc.iBleed 10000)
  let p0 := ofUpper e.p
  let p0 := if s.est.widen.getLsbD c then conditionP held (widenP par p0) else p0
  let (l, _, rep) := cholRepair held p0
  let pts := (sigmaPoints (stateOf e) l).map (propagate par i dt)
  let x := (List.range 4).map (fun a => r32 (sigmaMean (pts.map (fun y => y.getD a 0))))
  let qn := processNoise par (cellModel s c).iDisMax i dt (vget sn.gaps k - vget f.gaps k)
    (s.est.refStale.getLsbD c) ((s.est.slept.find? (fun t => t.1 == c)).map (·.2))
  let p := mat4 (fun a b =>
    sigmaMean (pts.map (fun y => (y.getD a 0 - x.getD a 0) * (y.getD b 0 - x.getD b 0))) + if a = b then qn.getD a 0 else 0)
  let tb := (boundaryTemp s sn c).getD e.tb
  let u := r32 (ocv (ocvOf s (cellChem s c)) (x.getD 0 0) e.tc + x.getD 3 0 - x.getD 1 0 - x.getD 2 0)
  { par := par, x := x, p := p, dt := dt, i := i, iMeas := im, tc := e.tc, tcStep := tcStep, tb := tb, u := u, repaired := rep }

/-- A measurement update (R150): posterior mean and covariance before conditioning, nis, whether the gate let it
pass, whether the covariance was repaired. -/
def measure (o : OcvRec) (pr : Prior) (vavg : Rat) : List Rat × Mat × Rat × Bool × Bool :=
  let held := heldStates pr.par
  let (l, p, rep) := cholRepair held pr.p
  let pts := sigmaPoints pr.x l
  let ys := pts.map (fun y => r32 (ocv o (y.getD 0 0) pr.tc + y.getD 3 0 - y.getD 1 0 - y.getD 2 0 - pr.par.rser * pr.iMeas))
  let ym := r32 (sigmaMean ys)
  let n := pts.length
  let pyy := r32 (sigmaMean (ys.map (fun y => sq (y - ym))) + mkRat 225 100000000)
  let pxy := (List.range 4).map (fun a => r32 (sigmaMean ((List.range n).map (fun k =>
    ((pts.getD k []).getD a 0 - pr.x.getD a 0) * (ys.getD k 0 - ym)))))
  let nu := r32 (vavg - ym)
  let nis := r32 (sq nu / pyy)
  if 25 < nis then (pr.x, p, nis, false, rep)
  else
    let kg := pxy.map (fun v => r32 (v / pyy))
    ((List.range 4).map (fun a => r32 (pr.x.getD a 0 + kg.getD a 0 * nu)),
     mat4 (fun a b => mat p a b - kg.getD a 0 * pyy * kg.getD b 0), nis, true, rep)

/-- The run of a cell that has a state (R150 to R162). A cell reinitialised at rest gets the variances of R160 and covariances
0 (DESIGN CHOICE, log entry 72: R160 gives the variances alone). -/
def filterCell (s : State) (sn : Snapshot) (f : EstSet) (c : Nat) : EstCell × RunNote :=
  let sc := vget sn.cells c
  let k := cellStr s c
  let e := vget f.cells c
  let o := ocvOf s (cellChem s c)
  let pr := predict s sn f c
  let held := heldStates pr.par
  let vavg : Rat := mkRat sc.vavg 10000
  let wasDiv := e.flags.getLsbD 4
  let eager := s.est.unlearned.getLsbD c || s.est.refStale.getLsbD c || wasDiv
  let due := !sn.quiet.getLsbD k || sn.batten / 10 % 10 == 0 || eager
  let allowed := due && !sc.stale && sc.usable && (vget sn.iAvg k).isSome
  let reinit := allowed && atRest s k
    && ((s.est.unlearned.getLsbD c && !s.est.reinitDone.getLsbD c) || decide (mkRat 25 10000 < mat pr.p 0 0) || s.est.reinit.getLsbD c)
  let (x, p, nis, applied, rep2) :=
    if reinit then
      let (so, vo) := socFromOcv s c (vavg - pr.x.getD 3 0) pr.tc
      let v := initialVar pr.par
      ([so, 0, 0, pr.x.getD 3 0], diagList [vo, v.getD 1 0, v.getD 2 0, mat pr.p 3 3], e.nis, false, false)
    else if allowed then measure o pr vavg
    else (pr.x, pr.p, e.nis, false, false)
  let attempted := allowed && !reinit
  let gatedNow := attempted && !applied
  let count := if gatedNow then e.gated + 1 else if applied then 0 else e.gated
  let widen := decide (10 ≤ count)
  let p := if widen then mat4 (fun a b => 4 * mat p a b) else p
  let p := conditionP held p
  let good := if attempted then (if applied && nis ≤ 9 then min 10 (e.goodRun + 1) else 0) else e.goodRun
  let newDiv := widen && !wasDiv
  let clears := wasDiv && !widen && decide (10 ≤ good)
  let div := (wasDiv || widen) && !clears
  let soc0 := x.getD 0 0
  let clamped := decide (soc0 < 0) || decide (1 < soc0)
  let soc := clampR 0 1 soc0
  let x := [soc, x.getD 1 0, x.getD 2 0, x.getD 3 0]
  let sg := r32 (sqrtR (mat p 0 0))
  let tc := thermalStep pr.par pr.i (pr.x.getD 1 0) (pr.x.getD 2 0) pr.tcStep pr.tb pr.dt
  let isRef := applied && nis ≤ 9 && decide (mat p 0 0 ≤ mkRat 64 1000000)
    && decide (mat p 0 0 ≤ mkRat 98 100 * mat pr.p 0 0) && !sc.proving && !div && !clamped
  let firstRef := isRef && s.est.unlearned.getLsbD c && !s.est.reinitDone.getLsbD c
  let iStep := maxR (mkRat s.cfg.plant.cellAh 20000) 5
  let dI := pr.iMeas - e.iMeas
  let ev := if applied && e.updated && decide (iStep ≤ absR dI) then
      let y := (vavg - e.vMeas) - (pr.u - e.u)
      some (r32 (-(y * dI)), r32 (sq dI))
    else none
  let stale := s.est.refStale.getLsbD c && !isRef
  let noTemp := (boundaryTemp s sn c).isNone
  ({ e with
      soc := soc, vf := x.getD 1 0, vs := x.getD 2 0, h := x.getD 3 0, p := toUpper p, tc := tc, tb := pr.tb
      flags := estFlags (s.est.unlearned.getLsbD c) stale (sn.quiet.getLsbD k) (!applied) div clamped noTemp (reinit || firstRef)
      refAt := if isRef then sn.batten else e.refAt, nis := nis, gated := if widen then 0 else count, goodRun := if clears then 0 else good
      q := pr.par.q, rser := pr.par.rser, updated := applied, iMeas := pr.iMeas, vMeas := vavg, u := pr.u
      lims := cellLimits o (cellModel s c) pr.par sc x sg pr.tc pr.tb },
   { repaired := pr.repaired || rep2, diverged := newDiv, cleared := clears, gated := gatedNow, reinit := reinit || firstRef, rested := reinit
     evidence := ev
     ref := if isRef then
       some { batten := sn.batten, soc := soc, sigma := sg, charge := vget sn.charge k
              bleed := (sc.bleed / 1000000).toNat % 2 ^ 32, gaps := sc.gaps }
     else none })

/-- A cell's run: the filter where it has a state, else its initialisation. -/
def runCell (s : State) (sn : Snapshot) (c : Nat) : EstCell × RunNote :=
  match s.est.force with
  | some f => if (vget f.cells c).init then filterCell s sn f c else initCell s sn c
  | none => initCell s sn c

/-! ## Notes of a run (R152, R153, R160 to R163, R190) -/

/-- REFERENCE STALE set where the age exceeds 72 h (R163). -/
def refExpiry (s : State) (c : Nat) (refAt : Nat) : State :=
  if refAt + 259200000 < s.bat.num && c < nCells s && !s.est.refStale.getLsbD c then
    logEv { s with est := { s.est with refStale := setBit s.est.refStale c true } } 90 1 c
  else s

/-- What one cell's run leaves beside the new set. Where the run after identity result 3 is the one that initialises the cell,
it takes R159's deviation without the floor of R161, which is then done with (DESIGN CHOICE, log entry 72). -/
def noteCell (s : State) (c : Nat) (e : EstCell) (n : RunNote) : State :=
  let s := if n.repaired then logEv s 89 1 c else s
  let s := if n.diverged then logEv s 89 2 c else s
  let s := if n.cleared then logEv s 89 3 c else s
  let s := if n.gated then { s with est := { s.est with gatedCnt := satAdd 16 s.est.gatedCnt 1 } } else s
  let s := match n.evidence with
    | some (a, b) => { s with led := { s.led with cells := vmod s.led.cells c (fun l =>
        { l with aR := r32 (l.aR + a), bR := r32 (l.bR + b) }) } }
    | none => s
  let s := match n.ref with
    | some r =>
      let s := { s with led := { s.led with cells := vmod s.led.cells c (fun l => { l with pend := some r }) } }
      if s.est.refStale.getLsbD c then
        logEv { s with est := { s.est with refStale := setBit s.est.refStale c false } } 90 2 c
      else s
    | none => if e.init then refExpiry s c e.refAt else s
  let s := if e.init then { s with est := { s.est with widen := setBit s.est.widen c false } } else s
  if n.reinit then
    { s with est := { s.est with
        reinit := setBit s.est.reinit c (s.est.reinit.getLsbD c && !n.rested)
        reinitDone := if s.est.unlearned.getLsbD c then setBit s.est.reinitDone c true else s.est.reinitDone } }
  else s

/-- A string's limits: the minima over its cells; 0 when a port was not IN SERVICE at the snapshot (R184). -/
def strLimits (s : State) (sn : Snapshot) (cells : Vector EstCell 512) (k : Nat) : List Nat :=
  let cs := cellsOfStr s k
  if !sn.allIn.getLsbD k || cs.isEmpty then [0, 0, 0, 0, 0, 0]
  else (List.range 6).map (fun j => cs.foldl (fun m c => min m ((vget cells c).lims.getD j 0)) ((vget cells (cs.headD 0)).lims.getD j 0))

/-- ESTIMATOR_RUN_COMPLETE: every cell of the snapshot, in ascending order; the set waits for the hand-over (R13,
R154). With no run under way, and in Dormant, where the engine's clock stands (R23, R158), nothing completes. -/
def execEstimatorRunComplete (estCycles : BitVec 24) (s : State) : Out :=
  match s.est.snap, mapUp s with
  | none, _ => .next s
  | _, false => .next s
  | some sn, true =>
    let runs := (List.range (nCells s)).map (fun c => runCell s sn c)
    let cells : Vector EstCell 512 := Vector.ofFn (fun i => (runs.getD i.val ({}, {})).1)
    let set : EstSet := {
      batten := sn.batten, cells := cells, slim := Vector.ofFn (fun k => strLimits s sn cells k), allIn := sn.allIn
      charge := sn.charge, bleed := Vector.ofFn (fun i => (vget sn.cells i.val).bleed), gaps := sn.gaps }
    let s := forEach (List.range (nCells s)) (fun s c =>
      let r := runs.getD c ({}, {})
      noteCell s c r.1 r.2) s
    .next { s with est := { s.est with made := some set, snap := none, runtime := estCycles.toNat, slept := [] } }

/-- The hand-over at the edge of a batten 0 (R13): the completed set comes into force, or an unfinished run is
discarded and logged. -/
def handOver (s : State) : State :=
  match s.est.snap, s.est.made with
  | some sn, _ =>
    logEv { s with est := { s.est with snap := none, discarded := satAdd 16 s.est.discarded 1 } } 88 1 (sn.batten / 10 % 2 ^ 24)
  | none, some m => { s with est := { s.est with force := some m, made := none } }
  | none, none => s

/-- REFERENCE_AGE_EXPIRY: acts where the age has passed 72 h. -/
def execReferenceAgeExpiry (cell : Fin 512) (s : State) : Out := .next (refExpiry s cell (estCell s cell).refAt)

/-! ## Quiet cadence (R155) -/

/-- A string enters quiet cadence after QUIET_TIME seconds of quiet battens. -/
def quietReached (s : State) (k : Nat) : State :=
  if s.cfg.plant.quietDiv != 0 && s.cfg.plant.quietTime != 0 && hasStr s k && !s.est.quiet.getLsbD k
      && s.cfg.plant.quietTime * 1000 ≤ vget s.est.quietRun k then
    { s with est := { s.est with quiet := setBit s.est.quiet k true } }
  else s

/-- QUIET_TIME_REACHED. -/
def execQuietTimeReached (k : Fin 4) (s : State) : Out := .next (quietReached s k)

/-- The last batten's current judged: quiet, not quiet, or neither where the samples are invalid (R155, R160). -/
def quietBatten (s : State) (k : Nat) : State :=
  let rest := if s.est.quiet.getLsbD k then vget s.est.restMs k + 1 else 0
  let s := { s with est := { s.est with restMs := vset s.est.restMs k rest } }
  if !s.vrg.valid.getLsbD k || s.cfg.plant.quietDiv = 0 then s
  else if absR (vget s.vrg.iMean k) < mkRat s.cfg.plant.cellAh (1000 * s.cfg.plant.quietDiv) then
    quietReached { s with est := { s.est with quietRun := vset s.est.quietRun k (vget s.est.quietRun k + 1) } } k
  else
    { s with est := { s.est with
      quietRun := vset s.est.quietRun k 0, quiet := setBit s.est.quiet k false, restMs := vset s.est.restMs k 0 } }

end Sys2Proof.Machine
end

