-- ==== Sys2Proof/Machine/Ledger.lean ====
section
/-! DEFINITION. The MRAM ledger (R196 to R203): slots, commits and their conditions, what is due and staged, loading,
and the reset commands. -/

namespace Sys2Proof.Machine

/-! ## Slots (R196, R197) -/

/-- TYPE of a record. -/
def recType : Rec → Nat
  | .module => 1 | .charge _ => 2 | .contactor _ => 3 | .port _ => 4 | .cell _ => 5
/-- INDEX of a record. -/
def recIndex : Rec → Nat
  | .module => 0 | .charge _ => 0 | .contactor k => k | .port p => p | .cell j => j
/-- Offset of slot A or B of a record. -/
def recOffset (r : Rec) (b : Bool) : Nat :=
  (match r with
   | .module => 0 | .charge _ => 0x80 | .contactor k => 0x400 + 0x80 * k | .port p => 0x1000 + 0x80 * p
   | .cell j => 0x10000 + 0x80 * j) + if b then 0x40 else 0

/-- The 64 octets of a slot. -/
def recSlotBytes (s : State) (r : Rec) (b : Bool) : List Byte := memGets ramBlank s.mram (recOffset r b) 64

/-- A slot's SEQ when it is valid for its place. -/
def slotSeq (s : State) (r : Rec) (b : Bool) : Option Nat :=
  let l := recSlotBytes s r b
  let q := fieldLe l 0 4
  if (crc32 (l.take 60)).toNat == fieldLe l 60 4 && q != 0 && q != 0xFFFFFFFF && fieldLe l 4 1 == recType r
      && fieldLe l 5 2 == recIndex r then some q else none

/-- Slot B holds the newer valid copy of a record, A otherwise; none where neither is valid (R197). -/
def newerSlot (s : State) (r : Rec) : Option Bool :=
  match slotSeq s r false, slotSeq s r true with
  | none, none => none
  | some _, none => some false
  | none, some _ => some true
  | some a, some b =>
    let d := (b + 2 ^ 32 - a) % 2 ^ 32
    some (decide (1 ≤ d ∧ d < 2 ^ 31))

/-- The payload of the copy in force; none where the record does not exist. -/
def readRec (s : State) (r : Rec) : Option (List Byte) := (newerSlot s r).map (fun b => (recSlotBytes s r b).drop 8)

/-- How many of a record's slots are valid. -/
def validSlots (s : State) (r : Rec) : Nat := b2n (slotSeq s r false).isSome + b2n (slotSeq s r true).isSome

/-- A slot's octets from SEQ, record and payload (R197). -/
def slotOf (seq : Nat) (r : Rec) (payload : List Byte) : List Byte :=
  let b := natLe 4 seq ++ natLe 1 (recType r) ++ natLe 2 (recIndex r) ++ [0#8]
    ++ (payload ++ List.replicate 52 0#8).take 52
  b ++ natLe 4 (crc32 b).toNat

/-- A slot written. -/
def writeSlot (s : State) (r : Rec) (b : Bool) (l : List Byte) : State :=
  { s with mram := memPuts ramBlank s.mram (recOffset r b) l }

/-! ## Payloads (R200) -/

/-- Two's complement octets of a signed number. -/
def intLe (n : Nat) (i : Int) : List Byte := natLe n (twos (8 * n) i)

/-- An IDENT in the layout of R100. -/
def identBytes (i : Ident) : List Byte :=
  natLe 8 i.serial ++ natLe 1 i.chem ++ natLe 2 i.week ++ natLe 1 i.cells ++ natLe 1 i.proto ++ [0#8] ++ natLe 2 i.fwRev

/-- The code of a learning status. -/
def learnCode : LearnStatus → Nat
  | .learned => 0 | .first => 1 | .unlearned => 2

/-- The cell number behind a ledger index; none for an index that no cell uses. -/
def cellOfIndex (s : State) (j : Nat) : Option Nat :=
  if j % 16 < portCells s (j / 16) then some (firstCell s (j / 16) + j % 16) else none

/-- SOC, SIGMA_REC, CHG, BATTEN and STRING of a CELL record (R200). A cell without a state, and one of a port out of
service for its chemistry, keeps those of its record, so that the ledger SOC stays (R195; DEDUCED, log entry 67); where it
has no record either, the manual states none of SOC, SIGMA_REC, CHG and BATTEN: free values (log entry 6). -/
def cellState (s : State) (j c : Nat) : List Byte :=
  let k := cellStr s c
  let q := portOf s (j / 16)
  let kept := q.st == .outOfService && q.cause == .chemistry
  match s.est.force, readRec s (.cell j) with
  | some f, old =>
    let e := vget f.cells c
    if e.init && !(kept && old.isSome) then
      natLe 4 (singleBits e.soc) ++ natLe 4 (singleBits (sqrtR (e.p.getD 0 0))) ++ intLe 8 (vget f.charge k) ++ natLe 6 f.batten ++ natLe 1 k
    else match old with
      | some pl => slice pl 16 23
      | none => freeState k
  | none, some pl => slice pl 16 23
  | none, none => freeState k
where
  /-- The fields that nothing gives. -/
  freeState (k : Nat) : List Byte :=
    (List.range 6).flatMap (fun i => natLe 4 (Config.freeWord (s.fresh + i)).toNat) |>.take 22 |> (· ++ natLe 1 k)

/-- The payload of a CELL record (R200). -/
def cellPayload (s : State) (j : Nat) : List Byte :=
  match cellOfIndex s j with
  | none => []
  | some c =>
    let l := vget s.led.cells c
    natLe 4 (singleBits l.q) ++ natLe 4 (singleBits l.pq) ++ natLe 4 (singleBits l.rser) ++ natLe 4 (singleBits l.pr)
      ++ cellState s j c ++ natLe 1 (learnCode l.status)
      ++ natLe 1 (satTo 8 l.updates) ++ [0#8, 0#8, 0#8] ++ natLe 4 l.lifetime

/-- The payload of a record's current content. -/
def recPayload (s : State) : Rec → List Byte
  | .module => s.led.modDigest ++ natLe 4 s.led.modSeq ++ natLe 4 s.led.cold ++ natLe 4 s.led.brown
  | .charge cause => (List.range 4).flatMap (fun k => intLe 8 (vget s.led.cap k)) ++ natLe 6 s.led.capAt ++ natLe 1 cause
  | .contactor k =>
    let w := vget s.led.wear k
    natLe 8 w.identity ++ natLe 4 w.consumed ++ natLe 4 w.ops ++ natLe 6 w.lastBatten ++ intLe 2 w.lastI ++ natLe 2 w.overrides
  | .port p => match vget s.led.idents p with
    | some (i, b, ch) => identBytes i ++ natLe 6 b ++ natLe 2 ch
    | none => []
  | .cell j => cellPayload s j

/-! ## Commits (R198, R199) -/

/-- The record of a commit. -/
def commitRec : Commit → Rec
  | .write r => r
  | .wipe r _ => r

/-- A commit may start: VHOLD_OK 1 and PFAIL 0; the engine has both from the detector itself (R199). -/
def mayCommit (s : State) : Bool := s.led.vholdOk && !s.led.pfail

/-- A commit starts with the record's latest content. -/
def beginCommit (s : State) (c : Commit) (again : Bool) : State :=
  { s with
    fresh := s.fresh + 6
    led := { s.led with busy := some (c, again, recPayload s (commitRec c)) } }

/-- The engine starts what it may: the final CHARGE commit of a PFAIL, else the first staged commit (R198, R199). -/
def startCommit (s : State) : State :=
  if s.led.busy.isSome then s
  else if s.led.pfail then
    if s.led.vholdOk && !s.led.finalDone && !unconfigured s then
      beginCommit { s with led := { s.led with finalDone := true } } (.write (.charge 1)) false
    else s
  else if !mayCommit s then s
  else match s.led.staged with
  | [] => s
  | (c, again) :: rest => beginCommit { s with led := { s.led with staged := rest } } c again

/-- The slot a commit writes: the one without the newer valid copy (R198); a wipe takes the older copy
first, then the other slot (R203). -/
def commitTarget (s : State) (c : Commit) : Bool :=
  match c, newerSlot s (commitRec c) with
  | .write _, some b => !b
  | .write _, none => false
  | .wipe _ (some b), _ => b
  | .wipe _ none, some b => !b
  | .wipe _ none, none => false

/-- The octets a commit programs. -/
def commitBytes (s : State) (c : Commit) (payload : List Byte) : List Byte :=
  match c with
  | .write r =>
    let seq := match newerSlot s r with
      | some b => ((slotSeq s r b).getD 0 + 1) % 2 ^ 32
      | none => 1
    slotOf seq r payload
  | .wipe r _ => slotOf 0 r payload

/-- What a slot holds whose readback failed: octets the manual does not state, with a CRC that does not match (log
entry 6). -/
def failedSlot (n : Nat) : List Byte :=
  let b := (List.range 15).flatMap (fun i => natLe 4 (Config.freeWord (n + i)).toNat)
  b ++ natLe 4 (crc32 b ^^^ 1#32).toNat

/-- The end of a commit is what a command's wait stands for: both slots of a record that ceases to exist (R203). -/
def endsWait (c w : Commit) : Bool :=
  match c with
  | .write r => w == .write r
  | .wipe r _ => w == .wipe r none

/-- A commit has ended: a LED_CMD that waits for it is done when it was the last; a commit that was in progress at the
command's acceptance is not the one it waits for (R203). -/
def commitEnded (s : State) (c : Commit) (later : Bool) : State :=
  let w := if later then s.led.cmdWaits else s.led.cmdWaits.filter (fun w => !endsWait c w)
  { s with led := { s.led with
    cmdWaits := w
    cmdResult := if s.led.cmdResult = 4 && w.isEmpty then 1 else s.led.cmdResult
    commits := satAdd 16 s.led.commits 1 } }

/-- LEDGER_COMMIT_COMPLETE: the slot is written; a failed readback is tried once more, then the commit fails and the
newer copy stays in force (R198); the second write of a wipe follows its first (R203). With no commit in progress
nothing completes. -/
def execLedgerCommitComplete (readbackOk : Bool) (s : State) : Out :=
  match s.led.busy with
  | none => .next s
  | some (c, again, payload) =>
    let r := commitRec c
    let b := commitTarget s c
    let later := s.led.cmdLater
    let idle := { s with led := { s.led with busy := none, cmdLater := false } }
    if readbackOk then
      let t := writeSlot idle r b (commitBytes s c payload)
      match c with
      | .wipe r none =>
        .next (startCommit { t with led := { t.led with staged := (.wipe r (some (!b)), false) :: t.led.staged, cmdLater := later } })
      | _ => .next (startCommit (commitEnded t c later))
    else
      let t := writeSlot { idle with fresh := idle.fresh + 15 } r b (failedSlot s.fresh)
      if again then
        let t := commitEnded { t with led := { t.led with failed := satAdd 16 t.led.failed 1 } } c later
        .next (startCommit (logEv t 116 1 (recType r + 256 * recIndex r)))
      else .next (startCommit { t with led := { t.led with staged := (c, true) :: t.led.staged, cmdLater := later } })

/-! ## Power fail (R199, R381) -/

/-- PFAIL is asserted: the commit in progress goes on, then one CHARGE commit with CAUSE 1. -/
def execPfailAsserted (s : State) : Out :=
  if s.led.pfail then .next s
  else .next (startCommit (logEv { s with led := { s.led with pfail := true, finalDone := false } } 104 3 0))

/-- PFAIL clears without a reset: commits resume. -/
def execPfailCleared (s : State) : Out :=
  if !s.led.pfail then .next s
  else .next (startCommit (logEv { s with led := { s.led with pfail := false } } 104 4 0))

/-- VHOLD_OK changes: commits may start while it is 1. In Ship VHOLD is not charged (R380). -/
def execVholdOkChange (ok : Bool) (s : State) : Out :=
  .next (startCommit { s with led := { s.led with vholdOk := ok && supplyOn s.pwr.power .vhold } })

/-! ## What is due, and staging (R201) -/

/-- The rank of a due record in the list of R201. -/
def dueRank (c : Commit) : Nat :=
  match commitRec c with
  | .contactor _ => 0 | .port _ => 1 | .module => 2 | .cell _ => 3 | .charge _ => 4

/-- The due records in R201's order. -/
def dueOrder (l : List Commit) : List Commit :=
  (List.range 5).flatMap (fun r => l.filter (fun c => dueRank c == r))

/-- A commit staged; a record already staged keeps its place and is committed once. A periodic CHARGE adds nothing to one
staged with a CAUSE of its own (R201). -/
def stage (s : State) (c : Commit) : State :=
  let same := fun (x : Commit × Bool) => dueRank x.1 == 4 && dueRank c == 4
  if s.led.staged.any (fun x => x.1 == c || (c == .write (.charge 0) && same x)) then s
  else { s with led := { s.led with staged := s.led.staged.filter (fun x => !same x) ++ [(c, false)] } }

/-- Every used cell's ledger index. -/
def allIndices (s : State) : List Nat :=
  (usedPorts s).flatMap (fun p => (List.range (portCells s p)).map (16 * p + ·))

/-- The records a LEDGER run staged leave the release buffer, and commits start (R198, R271). -/
def releaseCommits (s : State) : State :=
  let h := s.led.held
  startCommit (forEach h stage { s with led := { s.led with held := [] } })

/-- A LEDGER run stages up to 8 due records, at most 16 standing staged (R201); they wait for the checkpoint in the
release buffer. From a Ship order or stage 3 of the orderly stop on, every CELL record and then CHARGE with CAUSE 3 take
the periodic records' place. -/
def ledgerRun (s : State) : State :=
  let ev := dueOrder (s.led.work.due.filter (fun c => dueRank c != 4))
  let tail := match s.led.work.stopCells with
    | some l => (l.map (fun j => Commit.write (.cell j))) ++ (if s.led.work.stopCharge then [] else [Commit.write (.charge 3)])
    | none => Commit.write (.charge 0) :: s.led.work.periodic.map (fun j => Commit.write (.cell j))
  let take := min 8 (16 - s.led.staged.length - s.led.held.length)
  let picked := (ev ++ tail).take take
  let evs := picked.take ev.length
  let rest := picked.drop ev.length
  let isCell := fun (j : Nat) => rest.contains (.write (.cell j))
  let s := { s with led := { s.led with
    held := s.led.held ++ picked
    work := { s.led.work with
      due := s.led.work.due.filter (fun c => !evs.contains c)
      periodic := if s.led.work.stopCells.isSome then [] else s.led.work.periodic.filter (fun j => !isCell j)
      stopCharge := s.led.work.stopCharge || rest.contains (.write (.charge 3))
      stopCells := s.led.work.stopCells.map (fun l => l.filter (fun j => !isCell j)) } } }
  if wordsWait s 8 then s else releaseCommits s

/-- The stop records' commits have all ended (R201). -/
def stopDone (s : State) : Bool :=
  s.led.work.stopCells == some [] && s.led.work.stopCharge && s.led.busy.isNone && s.led.staged.isEmpty && s.led.held.isEmpty

/-- The stop records begin to apply. -/
def beginStop (s : State) : State :=
  if s.led.work.stopCells.isSome then s
  else oweLedger s (fun w => { w with stopCells := some (allIndices s), stopCharge := false, periodic := [] })

/-- A Ship order ends without Ship, and its stop records with it (R390). -/
def endShip (s : State) : State :=
  if s.pwr.shipOrdered then
    oweLedger { s with pwr := { s.pwr with shipOrdered := false, last := false, cmdRes := 6 } }
      (fun w => { w with stopCells := none, stopCharge := false })
  else s

/-- A course's share of the CELL round robin falls due: every cell once in each span of 100 courses (R201). -/
def periodicDue (s : State) : State :=
  let l := allIndices s
  let n := l.length
  let t := courseOf s % 100
  let part := (l.drop (n * t / 100)).take (n * (t + 1) / 100 - n * t / 100)
  if s.led.work.stopCells.isSome then s
  else oweLedger s (fun w => { w with periodic := w.periodic ++ part.filter (fun j => !w.periodic.contains j) })

/-! ## Loading (R202) -/

/-- A cell's learned values at an image load, from its CELL record or from the image. -/
def loadCell (s : State) (c : Nat) : LearnCell :=
  let m := cellModel s c
  let q0 : Rat := mkRat s.cfg.plant.cellAh 1000
  let r0 : Rat := mkRat m.rser 1000000
  match readRec s (.cell (ledgerCell s c)) with
  | none => { q := q0, pq := r32 (q0 * q0 / 100), rser := r0, pr := r32 (9 * r0 * r0 / 100) }
  | some pl =>
    let st : LearnStatus := match fieldLe pl 39 1 with
      | 1 => .first
      | 2 => .unlearned
      | _ => .learned
    let rec_ := if (readRec s (.charge 0)).isSome && fieldLe pl 38 1 == cellStr s c && st != .unlearned then
        some (ofSingle (fieldLe pl 16 4), ofSingle (fieldLe pl 20 4), fieldSe pl 24 8)
      else none
    { q := ofSingle (fieldLe pl 0 4), pq := ofSingle (fieldLe pl 4 4), rser := ofSingle (fieldLe pl 8 4),
      pr := ofSingle (fieldLe pl 12 4), status := st, updates := fieldLe pl 40 1, lifetime := fieldLe pl 44 4, socRec := rec_ }

/-- The PORT record of a port. -/
def loadIdent (s : State) (p : Nat) : Option (Ident × Nat × Nat) :=
  (readRec s (.port p)).map (fun pl => (identOf pl, fieldLe pl 16 6, fieldLe pl 22 2))

/-- The wear of a contactor from its record (R200); `differs` where the image names another contactor;
a missing one takes the image's identity (R235). -/
def loadWear (s : State) (k : Nat) : Wear :=
  let cur : Nat := match contactorOf s (k / 3) (k % 3) with
    | some (_, r) => r.identity
    | none => 0
  match readRec s (.contactor k) with
  | none => { identity := cur }
  | some pl =>
    { identity := fieldLe pl 0 8, consumed := fieldLe pl 8 4, ops := fieldLe pl 12 4, lastBatten := fieldLe pl 16 6,
      lastI := fieldSe pl 22 2, overrides := fieldLe pl 24 2, differs := cur != 0 && fieldLe pl 0 8 != cur }

/-- The records the image uses (R212). -/
def usedRecs (s : State) : List Rec :=
  [.module, .charge 0]
    ++ ((List.range 12).filter (fun k => (contactorOf s (k / 3) (k % 3)).isSome)).map .contactor
    ++ (usedPorts s).map .port ++ (allIndices s).map .cell

/-- The MODULE record as a start reads it, and its counts of cold starts and brown-out restarts with this one (R200,
R401). -/
def moduleLoad (s : State) (kind : Nat) : State :=
  let pl := (readRec s .module).getD (List.replicate 52 0#8)
  { s with led := { s.led with
      modDigest := pl.take 32, modSeq := fieldLe pl 32 4
      cold := fieldLe pl 36 4 + b2n (kind ≤ 1), brown := fieldLe pl 40 4 + b2n (kind == 2) } }

/-- At an image load the ledger gives the charge counters, learned values, identities and wear (R202). -/
def ledgerLoad (s : State) : State :=
  let n := validSlots s
  let recs := usedRecs s
  let none_ := (recs.filter (fun r => n r == 0)).length
  let one := (recs.filter (fun r => n r == 1)).length
  let chg := readRec s (.charge 0)
  let md := readRec s .module
  let word := none_ + 1024 * one + 2 ^ 20 * b2n chg.isSome + 2 ^ 21 * b2n md.isSome
  let cs : Vector Int 4 := Vector.ofFn (fun k => match chg with
    | some pl => fieldSe pl (8 * k.val) 8
    | none => 0)
  let cells : Vector LearnCell 512 := Vector.ofFn (fun c => if c.val < nCells s then loadCell s c.val else {})
  { s with
    vrg := { s.vrg with charge := cs }
    led := { s.led with
      load := word, cells := cells, active := cells, cap := cs, capAt := 0, cmdResult := 0, cmdWaits := [], cmdLater := false
      idents := Vector.ofFn (fun p => loadIdent s p.val), wear := Vector.ofFn (fun k => loadWear s k.val)
      work := {} } }

/-! ## LED_CMD (R203) -/

/-- A command's result code. -/
def ledResult (s : State) (n : Nat) : State := { s with led := { s.led with cmdResult := n } }

/-- RESET PORT: the PORT record and the port's 16 CELL records cease to exist. -/
def ledResetPort (s : State) (maintain : Bool) (p : Nat) : State :=
  let k := (portRec s p).string
  let okState := (portOf s p).st == .outOfService || (0 < portCells s p && (strState s k == .opened || strState s k == .lockout))
  if !maintain then ledResult s 2
  else if !okState then ledResult s 3
  else
    let ws := Commit.wipe (.port p) none :: (List.range 16).map (fun l => Commit.wipe (.cell (16 * p + l)) none)
    let s := oweLedger s (fun w => { w with
      due := w.due.filter (fun c => !(ws.any (fun w => commitRec w == commitRec c))) ++ ws
      periodic := w.periodic.filter (fun j => j / 16 != p) })
    { s with
      led := { s.led with
        cmdWaits := s.led.cmdWaits ++ ws, cmdLater := s.led.busy.any (fun b => ws.any (endsWait b.1)), cmdResult := 4
        idents := vset s.led.idents p none
        cells := forgetRec s.led.cells, active := forgetRec s.led.active
        staged := s.led.staged.filter (fun x => !(ws.any (fun w => commitRec w == commitRec x.1))) }
      cpr := { s.cpr with saved := { s.cpr.saved with cells := forgetRec s.cpr.saved.cells } } }
where
  /-- The ledger SOC of the port's cells goes with their records, and LIFETIME counts from the record first written after
  (R159, R200). -/
  forgetRec (v : Vector LearnCell 512) : Vector LearnCell 512 :=
    v.mapIdx (fun c l => if (cellsOfPort s p).contains c then { l with socRec := none, lifetime := 0 } else l)

/-- RESET CONTACTOR: its wear becomes 0 and its identity the image's. -/
def ledResetContactor (s : State) (maintain : Bool) (k role : Nat) : State :=
  let okState := hasStr s k && role < 3 && (strState s k == .opened || strState s k == .lockout)
  if !maintain then ledResult s 2
  else if !okState then ledResult s 3
  else
    let i := 3 * k + role
    let id := match contactorOf s k role with
      | some (_, r) => r.identity
      | none => 0
    let s := { s with led := { s.led with wear := vset s.led.wear i { identity := id } } }
    let s := ledgerDue s (.contactor i)
    { s with led := { s.led with
      cmdWaits := s.led.cmdWaits ++ [.write (.contactor i)], cmdLater := s.led.busy.any (fun b => endsWait b.1 (.write (.contactor i)))
      cmdResult := 4 } }

end Sys2Proof.Machine
end

