-- ==== Sys2Proof/Machine/Pager.lean ====
section
/-! DEFINITION. The pager (R204 to R211): resident pages and their queues, the host window, history frames and fault
segments. PSRAM is held as it reads through the cache: a resident modified page and the PSRAM behind it are one memory
here (log entry 14). -/

namespace Sys2Proof.Machine

/-! ## Pages (R206 to R208) -/

/-- The requests of a class in the queue. -/
def classQueue (s : State) (c : PageClass) : List PageReq := s.pgr.queue.filter (fun r => r.cls == c)
/-- A page is resident. -/
def resident (s : State) (n : Nat) : Bool := s.pgr.cache.any (fun p => p.no == n)
/-- An aligned address in the PSRAM window (R208, R213). -/
def inWindow (a : Nat) : Bool := a % 4 = 0 && 0x51000000 ≤ a && a < 0x55000000
/-- The PSRAM address behind a window address. -/
def windowAddr (a : Nat) : Nat := a - 0x51000000
/-- The pages of a window READ of n octets: at most two. -/
def readPages (addr n : Nat) : List Nat := ((List.range 2).map (addr / 4096 + ·)).filter (fun p => p * 4096 < addr + n)
/-- The pages that each accepted window READ pins until its reply is formed or it is refused (R321). -/
def hostPins (s : State) : List (List Nat) :=
  s.hst.queue.filterMap (fun r => match r.body with
    | .read a n => if inWindow a then some (readPages (windowAddr a) (4 * n)) else none
    | _ => none)
/-- A page is pinned by a queue entry or a host reply. -/
def pinned (s : State) (n : Nat) : Bool := s.pgr.queue.any (fun r => r.page == n) || (hostPins s).any (·.contains n)
/-- A resident page becomes the most recently used. -/
def touchPage (s : State) (n : Nat) : State :=
  match s.pgr.cache.find? (fun p => p.no == n) with
  | some p => { s with pgr := { s.pgr with cache := s.pgr.cache.filter (fun x => x.no != n) ++ [p] } }
  | none => s

/-- A request for a page: none needed for a page that is resident or queued, refused by a full queue (R206). A LEARN
request for a resident page holds it until its run. -/
def requestPage (s : State) (c : PageClass) (n : Nat) : State × Bool :=
  if (classQueue s c).any (fun r => r.page == n) then (s, true)
  else if resident s n && c != .learn then (touchPage s n, true)
  else if s.pgr.queue.any (fun r => r.page == n) && c != .learn then (s, true)
  else if 16 ≤ (classQueue s c).length then (s, false)
  else ({ s with pgr := { s.pgr with queue := s.pgr.queue ++
      [{ cls := c, page := n, residentSince := if resident s n then some s.bat.num else none }] } }, true)

/-- The next page to fetch: the oldest request without a resident page, of the first class that has one. -/
def nextFetch (s : State) : Option Nat :=
  [PageClass.core, .learn, .host].findSome? (fun c =>
    ((classQueue s c).find? (fun r => !resident s r.page)).map (·.page))

/-- A page is fetched: the least recently used page that is neither pinned nor modified gives way (R206). -/
def fetchPage (s : State) (n : Nat) : State :=
  let victim := if s.pgr.cache.length < 64 then none
    else (s.pgr.cache.find? (fun p => !p.modified && !pinned s p.no)).map (·.no)
  if 64 ≤ s.pgr.cache.length && victim.isNone then s
  else { s with pgr := { s.pgr with
    cache := s.pgr.cache.filter (fun p => some p.no != victim) ++ [{ no := n, modified := false }]
    queue := s.pgr.queue.map (fun r => if r.page == n && r.residentSince.isNone then { r with residentSince := some s.bat.num } else r) } }

/-- One page transfer of a PAGE_DEMAND run: a modified page is written back before any fetch (R206). -/
def pageTransfer (s : State) : State :=
  if s.pgr.budget = 0 || !s.pgr.psramOk then s
  else
    let t := { s with pgr := { s.pgr with budget := s.pgr.budget - 1 } }
    match s.pgr.cache.find? (·.modified) with
    | some p => { t with pgr := { t.pgr with cache := t.pgr.cache.map (fun x => if x.no == p.no then { x with modified := false } else x) } }
    | none => match nextFetch s with
      | some n => fetchPage t n
      | none => s

/-- A PAGE_DEMAND run is under way: one that the ceiling has suspended makes no transfer before it resumes (R38, R206). -/
def demandRuns (s : State) : Bool :=
  slotsRun s && s.bat.running.any (fun w => s.cfg.schedule.any (fun e => e.id == w.slot && e.task == 6))

/-- PAGE_TRANSFER_COMPLETE: the transfer under way in a PAGE_DEMAND run ends (R23, R206). -/
def execPageTransferComplete (s : State) : Out := if demandRuns s then .next (pageTransfer s) else .next s

/-- Entries whose page has been resident for 100 battens leave the queues (R206). -/
def expirePages (s : State) : State :=
  { s with pgr := { s.pgr with queue := s.pgr.queue.filter (fun r =>
    match r.residentSince with
    | some b => decide (s.bat.num < b + 100)
    | none => true) } }

/-- PAGE_QUEUE_ENTRY_EXPIRY. -/
def execPageQueueEntryExpiry (s : State) : Out := .next (expirePages s)

/-- A PAGE_DEMAND run of WCET cycles makes up to WCET / 4 192 transfers (R206). -/
def pageDemandRun (s : State) (wcet : Nat) : State := { s with pgr := { s.pgr with budget := wcet / 4192 } }

/-- Pages a HOST request needs are queued in class HOST; whether all found a place (R206, R208). -/
def queueHost (s : State) (pages : List Nat) : State × Bool :=
  (pages.filter (fun p => !resident s p)).foldl (fun (acc : State × Bool) p =>
    let (t, ok) := requestPage acc.1 .host p
    (t, acc.2 && ok)) (s, true)

/-- A host read of resident pages is accepted: they are the most recently used, and their HOST entries are served (R206). -/
def serveHost (s : State) (pages : List Nat) : State :=
  let s := forEach pages touchPage s
  { s with pgr := { s.pgr with queue := s.pgr.queue.filter (fun r => !(r.cls == .host && pages.contains r.page)) } }

/-- The refusal of a host read with PAGE QUEUE FULL or with PAGE NOT RESIDENT, counted in PGR_MISS (R213). -/
def countMiss (s : State) (full : Bool) : State :=
  if full then { s with pgr := { s.pgr with missFull := satAdd 16 s.pgr.missFull 1 } }
  else { s with pgr := { s.pgr with missRes := satAdd 16 s.pgr.missRes 1 } }

/-! ## History (R209) -/

/-- The octets of a history frame. -/
def histSize (s : State) : Nat := 64 + 16 * nCells s
/-- D, the frames of the history ring; 0 without PSRAM or an image. -/
def histDepth (s : State) : Nat := if s.pgr.psramOk && !unconfigured s then 54263808 / histSize s else 0

/-- The code of a string state (R186); 5 for a string that is not configured. -/
def strCode (s : State) (k : Nat) : Nat :=
  if !hasStr s k then 5
  else match strState s k with
    | .opened => 0 | .precharge => 1 | .closed => 2 | .standstill => 3 | .lockout => 4

/-- The plant state's code (R19, R209). -/
def plantState (s : State) : Nat :=
  let has := fun (x : StrState) => (strs s).any (fun k => strState s k == x)
  if unconfigured s then 0 else if inBench s then 1 else if has .lockout then 6 else if has .standstill then 5
  else if has .closed then 4 else if has .precharge then 3 else 2

/-- The code of BAT_SYNC (R40). -/
def syncCode (s : State) : Nat :=
  match s.bat.sync with
  | .free => 0 | .acquiring => 1 | .locked => 2 | .holdover => 3

/-- A voltage in 0.1 V, held to 16 bits. -/
def tenthVolt (v : Rat) : Nat := satTo 16 (rndEven (v * 10)).toNat
/-- A current in 10 mA as 32 bits. -/
def centiAmp (i : Rat) : Nat := twos 32 (rndEven (i * 100))
/-- A temperature field; 0x8000 where there is none. -/
def tempField (t : Option Int) : Nat :=
  match t with
  | some x => twos 16 x
  | none => 0x8000

/-- THA_EST0 of a cell (R159, R164): SOC, its standard deviation rounded up, the flags. -/
def estWord0 (s : State) (c : Nat) : Nat :=
  let e := estCell s c
  if !e.init then 255 * 2 ^ 16 + e.flags.toNat * 2 ^ 24
  else
    let sg := min 255 (ceilR (sqrtR (e.p.getD 0 0) * 5000)).toNat
    (rndEven (e.soc * 50000)).toNat + sg * 2 ^ 16 + e.flags.toNat * 2 ^ 24

/-- A string's part of a second frame; without a valid batten the means are values the manual does not state. -/
def histString (s : State) (k : Nat) : List Byte :=
  let h := vget s.pgr.hist k
  let n : Rat := (h.n : Rat)
  let w := fun (i : Nat) => (Config.freeWord (s.fresh + 3 * k + i)).toNat
  (if h.n = 0 then natLe 2 (w 0) ++ natLe 2 (w 1) ++ natLe 4 (w 2)
   else natLe 2 (tenthVolt (h.v / n)) ++ natLe 2 (tenthVolt (h.l / n)) ++ natLe 4 (centiAmp (h.i / n)))
    ++ natLe 2 h.invalid ++ natLe 1 (strCode s k) ++ [0#8]

/-- A cell's part of a second frame. -/
def histCell (s : State) (c : Nat) : List Byte :=
  let r := vget s.tha.cells c
  let e := estWord0 s c
  natLe 2 r.vavg ++ natLe 2 r.hMin ++ natLe 2 r.hMax ++ natLe 2 (tempField r.tmeas) ++ natLe 2 (tempField r.tcore)
    ++ natLe 2 (e % 65536) ++ natLe 1 (e / 2 ^ 16 % 256) ++ natLe 1 (e / 2 ^ 24) ++ natLe 2 r.hFlags.toNat

/-- The frame of second `k`, its CRC over the whole frame with its own field taken as 0 (R209). -/
def histFrame (s : State) (k : Nat) : List Byte :=
  let head := natLe 6 (1000 * k) ++ [0#8, 0#8] ++ (List.range 4).flatMap (histString s) ++ natLe 2 s.pgr.updates
    ++ natLe 1 (plantState s) ++ natLe 1 (syncCode s)
  let body := (List.range (nCells s)).flatMap (histCell s)
  let crc := (crc32 (head ++ [0#8, 0#8, 0#8, 0#8] ++ body)).toNat
  head ++ natLe 4 crc ++ body

/-- At the edge of batten 1 000 × (k + 1) the frame of second k is closed and staged, or lost when two wait (R209, R213). -/
def histClose (s : State) : State :=
  if s.bat.num % 1000 != 0 || s.bat.num = 0 || !s.pgr.psramOk then s
  else
    let k := s.bat.num / 1000 - 1
    let f := histFrame s k
    let at_ := 0xC40000 + histSize s * (k % histDepth s)
    let p := s.pgr
    let p : Pgr := if p.seconds.length < 2 then { p with seconds := p.seconds ++ [(k, at_, f)] }
      else { p with gapSec := satAdd 16 p.gapSec 1 }
    { s with
      fresh := s.fresh + 12
      pgr := { p with updates := 0, hist := Vector.replicate 4 {} }
      tha := { s.tha with cells := s.tha.cells.map (fun r => { r with hMin := 65535, hMax := 0, hFlags := 0 }) } }

/-- A cell's part of the batten that ends: its flags join the second's, and a batten with an invalid Verge sample or a flag
WIRE_OPEN or CHAIN_FAULT is a gap (R192, R209). -/
def cellBatten (s : State) (c : Nat) : State :=
  let ok := s.vrg.valid.getLsbD (cellStr s c)
  modCell s c (fun r => { r with
    hFlags := r.hFlags ||| r.flags, gaps := if !ok || r.flags.getLsbD 5 || r.flags.getLsbD 6 then r.gaps + 1 else r.gaps })

/-- A batten joins the running second: each cell's flags, each string's voltages and mean current, or its invalid mark
(R209). -/
def histBatten (s : State) : State :=
  let s := forEach (List.range (nCells s)) cellBatten s
  forEach (strs s) (fun s k =>
    let ok := s.vrg.valid.getLsbD k
    { s with pgr := { s.pgr with hist := vmod s.pgr.hist k (fun h =>
      if ok then { h with v := h.v + vString s k, l := h.l + vLink s k, i := h.i + vget s.vrg.iMean k, n := h.n + 1 }
      else { h with invalid := h.invalid + 1 }) } }) s

/-- The frames a HIST_PAGE run took are written to PSRAM (R209, R210, R271). -/
def releaseFrames (s : State) : State :=
  let sec := s.pgr.outSec
  let bat := s.pgr.outBat
  let s := { s with pgr := { s.pgr with outSec := [], outBat := [] } }
  let s := forEach sec (fun s f =>
    { s with psram := memPuts ramBlank s.psram f.2.1 f.2.2, pgr := { s.pgr with newest := some f.1 } }) s
  forEach bat (fun s f => { s with psram := memPuts ramBlank s.psram f.1 f.2 }) s

/-- A HIST_PAGE run takes the staged frames; they wait for the checkpoint in the release buffer (R209, R210, R271). -/
def histPageRun (s : State) : State :=
  if !s.pgr.psramOk then s
  else
    let p := s.pgr
    let s := { s with pgr := { p with
      seconds := [], frames := [], outSec := p.outSec ++ p.seconds, outBat := p.outBat ++ p.frames } }
    if wordsWait s 8 then s else releaseFrames s

/-! ## Fault records (R210, R211) -/

/-- A port's part of a batten frame. -/
def framePort (s : State) (p : Nat) : Nat :=
  let q := portOf s p
  if q.exch != .accepted || portCells s p = 0 then 0
  else
    let vs := (cellsOfPort s p).map (fun c => (vget s.tha.cells c).vlast)
    let lo := vs.foldl min (vs.headD 0)
    let hi := vs.foldl max 0
    let held := (cellsOfPort s p).any (fun c => (vget s.tha.cells c).held)
    let st := match q.meas with
      | some m => m.status
      | none => 0
    lo + 2 ^ 16 * hi + 2 ^ 32 * (vs.idxOf lo) + 2 ^ 36 * (vs.idxOf hi) + 2 ^ 40 + 2 ^ 42 * b2n held
      + 2 ^ 43 * b2n (0 < q.satFails) + 2 ^ 44 * b2n (st.getLsbD 16) + 2 ^ 45 * b2n (st.getLsbD 17)

/-- The code of a cause (R226). -/
def causeCode : Cause → Nat
  | .none => 0 | .openOrder => 1 | .portLost => 2 | .measurement => 3 | .currentOverLimit => 4 | .insulation => 5
  | .standstillCurrent => 6 | .thermalShutdown => 7 | .coilFault => 8 | .prechargeFast => 9 | .prechargeSlow => 10
  | .joinTimeout => 11 | .coreReset => 12 | .holdExpired => 13 | .cellVoltage => 14 | .cellTemperature => 15
  | .weld => 16 | .prechargeRepeated => 17 | .sparTrip => 18 | .limitsStale => 19 | .coreMismatch => 20
  | .thermal => 21 | .prechargeVoltage => 22

/-- A string's part of a batten frame. -/
def frameString (s : State) (k : Nat) : List Byte :=
  natLe 2 (tenthVolt (vString s k)) ++ natLe 2 (tenthVolt (vLink s k)) ++ natLe 4 (centiAmp (iString s k))
    ++ natLe 1 (strCode s k) ++ natLe 1 (causeCode (strOf s k).cause) ++ natLe 2 (b2n (!strValid s k))

/-- The batten frame of R210. -/
def battenFrame (s : State) : List Byte :=
  natLe 6 s.bat.num ++ natLe 1 (plantState s) ++ natLe 1 (syncCode s) ++ natLe 4 s.spar.presented.toNat
    ++ natLe 3 s.eav.on.toNat ++ [0#8] ++ (List.range 4).flatMap (frameString s)
    ++ (List.range 32).flatMap (fun p => natLe 6 (framePort s p))

/-- The segment that takes frames: the one that is LIVE or COLLECTING. -/
def liveSeg (s : State) : Option Nat :=
  (List.range 4).find? (fun i => (vget s.pgr.segs i).st == .live || (vget s.pgr.segs i).st == .collecting)

/-- A fault segment changed. -/
def modSeg (s : State) (i : Nat) (f : Seg → Seg) : State := { s with pgr := { s.pgr with segs := vmod s.pgr.segs i f } }

/-- A segment becomes LIVE: the lowest FREE one, else the one that has been FROZEN longest is overwritten (R211). -/
def nextLive (s : State) : State :=
  match (List.range 4).find? (fun i => (vget s.pgr.segs i).st == .free) with
  | some i => modSeg s i (fun _ => { st := .live })
  | none =>
    let fr := (List.range 4).filter (fun i => (vget s.pgr.segs i).st == .frozen)
    match fr with
    | [] => s
    | a :: l =>
      let i := l.foldl (fun b i => if (vget s.pgr.segs i).frozenAt < (vget s.pgr.segs b).frozenAt then i else b) a
      let s := modSeg s i (fun _ => { st := .live })
      logEv { s with pgr := { s.pgr with flost := satAdd 16 s.pgr.flost 1 } } 118 2 i

/-- A COLLECTING segment freezes when its record is long enough (R211). -/
def freezeSegment (s : State) : State :=
  match liveSeg s with
  | none => s
  | some i =>
    let g := vget s.pgr.segs i
    if g.st == .collecting && (g.latest + 2000 ≤ s.bat.num || g.start + 2288 ≤ s.bat.num) then
      let s := modSeg s i (fun g => { g with st := .frozen, frozenAt := s.bat.num })
      nextLive (logEv s 118 1 (i + 4 * g.mask.toNat))
    else s

/-- SEGMENT_FREEZE: acts where the COLLECTING segment's time has come. -/
def execSegmentFreeze (s : State) : Out := .next (freezeSegment s)

/-- Strings leave Precharge, Closed or Standstill for Open or Lockout in an evaluation (R211): the first trigger starts
the record, later ones join it. -/
def faultTrigger (s : State) (mask : BitVec 4) : State :=
  if mask = 0 then s
  else match liveSeg s with
  | none => s
  | some i => modSeg s i (fun g =>
      if g.st == .live then { g with st := .collecting, mask := mask, joined := 0, first := s.bat.num, start := s.bat.num, latest := s.bat.num }
      else { g with mask := g.mask ||| mask, joined := satAdd 8 g.joined 1, latest := s.bat.num })

/-- The batten frame at the end of slot 5, staged for the LIVE or COLLECTING segment, or lost when 32 wait (R210, R213). -/
def faultFrame (s : State) : State :=
  if !operating s || !s.pgr.psramOk then s
  else match liveSeg s with
  | none => s
  | some i =>
    let p := s.pgr
    let a := 0x300000 * i + 256 * (s.bat.num % 12288)
    let p : Pgr := if p.frames.length < 32 then { p with frames := p.frames ++ [(a, battenFrame s)] }
      else { p with gapBat := satAdd 16 p.gapBat 1 }
    freezeSegment { s with pgr := p }

/-- PGR_FCLEAR: FROZEN segments whose bit is written become FREE (R211). -/
def freeSegments (s : State) (mask : Nat) : State :=
  forEach (List.range 4) (fun s i =>
    if mask / 2 ^ i % 2 == 1 && (vget s.pgr.segs i).st == .frozen then modSeg s i (fun _ => {}) else s) s

end Sys2Proof.Machine
end

