-- ==== Sys2Proof/Machine/Spar.lean ====
section
/-! DEFINITION. Spar (R240 to R264): its states, the contact pairs and their tests, tones and lanes, the two-hand
station, the reset button, the latch and its release, the proofs, and its status word. -/

namespace Sys2Proof.Machine

/-! ## Pairs (R246 to R251) -/

/-- Channel A (NO of a button) of a pair is closed. -/
def chanA (sp : Spar) (i : Nat) : Bool := sp.inputs.getLsbD (2 * i)
/-- Channel B (NC of a button) of a pair is closed. -/
def chanB (sp : Spar) (i : Nat) : Bool := sp.inputs.getLsbD (2 * i + 1)
/-- A pair is in use (R246). -/
def pairUsed (sp : Spar) (i : Nat) : Bool :=
  if i < 2 then true
  else if i < 6 then sp.doors / 2 ^ (i - 2) % 2 == 1
  else if i < 8 then sp.fireGas / 2 ^ (i - 6) % 2 == 1
  else if i < 10 then sp.twoHand
  else i == 10
/-- The pairs in use. -/
def usedPairs (sp : Spar) : List Nat := (List.range 11).filter (pairUsed sp)
/-- A button is pressed (R254). -/
def btnPressed (sp : Spar) (i : Nat) : Bool := chanA sp i && !chanB sp i
/-- A button is released (R254). -/
def btnReleased (sp : Spar) (i : Nat) : Bool := !chanA sp i && chanB sp i
/-- Either channel of an NC pair is open (R247). -/
def contactOpen (sp : Spar) (i : Nat) : Bool := !chanA sp i || !chanB sp i
/-- The filtered channels of a pair agree (R248). -/
def pairAgrees (sp : Spar) (i : Nat) : Bool := if i < 8 then chanA sp i == chanB sp i else chanA sp i != chanB sp i
/-- A pair shows its healthy or released state (R250). -/
def pairAtRest (sp : Spar) (i : Nat) : Bool := if i < 8 then chanA sp i && chanB sp i else btnReleased sp i
/-- A pair has passed its test. -/
def pairPassed (sp : Spar) (i : Nat) : Bool := vget sp.pairTest i == .passed
/-- A pair is healthy: at rest, tested and passed, without a pair fault (R247, R255). -/
def pairHealthy (sp : Spar) (i : Nat) : Bool := pairAtRest sp i && pairPassed sp i && !sp.pairFaults.getLsbD i
/-- The causes of the standing contact demands (R251, R260). -/
def demandCauses (sp : Spar) : BitVec 16 := maskOf 16 (fun i => i < 8 && pairUsed sp i && contactOpen sp i)
/-- An in-use pair of 0 to 7 is in demand, or an in-use pair is untested or failed (R247, R250). -/
def anyDemand (sp : Spar) : Bool := demandCauses sp != 0 || (usedPairs sp).any (fun i => !pairPassed sp i)

/-! ## States (R242, R243) -/

/-- Spar's mode latches new causes (R242). -/
def latching (sp : Spar) : Bool := sp.mode == .proving || sp.mode == .armed || sp.mode == .tripped

/-- Every proof of R256 is made. -/
def proofsDone (sp : Spar) : Bool := sp.doorProof == 0 && !sp.handProof

/-- PROVING entered, or its proofs started anew: every required proof is outstanding (R256). -/
def startProofs (s : State) : State :=
  let sp := s.spar
  { s with spar := { sp with
    mode := .proving, doorProof := BitVec.ofNat 4 sp.doors, handProof := sp.twoHand
    doorSeen := maskOf 4 (fun n => !chanA sp (2 + n) && !chanB sp (2 + n)) } }

/-- The standing causes of Spar's mode: demands, a door exempt in PROVING; GATE; SUPPLY (R245, R251, R257). -/
def standing (sp : Spar) : BitVec 16 :=
  let d := if sp.mode == .proving then demandCauses sp &&& 0xFFC3#16 else demandCauses sp
  let d := if sp.gateBad != 0 then setBit d 13 true else d
  if sp.supplyOk then d else setBit d 14 true

/-- Causes raised in one SPAR cycle: they trip ARMED and PROVING, join the latch of TRIPPED, and clear RELEASED (R243,
R255, R260). Every standing cause of TRIPPED is in the latch with them, an open door that PROVING exempted too (R251). -/
def raiseCauses (s : State) (m : BitVec 16) : State :=
  let sp := s.spar
  if m == 0 then s
  else if sp.mode == .tripped then
    sparGates { s with spar := { sp with causes := sp.causes ||| m ||| standing sp, released := false } }
  else if sp.mode == .armed || sp.mode == .proving then
    sparGates { s with spar := { sp with
      mode := .tripped, causes := m ||| standing { sp with mode := .tripped }, released := false
      latches := (sp.latches + 1) % 65536, tripAt := some s.bat.num
      latchFirst := (maskBits m).headD 0, doorProof := 0, handProof := false } }
  else s

/-- One cause raised. -/
def raiseCause (s : State) (n : Nat) : State := raiseCauses s (setBit 0 n true)

/-- Spar judges its inputs: standing causes first (R243's order), then the end of PROVING, then the gates. -/
def sparJudge (s : State) : State :=
  let s := if latching s.spar then
      let m := standing s.spar &&& ~~~s.spar.causes
      raiseCauses s m
    else s
  let s := if s.spar.mode == .tripped then
      { s with spar := { s.spar with causes := s.spar.causes ||| standing s.spar } }
    else s
  let s := if s.spar.mode == .proving && proofsDone s.spar && !anyDemand s.spar then
      { s with spar := { s.spar with mode := .armed } }
    else s
  sparGates s

/-- SPAR_START_END: START ends with the test done (R243, R249). -/
def execSparStartEnd (s : State) : Out :=
  if sparRuns s && s.spar.mode == .start && s.spar.testDone then
    .next (sparGates { s with spar := { s.spar with mode := .unconfigured } })
  else .next s

/-- The module enters Unconfigured: Spar leaves ARMED and PROVING (R243). -/
def sparUnconfigured (s : State) : State :=
  if s.spar.mode == .armed || s.spar.mode == .proving then
    sparGates { s with spar := { s.spar with mode := .unconfigured, doorProof := 0, handProof := false } }
  else s

/-- The fields the configuration brings (R241): the SAFETY record, the gate map of the CONTACTOR records, the used
ports and their strings. A button held while the two-hand station comes into use must be released before an attempt: since when
it has been pressed Spar, which ignored it, does not know (R254; DEDUCED, log entry 69). -/
def configFields (s : State) : Spar :=
  let c := s.cfg.contactors.filter (fun r => r.output < 16)
  let turnsOn := s.cfg.safety.twoHand == 1 && !s.spar.twoHand
  { s.spar with
    sealPins := s.cfg.safety.sealPins, doors := s.cfg.safety.doors, fireGas := s.cfg.safety.fireGas
    twoHand := s.cfg.safety.twoHand == 1
    firstBtn := if turnsOn then none else s.spar.firstBtn
    needRelease := if turnsOn then !(btnReleased s.spar 8 && btnReleased s.spar 9) else s.spar.needRelease
    gateUse := maskOf 16 (fun i => c.any (fun r => r.output == i))
    gateMap := Vector.ofFn (fun i => ((c.find? (fun r => r.output == i.val)).map (·.string)).getD 0)
    usedPorts := maskOf 32 (fun p => 0 < portCells s p)
    portStr := Vector.ofFn (fun i => (portRec s i.val).string)
    strings := nStr s, cfgDue := false, resumeOwed := false
    toneMask := if s.spar.cfgDue then 0xFFFFFFFF else s.spar.toneMask
    laneMask := if s.spar.cfgDue then usedLanes { s.spar with strings := nStr s } else s.spar.laneMask }

/-- The causes a configuration in UNCONFIGURED finds (R243). -/
def foundCauses (sp : Spar) : BitVec 16 :=
  let d := demandCauses sp
  let d := if (usedPairs sp).any (fun i => !pairPassed sp i) then setBit d 12 true else d
  if (usedPairs sp).any (fun i => i < 8 && sp.pairFaults.getLsbD i) then setBit d 11 true else d

/-- A configuration moves Spar's state by R243's rows, from the top. -/
def configMode (s : State) (resume changed : Bool) : State :=
  let sp := s.spar
  let trip := fun (m : BitVec 16) => { s with spar := { sp with
    mode := .tripped, causes := m, latches := (sp.latches + 1) % 65536
    tripAt := some s.bat.num
    latchFirst := (maskBits m).headD 0, released := false } }
  match sp.mode with
  | .unconfigured =>
    if resume then trip (setBit 0 14 true)
    else if foundCauses sp != 0 then trip (foundCauses sp)
    else if changed then startProofs s
    else { s with spar := { sp with mode := .armed } }
  | .armed => if changed then startProofs s else s
  | .proving => if changed then startProofs s else s
  | _ => s

/-- SPAR_CONFIGURATION: the configuration items of an image load, or with the resume notice after Spar's own reset,
reach Spar once its START has ended (R241, R243, R257). -/
def execSparConfiguration (s : State) : Out :=
  if !sparRuns s || unconfigured s || s.spar.mode == .start || (!s.spar.cfgDue && !s.spar.resumeOwed) then .next s
  else
    let resume := s.spar.resumeOwed
    let s := { s with spar := configFields s }
    let hand := s.spar.twoHand && (s.spar.pairFaults.getLsbD 8 || s.spar.pairFaults.getLsbD 9)
    let s := configMode { s with spar := { s.spar with handFault := s.spar.twoHand && (s.spar.handFault || hand) } }
      resume s.img.changed
    .next (sparJudge s)

/-! ## Pair tests and faults (R248 to R250) -/

/-- A channel fails a pulse train: closed before it, and closed during its own pulse or open during the other's (R249). -/
def pulseFail (t : PulseTest) (ch : Nat) : Bool :=
  t.before.getLsbD ch && (t.duringOwn.getLsbD ch || !t.duringOther.getLsbD ch)
/-- A channel passes a pulse train. -/
def pulsePass (t : PulseTest) (ch : Nat) : Bool := t.before.getLsbD ch && !pulseFail t ch
/-- A NO channel reads open throughout a pulse train. -/
def pulseOpen (t : PulseTest) (ch : Nat) : Bool :=
  !t.before.getLsbD ch && !t.duringOwn.getLsbD ch && !t.duringOther.getLsbD ch
/-- The verdict of a pulse train on a pair (R249). -/
def pulseVerdict (t : PulseTest) (i : Nat) : PairTest :=
  if pulseFail t (2 * i) || pulseFail t (2 * i + 1) then .failed
  else if (if i < 8 then pulsePass t (2 * i) else pulseOpen t (2 * i)) && pulsePass t (2 * i + 1) then .passed
  else .untested

/-- PAIR_TEST_PULSE: in START every pair is tested; later the in-use pairs at rest that have not passed (R249, R250). -/
def execPairTestPulse (t : PulseTest) (s : State) : Out :=
  let sp := s.spar
  if !sparRuns s then .next s
  else if sp.mode == .start then
    .next { s with spar := { sp with pairTest := Vector.ofFn (fun i => pulseVerdict t i.val), testDone := true } }
  else
    let todo := fun i => pairUsed sp i && !pairPassed sp i && pairAtRest sp i
    let failed := (List.range 11).any (fun i => todo i && pulseVerdict t i == .failed)
    let s := { s with spar := { sp with
      pairTest := (List.range 11).foldl (fun v i =>
        if todo i && pulseVerdict t i != .untested then vset v i (pulseVerdict t i) else v) sp.pairTest } }
    let s := if failed && (sp.mode == .armed || sp.mode == .proving) then raiseCause s 12 else s
    .next (sparJudge s)

/-- PAIR_FAULT: a pair whose channels disagree gets its pair fault; pairs 0 to 7 raise DISCREPANCY, 8 and 9 set HAND
FAULT (R248, R254). A pair that is not in use raises nothing: R263 has DISCREPANCY never the first cause outside
PROVING, since the open channel's demand has tripped before, and an unused pair is never in demand (R247). DEDUCED, log
entry 69. -/
def execPairFault (pair : Fin 11) (s : State) : Out :=
  let sp := s.spar
  if !sparRuns s || pairAgrees sp pair then .next s
  else
    let s := { s with spar := { sp with
      pairFaults := setBit sp.pairFaults pair true, faultSeen := setBit sp.faultSeen pair false
      handFault := sp.handFault || (sp.twoHand && (pair.val == 8 || pair.val == 9)) } }
    .next (if pair.val < 8 && pairUsed sp pair then raiseCause s 11 else s)

/-- A pair's agreement moves its pair fault toward clearing: first in the demand or pressed state, then at rest
(R248). -/
def faultProgress (sp : Spar) (i : Nat) : Spar :=
  if !sp.pairFaults.getLsbD i || !pairAgrees sp i then sp
  else if !pairAtRest sp i then { sp with faultSeen := setBit sp.faultSeen i true }
  else if sp.faultSeen.getLsbD i then
    { sp with pairFaults := setBit sp.pairFaults i false, faultSeen := setBit sp.faultSeen i false }
  else sp

/-! ## The two-hand station (R254) -/

/-- A skew reading within the limit, or beyond it: how many SPAR cycles passed no command brings, and for a button
released before the other is pressed no rule states one (log entry 5). -/
def handSkewOf (s : State) (late : Bool) : Nat × State :=
  let (n, s) := takeFresh s
  let v := (Config.freeWord n).toNat
  (if late then 4000001 + v % 12777215 else v % 4000001, s)

/-- An attempt ends without an actuation: both buttons must be released first (R254). -/
def attemptFails (s : State) : State :=
  { s with spar := { s.spar with
    firstBtn := none, needRelease := !(btnReleased s.spar 8 && btnReleased s.spar 9) } }

/-- The two-hand station after a change of one of its channels (R254). -/
def handChange (s : State) : State :=
  let sp := s.spar
  let p1 := btnPressed sp 8
  let p2 := btnPressed sp 9
  if !sp.twoHand then s
  else if sp.needRelease then
    if btnReleased sp 8 && btnReleased sp 9 then { s with spar := { sp with needRelease := false } } else s
  else match sp.firstBtn with
  | none =>
    if p1 then { s with spar := { sp with firstBtn := some false } }
    else if p2 then { s with spar := { sp with firstBtn := some true } }
    else s
  | some b =>
    if p1 && p2 then
      let (k, s) := handSkewOf s false
      let ok := sp.mode == .armed && !sp.handFault
      { s with spar := { s.spar with
        firstBtn := none, needRelease := true, handSkew := k, handOver := false
        actuation := s.spar.actuation || ok } }
    else if btnReleased sp (if b then 9 else 8) then
      let (k, s) := handSkewOf s false
      attemptFails { s with spar := { s.spar with handSkew := k, handOver := false } }
    else s

/-- TWO_HAND_SKEW_EXPIRY: the running attempt is over its limit (R254). -/
def execTwoHandSkewExpiry (s : State) : Out :=
  if !sparRuns s || !s.spar.twoHand || s.spar.firstBtn.isNone then .next s
  else
    let (k, s) := handSkewOf s true
    .next (attemptFails { s with spar := { s.spar with handSkew := k, handOver := true } })

/-- HAND_RELEASE_HELD: both buttons released for 16 000 cycles clear HAND FAULT and make the proof (R254, R256). -/
def execHandReleaseHeld (s : State) : Out :=
  if sparRuns s && s.spar.twoHand && btnReleased s.spar 8 && btnReleased s.spar 9 then
    .next (sparJudge { s with spar := { s.spar with handFault := false, handProof := false } })
  else .next s

/-! ## The reset button and the latch (R255) -/

/-- Every condition of a release holds at the press (R255). -/
def mayRelease (s : State) : Bool :=
  let sp := s.spar
  (usedPairs sp).all (pairHealthy sp)
    && (sp.usedPorts &&& ~~~sp.toneMask &&& ~~~sp.tonePresent) == 0
    && (List.range 5).all (fun l => !laneUsed sp l || sp.laneMask.getLsbD l || sp.lanePresent.getLsbD l)
    && sp.gateBad == 0 && sp.supplyOk && !sp.stopped && !sp.clockBad

/-- The latch is released: causes, tone and lane latch bits cleared, and TRIPPED left (R243, R255, R256). -/
def releaseLatch (s : State) : State :=
  let s := { s with spar := { s.spar with
    causes := 0, toneTrip := 0, laneTrip := 0, released := true, tripAt := none } }
  if unconfigured s then { s with spar := { s.spar with mode := .unconfigured } }
  else if s.spar.doors = 0 && !s.spar.twoHand then { s with spar := { s.spar with mode := .armed } }
  else startProofs s

/-- A press from batten `f` to batten `t` lasted more than 40 000 000 SPAR cycles (R255). Where the battens leave the
range of R240 in doubt, or were not counted through all of it, a free value decides (log entry 5). -/
def pressLong (s : State) (f t : Int) : Bool :=
  let n : Int := t - f
  if s.spar.pressLost || !battensRun s then (Config.sparFrequency s.fresh).getLsbD 0
  else if (n + 1) * 8400 ≤ 40000000 then false
  else if 40000000 < (n - 1) * 7600 then true
  else (Config.sparFrequency s.fresh).getLsbD 0

/-- Whether a clock once counted outside its window still is, as a press ends: no command brings the return, so it is a
free value (R257; log entry 5). -/
def senseClock (s : State) : State :=
  if s.spar.clockBad then
    { s with fresh := s.fresh + 1, spar := { s.spar with clockBad := (Config.freeWord s.fresh).getLsbD 0 } }
  else s

/-- The reset button is released after a press (R255). -/
def resetReleased (s : State) (f : Int) : State :=
  let long := pressLong s f (s.spar.resetTo.getD (s.bat.num : Int))
  let s := { s with fresh := s.fresh + 1, spar := { s.spar with resetFrom := none, resetTo := none } }
  if long || s.spar.pairFaults.getLsbD 10 then
    { s with spar := { s.spar with ignored := (s.spar.ignored + 1) % 65536 } }
  else if !latching s.spar then s
  else
    let s := senseClock { s with spar := { s.spar with pressed := true } }
    if s.spar.mode == .tripped && mayRelease s then releaseLatch s else s

/-- The reset button after a change of one of its channels (R255). -/
def resetChange (s : State) : State :=
  let sp := s.spar
  if btnPressed sp 10 then
    { s with spar := { sp with
      resetFrom := some (sp.resetFrom.getD (s.bat.num : Int)), resetTo := none
      pressLost := if sp.resetFrom.isSome then sp.pressLost else !battensRun s } }
  else match sp.resetFrom with
  | none => s
  | some f =>
    if btnReleased sp 10 then resetReleased s f
    else { s with spar := { sp with resetTo := some (sp.resetTo.getD (s.bat.num : Int)) } }

/-! ## Contact changes (R247, R251, R256) -/

/-- A door's proof: its channels seen open together, then closed together, in PROVING (R256). -/
def doorProgress (sp : Spar) (n : Nat) : Spar :=
  if sp.mode != .proving || 4 ≤ n then sp
  else if !chanA sp (2 + n) && !chanB sp (2 + n) then { sp with doorSeen := setBit sp.doorSeen n true }
  else if chanA sp (2 + n) && chanB sp (2 + n) && sp.doorSeen.getLsbD n then
    { sp with doorProof := setBit sp.doorProof n false }
  else sp

/-- CONTACT_FILTER_CHANGE: a channel's filtered state changes (R247); demands, proofs, the two-hand station and the
reset button follow, then the pair's fault: a press made under a fault of pair 10 is ignored, its release clears the
fault (R248, R255). -/
def execContactFilterChange (ch : Fin 22) (closed : Bool) (s : State) : Out :=
  if !sparRuns s || s.spar.inputs.getLsbD ch == closed then .next s
  else
    let i := ch.val / 2
    let sp : Spar := { s.spar with inputs := setBit s.spar.inputs ch closed }
    let sp := if 2 ≤ i && i < 6 then doorProgress sp (i - 2) else sp
    let s := { s with spar := sp }
    let s := if i = 8 || i = 9 then handChange s else s
    let s := if i = 10 then resetChange s else s
    .next (sparJudge { s with spar := faultProgress s.spar i })

/-! ## Tones and lanes (R252, R253) -/

/-- TONE_SILENCE: a port's tone is silent; a used unmasked one raises FAULT TONE (R252). -/
def execToneSilence (p : Fin 32) (s : State) : Out :=
  if !sparRuns s then .next s
  else
    let sp := s.spar
    let s := { s with spar := { sp with tonePresent := setBit sp.tonePresent p false } }
    if sp.usedPorts.getLsbD p && !sp.toneMask.getLsbD p && latching sp then
      .next (raiseCause { s with spar := { s.spar with toneTrip := setBit s.spar.toneTrip p true } } 8)
    else .next s

/-- TONE_PRESENT: a port's tone has been present for 8 192 cycles, which count from the port's request where one stands
(04_onwell_link.md, the example of R112), and the used port is unmasked then (R106, R107). -/
def execTonePresent (p : Fin 32) (s : State) : Out :=
  if !sparRuns s then .next s
  else
    let sp := s.spar
    let open_ := sp.unmaskReq.getLsbD p && sp.usedPorts.getLsbD p
    .next (sparGates { s with spar := { sp with
      tonePresent := setBit sp.tonePresent p true, toneMask := if open_ then setBit sp.toneMask p false else sp.toneMask } })

/-- LANE_SILENCE: a lane has stopped toggling; a used unmasked one raises its cause (R253). -/
def execLaneSilence (l : Fin 5) (s : State) : Out :=
  if !sparRuns s then .next s
  else
    let sp := s.spar
    let s := { s with spar := { sp with lanePresent := setBit sp.lanePresent l false } }
    if laneUsed sp l && !sp.laneMask.getLsbD l && latching sp then
      .next (raiseCause { s with spar := { s.spar with laneTrip := setBit s.spar.laneTrip l true } }
        (if l.val < 4 then 9 else 10))
    else .next s

/-- LANE_PRESENT: a lane has toggled for 8 192 cycles, and is unmasked outside Dormant (R253, R258). A lane whose
comparator is active or whose die has no power does not toggle. -/
def execLanePresent (l : Fin 5) (s : State) : Out :=
  if !sparRuns s || !laneToggles s l then .next s
  else
    let sp := s.spar
    .next (sparGates { s with spar := { sp with
      lanePresent := setBit sp.lanePresent l true
      laneMask := if laneUsed sp l && !sp.dormant then setBit sp.laneMask l false else sp.laneMask } })

/-! ## Gates, supply, clock (R245, R257) -/

/-- GATE_AGAINST_COMMAND: what a switch's sense shows; one that conducts while commanded off raises GATE, one that does
not conduct while commanded on raises nothing, and a sense that agrees with the command again ends either (R245). -/
def execGateAgainstCommand (g : GateSense) (s : State) : Out :=
  if !sparRuns s then .next s
  else
    let cmd := s.spar.gateCmd.getLsbD g.gate
    let s := { s with spar := { s.spar with
      gateBad := setBit s.spar.gateBad g.gate (g.conducts && !cmd)
      gateDead := setBit s.spar.gateDead g.gate (!g.conducts && cmd), gateOn := setBit s.spar.gateOn g.gate g.conducts } }
    .next (if g.conducts && !cmd && latching s.spar then raiseCause s 13 else s)

/-- SPAR_SUPPLY_TRIP: the gates are cut and SUPPLY is raised (R257). -/
def execSparSupplyTrip (s : State) : Out :=
  if s.spar.inReset || s.pwr.power == .ship then .next s
  else
    let s := sparGates { s with spar := { s.spar with supplyOk := false } }
    .next (if latching s.spar && !s.spar.stopped then raiseCause s 14 else s)

/-- Spar in its own reset: every gate off, its state lost. What the logic die holds for it stays: the standing unmask
requests, the service holds and Dormant's hold (R241). -/
def sparLost (s : State) (resume : Bool) : State :=
  { s with spar := { ({} : Spar) with
    inReset := true, unmaskReq := s.spar.unmaskReq, service := s.spar.service, dormant := s.spar.dormant
    cfgDue := s.spar.cfgDue, resumeOwed := resume, firstCause := s.spar.firstCause, firstSeen := s.spar.firstSeen
    firstBatten := s.spar.firstBatten, tripAt := some s.bat.num } }

/-- The Eaves side of a reset of the Spar/Eaves die: every channel off, latches and counts 0 (R400, R422); crossings 6, 7
and 14 are reset, what waits in them dropped and counted (R396). -/
def eavLost (s : State) : State :=
  let s := crossDrop s 6 (b2n s.eav.word.isSome + b2n s.eav.wordNext.isSome)
  let s := forEach [6, 7, 14] crossReset s
  { s with
    eav := { s.eav with
      on := 0, seqNo := 0, haveWord := false, duty := Vector.replicate 8 0, refused := 0, windows := 0, hold := false
      expired := false, down := false, vsupLow := false, word := none, wordNext := none
      chans := s.eav.chans.map (fun c => { cfg := c.cfg, next := c.next }) } }

/-- SPAR_RESET: the supply falls below the reset threshold, and the Spar/Eaves die resets (R257). -/
def execSparReset (s : State) : Out :=
  if s.pwr.power == .ship then .next s else .next (eavLost (sparLost s (!unconfigured s)))

/-- SPAR_RESET_RELEASE: Spar's power-on reset is released, and Spar is in START (R243). -/
def execSparResetRelease (s : State) : Out :=
  if s.spar.inReset && s.pwr.power != .ship then .next { s with spar := { s.spar with inReset := false, mode := .start } }
  else .next s

/-- SPAR_CLOCK_FAULT: a count outside the window raises CLOCK (R257). -/
def execSparClockFault (s : State) : Out :=
  if !sparRuns s then .next s
  else
    let s := { s with spar := { s.spar with clockBad := true } }
    .next (if latching s.spar then raiseCause s 15 else s)

/-- SPAR_CLOCK_STOP: the watchdog domain turns every gate off; Spar's logic stands still (R257), and counts no cycle of a press
(R255). -/
def execSparClockStop (s : State) : Out :=
  if s.spar.inReset || s.pwr.power == .ship then .next s
  else .next (sparGates { s with spar := { s.spar with stopped := true, pressLost := s.spar.pressLost || s.spar.resetFrom.isSome } })

/-- SPAR_CLOCK_RETURN: CLOCK latches in the first cycle (R257). -/
def execSparClockReturn (s : State) : Out :=
  if !s.spar.stopped || s.spar.inReset || s.pwr.power == .ship then .next s
  else
    let s := { s with spar := { s.spar with stopped := false } }
    .next (sparJudge (if latching s.spar then raiseCause s 15 else s))

/-! ## The status word (R261, R394) -/

/-- The code of Spar's state (R242). -/
def sparCode : SparMode → Nat
  | .start => 0 | .unconfigured => 1 | .proving => 2 | .armed => 3 | .tripped => 4

/-- The status word (R261). -/
def statusWord (s : State) : Word :=
  let sp := s.spar
  BitVec.ofNat 32 (sparCode sp.mode + 8 * b2n sp.pressed + 16 * b2n sp.released + 32 * b2n sp.actuation
    + 64 * b2n s.eav.hold + 128 * b2n sp.handFault + 256 * sp.doorProof.toNat + 4096 * b2n sp.handProof
    + 65536 * sp.causes.toNat)

/-- STATUS_WORD_PRESENT: the word crosses into CORE's receive register (R261, R394). -/
def execStatusWordPresent (s : State) : Out :=
  if sparRuns s then
    .next { s with spar := { s.spar with
      presented := statusWord s, fresh := true, wordFirst := s.spar.latchFirst, wordTones := s.spar.toneTrip } }
  else .next s

/-- The acknowledgement of crossing 7: Spar clears exactly the flags set in the agreed word (R394). -/
def sparAck (s : State) (w : Word) : State :=
  { s with spar := { s.spar with
    pressed := s.spar.pressed && !w.getLsbD 3, released := s.spar.released && !w.getLsbD 4
    actuation := s.spar.actuation && !w.getLsbD 5 } }

end Sys2Proof.Machine
end

