-- ==== Sys2Proof/Machine/Access.lean ====
section
/-! DEFINITION. Who may read and write (R309, R310, R312): the roles of the sessions and of the Gable port. -/

namespace Sys2Proof.Machine

/-- Role codes (R65). -/
def rolePROTECT : Nat := 1
/-- DISPATCH. -/
def roleDISPATCH : Nat := 2
/-- CONVERTER. -/
def roleCONVERTER : Nat := 3
/-- SUPERVISE. -/
def roleSUPERVISE : Nat := 4
/-- MAINTAIN. -/
def roleMAINTAIN : Nat := 5

/-- The session of a number, as the module holds it. -/
def sessOf (s : State) (n : Nat) : Sess := vget s.hst.sess n

/-- The session the Gable port carries, where the image defines one (R312). -/
def gableSess (s : State) : Option (Fin 8) :=
  if unconfigured s then none
  else (List.finRange 8).find? (fun n => (sessOf s n.val).defined && (sessOf s n.val).defn.port == 3)

/-- A writer by the name its rights go by: the Gable port's defined session stands for the port. -/
def normWho (s : State) : Who → Who
  | .gable => match gableSess s with
    | some n => .session n
    | none => .gable
  | .session n => .session n

/-- The role that governs a defined session: MAINTAIN for the Gable port's in Bench (R312). -/
def sessRole (s : State) (n : Nat) : Nat :=
  let r := sessOf s n
  if unconfigured s || !r.defined then 0 else if inBench s && r.defn.port == 3 then roleMAINTAIN else r.defn.role

/-- The role whose write rights a writer has; 0 for none (R312). -/
def writeRole (s : State) (who : Who) : Nat :=
  if !mapUp s then 0 else match normWho s who with
  | .session n => sessRole s n.val
  | .gable => if unconfigured s || inBench s then roleMAINTAIN else 0

/-- The role whose read rights a reader has (R312). -/
def readRole (s : State) (who : Who) : Nat :=
  if !mapUp s then 0 else match normWho s who with
  | .session n => sessRole s n.val
  | .gable => if unconfigured s || inBench s then roleMAINTAIN else roleSUPERVISE

/-- The writer has MAINTAIN rights. -/
def isMaintain (s : State) (who : Who) : Bool := writeRole s who == roleMAINTAIN
/-- The writer has SUPERVISE or MAINTAIN rights. -/
def isSupervise (s : State) (who : Who) : Bool := writeRole s who == roleSUPERVISE || isMaintain s who

/-- The lowest-numbered PROTECT session (R338). -/
def protectSess (s : State) : Option (Fin 8) := (List.finRange 8).find? (fun n => sessRole s n.val == rolePROTECT)

/-- The number of a writer's register copies (R311): the Gable port's is the ninth. -/
def copyOf (s : State) (who : Who) : Nat :=
  match normWho s who with
  | .session n => n.val
  | .gable => 8

/-- A copy of the selected values changed. -/
def modCopy (s : State) (who : Who) (f : Latches → Latches) : State :=
  { s with hst := { s.hst with latches := vmod s.hst.latches (copyOf s who) f } }

/-- A change that was accepted, or the state as it stands. -/
def orSame (s : State) (r : Option State) : State := r.getD s

end Sys2Proof.Machine
end

