-- ==== Sys2Proof/Machine/Image.lean ====
section
/-! DEFINITION. The Sarking image: the checks of a slot in the order of R72, the slot table's tests (R443, R31),
and the image's records as numbers (R48 to R71, R290, R322, R331, R334, R343, R354). -/

namespace Sys2Proof.Machine

/-- Bytes of an image slot (R46). -/
def slotBase (b : Bool) : Nat := if b then 0x400000 else 0
/-- Octets of a slot of the NOR. -/
def slotBytes (s : State) (b : Bool) (off n : Nat) : List Byte := memGets norBlank s.nor (slotBase b + off) n
/-- The commit word of a slot (R46). -/
def commitWord (s : State) (b : Bool) : Nat := leNat (slotBytes s b 0x3FFFFC 4)

/-- A directory entry (R49). -/
structure DirEntry where
  type : Nat
  revision : Nat
  records : Nat
  offset : Nat
  length : Nat
  crc : Nat
deriving DecidableEq, Repr, Inhabited

/-- Entry `i` of the directory. -/
def dirEntry (img : List Byte) (i : Nat) : DirEntry :=
  let e := slice img (256 + 16 * i) 16
  ⟨fieldLe e 0 1, fieldLe e 1 1, fieldLe e 2 2, fieldLe e 4 4, fieldLe e 8 4, fieldLe e 12 4⟩

/-- Record size, fewest and most records, required, of a section type (R50). -/
def sectionType (t : Nat) : Option (Nat × Nat × Nat × Bool) :=
  match t with
  | 0x01 => some (16, 1, 1, true)
  | 0x02 => some (16, 1, 87, true)
  | 0x03 => some (8, 32, 32, true)
  | 0x04 => some (16, 1, 4, true)
  | 0x05 => some (48, 3, 12, true)
  | 0x06 => some (1640, 1, 4, true)
  | 0x07 => some (48, 1, 4, true)
  | 0x08 => some (272, 1, 1, false)
  | 0x09 => some (16, 1, 1, true)
  | 0x0A => some (8, 24, 24, true)
  | 0x0B => some (64, 1, 1, true)
  | 0x0C => some (8, 4, 4, false)
  | 0x0D => some (32, 1, 8, true)
  | 0x0E => some (32, 1, 1, false)
  | 0x0F => some (32, 1, 24, false)
  | 0x10 => some (16, 2, 2, false)
  | 0x11 => some (4, 8, 8, true)
  | 0x12 => some (8, 1, 1, false)
  | _ => none

/-- The required section types of R50. -/
def requiredTypes : List Nat := [0x01, 0x02, 0x03, 0x04, 0x05, 0x06, 0x07, 0x09, 0x0A, 0x0B, 0x0D, 0x11]

/-- Printable ASCII padded with 0x00 (R48, R67). -/
def printablePadded (l : List Byte) : Bool :=
  let body := l.takeWhile (· != 0)
  body.all (fun b => 0x20 ≤ b.toNat && b.toNat ≤ 0x7E) && (l.drop body.length).all (· == 0)

/-- The header's range checks of step 2 but MAGIC and FORMAT (R48). -/
def headerOk (h : List Byte) : Bool :=
  let cnt := fieldLe h 6 2
  let seq := fieldLe h 8 4
  let len := fieldLe h 12 4
  1 ≤ cnt && cnt ≤ 32 && 1 ≤ seq && seq ≤ 0xFFFFFFFE && 1024 ≤ len && len ≤ 262144 && len % 4 == 0
    && printablePadded (slice h 20 16) && (slice h 36 220).all (· == 0)

/-- Two sections share a byte. -/
def overlaps (a b : DirEntry) : Bool := a.offset < b.offset + b.length && b.offset < a.offset + a.length

/-- The test of step 3 for entry `i`, entries of reserved types untested (R49). -/
def dirOk (len cnt : Nat) (dir : List DirEntry) (i : Nat) : Bool :=
  let e := dir.getD i default
  match sectionType e.type with
  | none => true
  | some (size, lo, hi, _) =>
    e.revision == 1 && lo ≤ e.records && e.records ≤ hi && 256 + 16 * cnt ≤ e.offset && e.offset ≤ len - 32
      && e.offset % 4 == 0 && e.length == e.records * size && e.offset + e.length ≤ len - 32
      && (dir.take i).all (fun d => (sectionType d.type).isNone || !overlaps d e)

/-! ## Record checks of step 8 -/

/-- A number within a closed range. -/
def within (lo n hi : Nat) : Bool := lo ≤ n && n ≤ hi
/-- A signed number within a closed range. -/
def withinI (lo n hi : Int) : Bool := lo ≤ n && n ≤ hi
/-- Zero, or within a closed range. -/
def zeroOr (lo n hi : Nat) : Bool := n == 0 || within lo n hi
/-- Every octet of a range is 0. -/
def zeros (r : List Byte) (off n : Nat) : Bool := (slice r off n).all (· == 0)
/-- A list of numbers in strictly rising order. -/
def rising : List Int → Bool
  | a :: b :: l => a < b && rising (b :: l)
  | _ => true
/-- A list of numbers in an order that never falls. -/
def notFalling : List Int → Bool
  | a :: b :: l => a ≤ b && notFalling (b :: l)
  | _ => true

/-- A unicast IPv4 address (R66). -/
def unicastIp (ip : Nat) : Bool :=
  let o := ip / 2 ^ 24
  1 ≤ o && o ≤ 223 && o != 127

/-- The CAN prescaler and quanta of a rate (R343): the smallest p for which N is whole, and N. -/
def canQuanta (rate lo hi : Nat) : Option (Nat × Nat) :=
  (List.range 32).findSome? (fun i =>
    let p := i + 1
    if rate ≠ 0 ∧ 80000 % (p * rate) = 0 ∧ lo ≤ 80000 / (p * rate) ∧ 80000 / (p * rate) ≤ hi
    then some (p, 80000 / (p * rate)) else none)

/-- PLANT (R54). -/
def plantOk (r : List Byte) : Bool :=
  within 1 (fieldLe r 0 2) 512 && within 1 (fieldLe r 2 1) 4 && within 1 (fieldLe r 3 1) 64
    && zeroOr 50 (fieldLe r 4 2) 2000 && zeroOr 10 (fieldLe r 6 2) 600
    && within 1000 (fieldLe r 8 4) 10000000 && zeros r 12 4

/-- PORT (R55, R114). -/
def portOk (r : List Byte) : Bool :=
  let cells := fieldLe r 0 1
  let kind := fieldLe r 1 1
  cells ≤ 16 && (if cells = 0 then kind == 0 else within 1 kind 2) && !(kind == 2 && 12 < cells)
    && fieldLe r 2 1 ≤ 3 && fieldLe r 3 1 ≤ 3 && fieldLe r 6 1 ≤ 1 && zeros r 7 1

/-- STRING (R56). -/
def stringOk (r : List Byte) : Bool :=
  fieldLe r 0 1 ≤ 31 && within 1 (fieldLe r 1 1) 32 && fieldLe r 2 1 ≤ 2 && within 5 (fieldLe r 3 1) 50
    && 1 ≤ fieldLe r 4 2 && 1 ≤ fieldLe r 6 2 && within 10 (fieldLe r 8 2) 10000
    && within 1 (fieldLe r 10 2) 5000 && zeroOr 10 (fieldLe r 12 2) 2000 && zeros r 14 2

/-- CONTACTOR (R57). -/
def contactorOk (r : List Byte) : Bool :=
  let n := fieldLe r 3 1
  fieldLe r 0 1 ≤ 3 && fieldLe r 1 1 ≤ 2 && fieldLe r 2 1 ≤ 15 && within 2 n 8
    && rising ((List.range n).map (fun i => (fieldLe r (12 + 4 * i) 2 : Int)))
    && (List.range n).all (fun i => 1 ≤ fieldLe r (14 + 4 * i) 2)
    && (List.range (8 - n)).all (fun i => zeros r (12 + 4 * (n + i)) 4) && zeros r 44 4

/-- OCV (R58): the CHEM_ID is unique among the records before it. -/
def ocvOk (earlier : List Nat) (r : List Byte) : Bool :=
  let axis := (List.range 8).map (fun i => fieldSe r (4 + 2 * i) 2)
  fieldLe r 0 1 ≤ 3 && !earlier.contains (fieldLe r 0 1) && zeros r 1 3
    && axis.all (fun t => withinI (-400) t 1050) && rising axis
    && (List.range 8).all (fun t =>
        let row := (List.range 101).map (fun i => (fieldLe r (20 + 2 * (t * 101 + i)) 2 : Int))
        row.all (1 ≤ ·) && notFalling row)
    && zeros r 1636 4

/-- CELL_MODEL (R59). -/
def modelOk (earlier : List Nat) (r : List Byte) : Bool :=
  let f := fun o => fieldLe r o 2
  fieldLe r 0 1 ≤ 3 && !earlier.contains (fieldLe r 0 1) && zeros r 1 3 && 1 ≤ f 4
    && (f 6 == 0 || 1 ≤ f 8) && (f 10 == 0 || 1 ≤ f 12) && f 14 ≤ 5000 && (f 14 == 0 || 1 ≤ f 16)
    && 1 ≤ f 18 && 1 ≤ f 20 && 1 ≤ f 22 && 1 ≤ f 24 && f 24 < f 22
    && withinI (-400) (fieldSe r 26 2) 1050 && withinI (-400) (fieldSe r 28 2) (fieldSe r 26 2 - 1)
    && within 1 (f 30) 5000 && within 1 (f 32) 5000 && within 1 (f 34) 1000 && zeros r 36 12

/-- Phase [0.001°] and temperature [0.1 °C] of a MAP point (R60). -/
def mapPoint (r : List Byte) (chem i : Nat) : Int × Int :=
  let w := fieldLe r (16 + 4 * (16 * chem + i)) 4
  (ofTwos 18 w, ofTwos 14 (w / 2 ^ 18))

/-- IMPEDANCE (R60, R175, R177): the phases rise strictly for a chemistry in use; "ascending" phases of another
may be equal (DEDUCED, log entry 8). -/
def impedanceOk (chems : List Nat) (r : List Byte) : Bool :=
  let src := fieldLe r 0 1
  let tf := fieldLe r 1 1
  let fr := fun i => fieldLe r (4 + 2 * i) 2
  src ≤ 2 && tf ≤ 2 && fr tf != 0 && zeroOr 10 (fieldLe r 2 2) 500 && fr 0 != 0
    && (List.range 3).all (fun i => zeroOr 10 (fr i) 10000) && !(src != 0 && 2000 < fr tf) && zeros r 10 6
    && (List.range 4).all (fun c =>
        let pts := (List.range 16).map (mapPoint r c)
        pts.all (fun p => withinI (-90000) p.1 90000 && withinI (-400) p.2 1050) 
          && (if chems.contains c then rising (pts.map (·.1)) else notFalling (pts.map (·.1))))

/-- SAFETY (R61). -/
def safetyOk (r : List Byte) : Bool :=
  fieldLe r 0 1 ≤ 15 && fieldLe r 1 1 ≤ 15 && fieldLe r 2 1 ≤ 3 && fieldLe r 3 1 ≤ 1 && zeros r 4 12

/-- EAVES record of channel `n` (R62, R290). -/
def eavesOk (n : Nat) (r : List Byte) : Bool :=
  let use := fieldLe r 0 1
  let pg := fieldLe r 2 2
  use ≤ 3 && (use != 1 || n < 16) && fieldLe r 1 1 ≤ 100 && (n < 16 || fieldLe r 1 1 == 0)
    && zeroOr 1000 pg 20000 && (pg == 0 || within 1 (fieldLe r 4 1) 100) && fieldLe r 5 1 ≤ 15
    && zeros r 6 2 && !(use == 2 && pg != 0) && !(use == 3 && pg == 0) && !(use == 0 && !zeros r 0 8)

/-- VERGE for a plant of `n` strings (R63, R354). -/
def vergeOk (n : Nat) (r : List Byte) : Bool :=
  let dv := fun i => fieldLe r (4 * i) 4
  let sh := fun i => fieldLe r (32 + 4 * i) 4
  let oc := fun i => fieldLe r (48 + 2 * i) 2
  let ov := fieldLe r 56 2
  let iw := fieldLe r 58 2
  let io := fieldLe r 60 2
  (List.range 8).all (fun i => zeroOr 1000 (dv i) 10000000 && (2 * n ≤ i || dv i != 0))
    && (List.range 4).all (fun i => zeroOr 1000 (sh i) 100000000 && zeroOr 1 (oc i) 5000
        && (n ≤ i || (sh i != 0 && oc i != 0 && within 2000000 (oc i * sh i) 48000000)))
    && within 1 ov 2000 && zeroOr 20 iw 50000 && zeroOr 20 io (if iw = 0 then 50000 else iw) && zeros r 62 2
    && (List.range (2 * n)).all (fun i => dv i ≤ 10000 * ov && 1000 * ov ≤ dv i)

/-- FEEDBACK (R64). -/
def feedbackOk (r : List Byte) : Bool :=
  let m := fieldLe r 0 1
  m ≤ 3 && fieldLe r 1 1 ≤ 1 && (!(m == 1 || m == 2) || 1 ≤ fieldLe r 2 2)
    && zeroOr 1 (fieldLe r 4 2) 60000 && (m == 0 || 1 ≤ fieldLe r 4 2) && zeros r 6 2

/-- SESSION (R65, R66). -/
def sessionOk (r : List Byte) : Bool :=
  let port := fieldLe r 1 1
  let ip := fieldLe r 4 4
  let udp := fieldLe r 8 2
  within 1 (fieldLe r 0 1) 5 && port ≤ 3 && within 1 (fieldLe r 2 1) 64 && zeros r 3 1
    && (if port = 3 then ip == 0 && udp == 0 else unicastIp ip && 1 ≤ udp) && zeros r 10 2 && zeros r 28 4

/-- NETWORK (R66); MAC_B and IP_B are ignored in a PRP pair. -/
def networkOk (r : List Byte) : Bool :=
  let mode := fieldLe r 0 1
  let mac := fun o => fieldLe r o 6 % 2 == 0
  let ip := fun o => fieldLe r o 4 == 0 || unicastIp (fieldLe r o 4)
  let pfx := fun unused p => within 8 (fieldLe r p 1) 30 || (fieldLe r p 1 == 0 && unused)
  let prp := mode == 1
  mode ≤ 1 && fieldLe r 1 1 ≤ 1 && zeros r 3 1 && mac 4 && ip 16 && pfx (fieldLe r 16 4 == 0) 24
    && (prp || (mac 10 && ip 20)) && pfx (prp || fieldLe r 20 4 == 0) 25 && 1 ≤ fieldLe r 26 2 && zeros r 28 4

/-- GOOSE (R67, R334). -/
def gooseOk (r : List Byte) : Bool :=
  let dir := fieldLe r 0 1
  let c := fieldLe r 2 1
  let m := (slice r 4 6).map (·.toNat)
  let hb := fieldLe r 14 2
  (dir == 1 || dir == 2) && fieldLe r 1 1 ≤ 2 && (if dir = 1 then within 1 c 5 else within 0x41 c 0x42)
    && zeros r 3 1 && m.take 4 == [0x01, 0x0C, 0xCD, 0x01] && m.getD 4 9 ≤ 1
    && fieldLe r 10 2 ≤ 0x3FFF && bits (fieldLe r 12 2) 12 12 == 0 && bits (fieldLe r 12 2) 11 0 ≤ 4094
    && (if dir = 1 then within 100 hb 60000 else zeroOr 100 hb 60000)
    && printablePadded (slice r 16 16) && fieldLe r 16 1 != 0

/-- CAN (R68, R343). -/
def canOk (r : List Byte) : Bool :=
  let nom := fieldLe r 0 2
  let dat := fieldLe r 2 2
  let id := fieldLe r 8 4
  zeroOr 10 nom 1000 && zeroOr nom dat 5000
    && (within 50 (fieldLe r 4 1) 90 || (fieldLe r 4 1 == 0 && nom == 0))
    && (within 50 (fieldLe r 5 1) 90 || (fieldLe r 5 1 == 0 && dat == 0))
    && zeros r 6 2 && bits id 31 31 == 0 && (bits id 29 29 == 1 || bits id 28 0 ≤ 0x7FF) && zeros r 12 4
    && (nom == 0 || (canQuanta nom 8 256).isSome) && (dat == 0 || (canQuanta dat 5 49).isSome)

/-- PARTITION (R69): each code once. -/
def partitionOk (earlier : List Nat) (r : List Byte) : Bool :=
  let p := fieldLe r 0 1
  let c := fieldLe r 1 1
  within 1 p 8 && !earlier.contains p && within 1 c 2 && (5 < p || c == 2) && zeros r 2 2

/-- POWER (R70). -/
def powerOk (r : List Byte) : Bool :=
  zeroOr 10 (fieldLe r 0 4) 604800 && fieldLe r 4 1 ≤ 1 && zeros r 5 3

/-- The reason-0x09 check of a schedule record: host service with room for a request (R322). The record's own
fields belong to step 10 (R443). -/
def hostEntryOk (r : List Byte) : Bool :=
  !(fieldLe r 1 1 == 1 || fieldLe r 1 1 == 2) || 1200 ≤ fieldLe r 8 4

/-- Record `i` of a section is acceptable at step 8; `chems` are the chemistries of used ports, `earlier` are the first
octets of the records before it. -/
def recordOk (strings : Nat) (chems : List Nat) (t i : Nat) (earlier : List Nat) (r : List Byte) : Bool :=
  match t with
  | 0x01 => plantOk r
  | 0x02 => hostEntryOk r
  | 0x03 => portOk r
  | 0x04 => stringOk r
  | 0x05 => contactorOk r
  | 0x06 => ocvOk earlier r
  | 0x07 => modelOk earlier r
  | 0x08 => impedanceOk chems r
  | 0x09 => safetyOk r
  | 0x0A => eavesOk i r
  | 0x0B => vergeOk strings r
  | 0x0C => feedbackOk r
  | 0x0D => sessionOk r
  | 0x0E => networkOk r
  | 0x0F => gooseOk r
  | 0x10 => canOk r
  | 0x11 => partitionOk earlier r
  | _ => powerOk r

/-! ## The image as data -/

/-- The records of a section type as octets; none where the section is absent. -/
def sectionRecs (img : List Byte) (dir : List DirEntry) (t : Nat) : List (List Byte) :=
  match dir.find? (fun e => e.type == t), sectionType t with
  | some e, some (size, _, _, _) => (List.range e.records).map (fun i => slice img (e.offset + i * size) size)
  | _, _ => []

/-- A slot table entry (R28). -/
def slotEntryOf (r : List Byte) : SlotEntry :=
  { id := fieldLe r 0 1, task := fieldLe r 1 1, cls := fieldLe r 2 1, inst := fieldLe r 3 1,
    mask := fieldLe r 4 2, maxDefer := fieldLe r 6 2, wcet := fieldLe r 8 4, deadline := fieldLe r 12 4 }

/-- A MAC address field as the number whose first octet is the most significant (R48). -/
def macField (r : List Byte) (off : Nat) : Nat := beNat (slice r off 6)

/-- The image as loaded (R54 to R70). -/
def parseImage (img : List Byte) (dir : List DirEntry) : Image :=
  let recs := sectionRecs img dir
  let one := fun t => (recs t).headD []
  let pl := one 0x01
  let sa := one 0x09
  let ve := one 0x0B
  { sequence := fieldLe img 8 4
    plantName := (slice img 20 16).takeWhile (· != 0)
    digest := slice img (fieldLe img 12 4 - 32) 32
    plant := { cellsTotal := fieldLe pl 0 2, strings := fieldLe pl 2 1, avgWindow := fieldLe pl 3 1,
               quietDiv := fieldLe pl 4 2, quietTime := fieldLe pl 6 2, cellAh := fieldLe pl 8 4 }
    schedule := (recs 0x02).map slotEntryOf
    ports := (recs 0x03).map (fun r => {
      cells := fieldLe r 0 1, kind := fieldLe r 1 1, chem := fieldLe r 2 1,
      string := fieldLe r 3 1, tempMap := fieldLe r 4 2, balAdj := fieldLe r 6 1 })
    strings := (recs 0x04).map (fun r => {
      firstPort := fieldLe r 0 1, portCount := fieldLe r 1 1,
      openOrder := fieldLe r 2 1, preTol := fieldLe r 3 1, preRes := fieldLe r 4 2, linkCap := fieldLe r 6 2,
      preWindow := fieldLe r 8 2, inrush := fieldLe r 10 2, rampMs := fieldLe r 12 2 })
    contactors := (recs 0x05).map (fun r => {
      string := fieldLe r 0 1, role := fieldLe r 1 1,
      output := fieldLe r 2 1, points := fieldLe r 3 1, identity := fieldLe r 4 8,
      curve := (List.range (fieldLe r 3 1)).map (fun i => (fieldLe r (12 + 4 * i) 2, fieldLe r (14 + 4 * i) 2)) })
    ocv := (recs 0x06).map (fun r => {
      chem := fieldLe r 0 1,
      axis := (List.range 8).map (fun i => fieldSe r (4 + 2 * i) 2),
      table := (List.range 808).map (fun i => fieldLe r (20 + 2 * i) 2) })
    models := (recs 0x07).map (fun r => {
      chem := fieldLe r 0 1, rser := fieldLe r 4 2, rfast := fieldLe r 6 2,
      tauFast := fieldLe r 8 2, rslow := fieldLe r 10 2, tauSlow := fieldLe r 12 2, hystMax := fieldLe r 14 2,
      hystRate := fieldLe r 16 2, thermCap := fieldLe r 18 2, thermRes := fieldLe r 20 2, vMax := fieldLe r 22 2,
      vMin := fieldLe r 24 2, tMax := fieldSe r 26 2, tMin := fieldSe r 28 2, iChgMax := fieldLe r 30 2,
      iDisMax := fieldLe r 32 2, persist := fieldLe r 34 2 })
    impedance := (recs 0x08).head?.map (fun r => {
      source := fieldLe r 0 1, tempFreq := fieldLe r 1 1,
      mismatch := fieldLe r 2 2, freq := (List.range 3).map (fun i => fieldLe r (4 + 2 * i) 2),
      map := (List.range 4).map (fun c => (List.range 16).map (mapPoint r c)) })
    safety := { sealPins := fieldLe sa 0 1, doors := fieldLe sa 1 1, fireGas := fieldLe sa 2 1,
                twoHand := fieldLe sa 3 1 }
    eaves := (recs 0x0A).map (fun r => {
      use := fieldLe r 0 1, pullIn := fieldLe r 1 1, pgFreq := fieldLe r 2 2,
      duty := fieldLe r 4 1, phase := fieldLe r 5 1 })
    verge := { div := (List.range 8).map (fun i => fieldLe ve (4 * i) 4),
               shunt := (List.range 4).map (fun i => fieldLe ve (32 + 4 * i) 4),
               ocLevel := (List.range 4).map (fun i => fieldLe ve (48 + 2 * i) 2),
               ovLevel := fieldLe ve 56 2, insWarn := fieldLe ve 58 2, insOpen := fieldLe ve 60 2 }
    feedback := (recs 0x0C).map (fun r => {
      mode := fieldLe r 0 1, pass := fieldLe r 1 1, lines := fieldLe r 2 2,
      standstill := fieldLe r 4 2 })
    sessions := (recs 0x0D).map (fun r => {
      role := fieldLe r 0 1, port := fieldLe r 1 1, reserve := fieldLe r 2 1,
      peerIp := fieldLe r 4 4, peerUdp := fieldLe r 8 2, evtMask := BitVec.ofNat 128 (fieldLe r 12 16) })
    network := (recs 0x0E).head?.map (fun r => {
      mode := fieldLe r 0 1, ptp := fieldLe r 1 1, domain := fieldLe r 2 1,
      macA := macField r 4, macB := macField r 10, ipA := fieldLe r 16 4, ipB := fieldLe r 20 4,
      pfxA := fieldLe r 24 1, pfxB := fieldLe r 25 1, localUdp := fieldLe r 26 2 })
    goose := (recs 0x0F).map (fun r => {
      dir := fieldLe r 0 1, port := fieldLe r 1 1, content := fieldLe r 2 1,
      dstMac := macField r 4, appid := fieldLe r 10 2, vlan := fieldLe r 12 2, heartbeat := fieldLe r 14 2,
      goId := (slice r 16 16).takeWhile (· != 0) })
    can := (recs 0x10).map (fun r => {
      nomRate := fieldLe r 0 2, dataRate := fieldLe r 2 2, spNom := fieldLe r 4 1,
      spData := fieldLe r 5 1, limitId := fieldLe r 8 4 })
    partitions := (recs 0x11).map (fun r => {
      part := fieldLe r 0 1, cls := fieldLe r 1 1 })
    power := (recs 0x12).head?.map (fun r => {
      dormantAfter := fieldLe r 0 4, shipOk := fieldLe r 4 1 }) }

/-! ## Cross-record checks of step 9 (R71, R331, R334) -/

/-- The prefix mask of a length. -/
def hostBits (pfx : Nat) : Nat := 2 ^ (32 - pfx)

/-- An address is neither the network nor the broadcast address of a prefix (R66). -/
def hostAddr (ip pfx : Nat) : Bool := ip % hostBits pfx != 0 && ip % hostBits pfx != hostBits pfx - 1

/-- The MAC, IP and prefix of a PORT code (R65, R66): NETB's own where the ports are independent, else those of NETA, which
both ports of a PRP pair use (R332). -/
def netOf (i : Image) (port : Nat) : Nat × Nat × Nat :=
  match i.network with
  | none => (0, 0, 0)
  | some n => if port = 1 ∧ n.mode ≠ 1 then (n.macB, n.ipB, n.pfxB) else (n.macA, n.ipA, n.pfxA)

/-- A session's peer and port agree with the network section (R71, R331). -/
def sessionNetOk (i : Image) (r : SessionRec) : Bool :=
  if r.port = 3 then true
  else
    let (mac, ip, pfx) := netOf i r.port
    (r.port != 2 || (i.network.map (·.mode)) == some 1) && mac != 0 && ip != 0
      && hostAddr r.peerIp pfx && r.peerIp / hostBits pfx == ip / hostBits pfx

/-- A GOOSE record's port agrees with the network section (R71). -/
def gooseNetOk (i : Image) (r : GooseRec) : Bool :=
  (r.port != 2 || (i.network.map (·.mode)) == some 1) && (netOf i r.port).1 != 0

/-- The ports a string covers (R71). -/
def stringRun (r : StringRec) : List Nat := (List.range r.portCount).map (r.firstPort + ·)

/-- The cells of a string (R71). -/
def stringCells (i : Image) (r : StringRec) : Nat :=
  sumN ((stringRun r).map (fun p => (i.ports.getD p ({} : PortRec)).cells))

/-- A string's ports lie within 0 to 31, follow the string before it, and name it (R71). -/
def crossString (i : Image) (k : Nat) : Bool :=
  let r := i.strings.getD k {}
  let q := i.strings.getD (k - 1) {}
  r.firstPort + r.portCount ≤ 32
    && (stringRun r).all (fun p => 1 ≤ (i.ports.getD p ({} : PortRec)).cells && (i.ports.getD p ({} : PortRec)).string == k)
    && (k == 0 || q.firstPort + q.portCount ≤ r.firstPort)

/-- A contactor names a configured string; its role and output are not taken before it; its output drives a coil (R71). -/
def crossContactor (i : Image) (k : Nat) : Bool :=
  let c := i.contactors.getD k {}
  let before := i.contactors.take k
  c.string < i.plant.strings && !before.any (fun d => d.string == c.string && d.role == c.role)
    && !before.any (fun d => d.output == c.output) && (i.eaves.getD c.output ({} : EavesRec)).use == 1

/-- A GOOSE record's port is set up; what it publishes is not published before it; what it orders has a session to act
through (R71, R334). -/
def crossGoose (i : Image) (k : Nat) : Bool :=
  let g := i.goose.getD k {}
  gooseNetOk i g
    && !(g.dir == 1 && (i.goose.take k).any (fun q => q.dir == 1 && q.port == g.port && q.content == g.content))
    && !(g.content == 0x41 && !i.sessions.any (fun r => r.role == 1))

/-- A relation of whole sections: whether it holds, and the section type its failure names. -/
def crossWhole (ok : Bool) (type : Nat) : List (Bool × Nat × Nat) := [(ok, type, 0xFFFF)]
/-- A relation tested record by record. -/
def crossEach (type n : Nat) (f : Nat → Bool) : List (Bool × Nat × Nat) := (List.range n).map (fun k => (f k, type, k))

/-- The cross-record checks in the order R71 lists them, with the section type and the record each names when it
fails. Which section and record a failed relation names is DEDUCED, log entry 30. -/
def crossChecks (i : Image) : List (Bool × Nat × Nat) :=
  let port := fun p => i.ports.getD p ({} : PortRec)
  let sess := fun k => i.sessions.getD k ({} : SessionRec)
  [(sumN (i.ports.map (·.cells)) == i.plant.cellsTotal, 0x01, 0)]
    ++ crossWhole (i.strings.length == i.plant.strings) 0x04
    ++ crossEach 0x04 i.strings.length (crossString i)
    ++ crossEach 0x03 32 (fun p => i.strings.any (fun r => (stringRun r).contains p) || (port p).cells == 0)
    ++ crossWhole (i.strings.all (fun r => stringCells i r == stringCells i (i.strings.getD 0 {}))) 0x04
    ++ crossEach 0x05 i.contactors.length (crossContactor i)
    ++ crossWhole (i.contactors.length == 3 * i.plant.strings) 0x05
    ++ crossEach 0x0A 24 (fun e => (i.eaves.getD e ({} : EavesRec)).use != 1 || i.contactors.any (fun c => c.output == e))
    ++ crossEach 0x03 32 (fun p => (port p).cells == 0
        || (i.ocv.any (fun o => o.chem == (port p).chem) && i.models.any (fun m => m.chem == (port p).chem)))
    ++ crossWhole (decide (sumN (i.sessions.map (·.reserve)) ≤ 224)) 0x0D
    ++ crossEach 0x0D i.sessions.length (fun k => sessionNetOk i (sess k)
        && !(i.sessions.take k).any (fun r => r.port == (sess k).port && r.peerIp == (sess k).peerIp && r.peerUdp == (sess k).peerUdp))
    ++ [((match i.network with
          | none => true
          | some w => (w.ipA == 0 || hostAddr w.ipA w.pfxA) && (w.mode == 1 || w.ipB == 0 || hostAddr w.ipB w.pfxB)), 0x0E, 0)]
    ++ crossEach 0x0F i.goose.length (crossGoose i)
    ++ crossWhole (decide ((i.goose.filter (fun g => g.dir == 1)).length ≤ 8)
        && decide ((i.goose.filter (fun g => g.dir == 2)).length ≤ 16)) 0x0F
    ++ crossWhole ((List.range i.sessions.length).all (fun k =>
        i.schedule.any (fun e => e.task == 1 && e.inst == k && e.mask != 0))) 0x02

/-- The first relation of step 9 that fails: its section type and record. -/
def crossFailure (i : Image) : Option (Nat × Nat) := ((crossChecks i).find? (fun c => !c.1)).map (·.2)

/-! ## The slot table (R28 to R31, R443) -/

/-- The allowed CLASS of a TASK (R29); none for a reserved one. -/
def taskClass (t : Nat) : Option Nat :=
  match t with
  | 0x01 => some 1 | 0x02 => some 2 | 0x03 => some 1 | 0x04 => some 1 | 0x05 => some 2 | 0x06 => some 2
  | 0x07 => some 2 | 0x08 => some 2 | 0x09 => some 1 | 0x0A => some 1 | 0x0B => some 2 | 0x0C => some 2
  | 0x0D => some 2 | _ => none

/-- The field checks of R28 and R29. -/
def slotFieldsOk (e : SlotEntry) : Bool :=
  within 9 e.id 95 && taskClass e.task == some e.cls && (if e.task = 1 then e.inst ≤ 7 else e.inst == 0)
    && e.mask < 1024 && (if e.cls = 1 then e.maxDefer == 0 else e.maxDefer ≤ 255)
    && within 1 e.wcet 136800 && (if e.cls = 1 then within 74401 e.deadline 211200 else e.deadline == 0)

/-- Bit `n` of a BATTEN_MASK. -/
def maskBit (m n : Nat) : Bool := m / 2 ^ n % 2 == 1

/-- The entries enabled in a batten, in ascending SLOT_ID. -/
def enabledIn (t : List SlotEntry) (n : Nat) : List SlotEntry :=
  (List.range 256).flatMap (fun id => t.filter (fun e => e.id == id && maskBit e.mask n))

/-- One entry of the budget walk: the running sum, the critical finish, the first failure (R31). -/
def budgetStep (acc : Nat × Nat × Option (Nat × Nat)) (e : SlotEntry) : Nat × Nat × Option (Nat × Nat) :=
  match acc with
  | (sum, fin, some r) => (sum, fin, some r)
  | (sum, fin, none) =>
    let sum := sum + e.wcet
    let fin := if e.cls = 1 then fin + e.wcet else fin
    (sum, fin, if 211200 < sum then some (e.id, 1) else if e.cls = 1 ∧ e.deadline < fin then some (e.id, 2) else none)

/-- The budget check of R31: batten, SLOT_ID and reason of the first failure. -/
def budgetCheck (t : List SlotEntry) : Option (Nat × Nat × Nat) :=
  (List.range 10).findSome? (fun n =>
    ((enabledIn t n).foldl budgetStep (74400, 74400, none)).2.2.map (fun r => (n, r.1, r.2)))

/-- The slot table's tests in the order of R443; `sessions` counts the sessions, `goose` says whether a GOOSE
dataset is configured. -/
def tableCheck (t : List SlotEntry) (sessions : Nat) (goose : Bool) : Refuse :=
  let has := fun task => t.any (fun e => e.task == task && e.mask != 0)
  let hk := t.filter (fun e => e.task == 0x0A)
  let dup := (List.range 256).find? (fun id => 1 < (t.filter (fun e => e.id == id)).length)
  let oneBit := fun m => (List.range 10).any (fun n => m == 2 ^ n)
  let hkOk := match hk with
    | [e] => oneBit e.mask
    | _ => false
  let needed := [0x02, 0x04, 0x09, 0x05, 0x06, 0x0C, 0x0B].all has && (!goose || has 0x03)
    && (List.range sessions).all (fun k => t.any (fun e => e.task == 1 && e.inst == k && e.mask != 0))
  if 87 < t.length then ⟨15, 255, 6⟩
  else match t.find? (fun e => !slotFieldsOk e) with
  | some e => ⟨15, e.id, 3⟩
  | none =>
    match dup with
    | some id => ⟨15, id, 5⟩
    | none =>
      if !hkOk then ⟨15, (hk.head?.map (·.id)).getD 255, 7⟩
      else if !needed then ⟨15, 255, 4⟩
      else match budgetCheck t with
      | some (n, id, r) => ⟨n, id, r⟩
      | none => ⟨15, 255, 0⟩

/-- The record a refused table's SLOT_ID names: the entry of reasons 0x01 to 0x03 and 0x07, the second of two entries
of reason 0x05 (R44, R84); 0xFFFF where none is named. -/
def tableRecord (t : List SlotEntry) (r : Refuse) : Nat :=
  let pick := fun (l : List Nat) => l.getD (if r.reason = 5 then 1 else 0) 0xFFFF
  if r.slot = 255 && r.reason != 3 then 0xFFFF
  else pick ((List.range t.length).filter (fun k => ((t[k]?).map (·.id)) == some r.slot
    && (r.reason != 3 || ((t[k]?).map slotFieldsOk) == some false)))

/-! ## The slot check of R72 -/

/-- A slot check's outcome: IMG_RESULT's fields, the table check when step 10 ran, the image when valid. -/
structure SlotCheck where
  result : ImgResult
  refuse : Option Refuse := Option.none
  image : Option Image := Option.none
deriving DecidableEq, Repr

/-- A failure with no section named. -/
def slotFail (reason : Nat) : SlotCheck := ⟨{ reason := reason }, none, none⟩
/-- A failure of a directory entry. -/
def sectFail (reason sect : Nat) : SlotCheck := ⟨{ reason := reason, sect := sect }, none, none⟩

/-- The first record of the image that step 8 refuses, sections in directory order. -/
def recordFailure (img : List Byte) (dir : List DirEntry) (strings : Nat) (chems : List Nat) : Option (Nat × Nat) :=
  (List.range dir.length).findSome? (fun i =>
    let e := dir.getD i default
    let rs := sectionRecs img dir e.type
    let ids := rs.map (fun r => fieldLe r 0 1)
    (List.range rs.length).findSome? (fun k =>
      if recordOk strings chems e.type k (ids.take k) (rs.getD k []) then none else some (i, k)))

/-- Steps 6 to 10 of R72. -/
def checkContent (img : List Byte) (dir : List DirEntry) (pins : Nat) : SlotCheck :=
  let bad6 := (List.range dir.length).find? (fun i =>
    let e := dir.getD i default
    (sectionType e.type).isNone || (dir.take i).any (fun d => d.type == e.type))
  match bad6 with
  | some i => sectFail 0x0B i
  | none =>
    if !(requiredTypes.all (fun t => dir.any (fun e => e.type == t))) then slotFail 0x0B
    else
      let im := parseImage img dir
      let safeAt := (dir.findIdx? (fun e => e.type == 0x09)).getD 255
      if im.safety.sealPins % 16 ≠ pins then ⟨{ reason := 0x08, sect := safeAt, record := 0 }, none, none⟩
      else match recordFailure img dir im.plant.strings ((im.ports.filter (fun p => 1 ≤ p.cells)).map (·.chem)) with
      | some (i, k) => ⟨{ reason := 0x09, sect := i, record := k }, none, none⟩
      | none =>
        match crossFailure im with
        | some (type, k) => ⟨{ reason := 0x0A, sect := (dir.findIdx? (fun e => e.type == type)).getD 255, record := k }, none, none⟩
        | none =>
          let r := tableCheck im.schedule im.sessions.length (!im.goose.isEmpty)
          if r.reason = 0 then ⟨{}, some r, some im⟩
          else ⟨{ reason := 0x0C, sect := (dir.findIdx? (fun e => e.type == 0x02)).getD 255, record := tableRecord im.schedule r },
            some r, none⟩

/-- Steps 2 to 10 of R72 on a slot's octets; `head` are its first 256. -/
def checkImage (head : List Byte) (read : Nat → List Byte) (pins : Nat) : SlotCheck :=
  if fieldLe head 0 4 ≠ 0x4B535842 then slotFail 0x01
  else if fieldLe head 4 2 ≠ 1 then slotFail 0x03
  else if !headerOk head then slotFail 0x04
  else
    let len := fieldLe head 12 4
    let cnt := fieldLe head 6 2
    let img := read len
    let dir := (List.range cnt).map (dirEntry img)
    match (List.range cnt).find? (fun i => !dirOk len cnt dir i) with
    | some i => sectFail 0x05 i
    | none =>
      match (List.range cnt).find? (fun i =>
        let e := dir.getD i default
        (sectionType e.type).isSome && (crc32 (slice img e.offset e.length)).toNat != e.crc) with
      | some i => sectFail 0x06 i
      | none =>
        if sha256 (img.take (len - 32)) != slice img (len - 32) 32 then slotFail 0x07
        else checkContent img dir pins

/-- The NOR answers for a slot. -/
def norAnswers (s : State) (b : Bool) : Bool := (if b then s.lands.norBOk else s.lands.norAOk) && !s.pwr.memoriesDown

/-- A slot checked with its commit word (steps 1 to 10 of R72), against the SEAL pins (R77). -/
def checkSlot (s : State) (b : Bool) : SlotCheck :=
  if !norAnswers s b then slotFail 0x0D
  else if commitWord s b ≠ 0 then slotFail 0x02
  else checkImage (slotBytes s b 0 256) (fun n => slotBytes s b 0 n) s.lands.sealPins.toNat

/-- A staging check: steps 2 to 10 and the sequence test (R78, R79). -/
def checkStaged (s : State) (b : Bool) : SlotCheck :=
  if !norAnswers s b then slotFail 0x0D
  else
    let r := checkImage (slotBytes s b 0 256) (fun n => slotBytes s b 0 n) s.lands.sealPins.toNat
    match r.image with
    | some im => if im.sequence ≤ s.cfg.sequence then ⟨{ reason := 0x0E }, r.refuse, none⟩ else r
    | none => r

end Sys2Proof.Machine
end

