-- ==== Sys2Proof/Machine/Stage.lean ====
section
/-! DEFINITION. Staging an image (R77 to R81), the reload that waits (R80), and the road into and out of Bench (R21,
R312). -/

namespace Sys2Proof.Machine

/-- The code of a stage state (R84). -/
def stageCode : Stage → Nat
  | .idle => 0 | .erasing => 1 | .writing => 2 | .verifying => 3 | .verified => 4 | .failed => 5 | .reloadPending => 6

/-- A stage state entered with its event (R412); IDLE frees the owner (R78). -/
def setStage (s : State) (st : Stage) (reason : Nat) : State :=
  let old := s.img.stage
  let s := { s with img := { s.img with
    stage := st, stageReason := reason, owner := if st = .idle then none else s.img.owner } }
  if old == st then s else logEv s 122 1 (stageCode st + 256 * reason)

/-- A writer may command the stage (R78, R309): MAINTAIN rights, and the owner while the stage is not IDLE. -/
def stageMay (s : State) (who : Who) : Bool :=
  writesServed s && isMaintain s who && (s.img.stage == .idle || s.img.owner == some (normWho s who))

/-- The whole slot back to the erased state (R46). -/
def eraseSlot (s : State) (b : Bool) : State :=
  { s with nor := memErase s.nor (slotBase b) (slotBase b + 0x400000) }

/-- Octets programmed into the NOR: bits are only cleared (R47). A NOR that does not answer keeps its content. -/
def programNor (s : State) (b : Bool) (off : Nat) (l : List Byte) : State :=
  if norAnswers s b then
    let old := slotBytes s b off l.length
    { s with nor := memPuts norBlank s.nor (slotBase b + off) (List.zipWith (· &&& ·) old l) }
  else s

/-- A NOR that answers has its slot erased. -/
def eraseAnswering (s : State) (b : Bool) : State := if norAnswers s b then eraseSlot s b else s

/-- A NOR write of staging leaves the release buffer; the commit word's programming starts, and COMMIT_WORD_PROGRAMMED
ends it. -/
def runNor (s : State) (op : NorOp) : State :=
  match op with
  | .erase b => eraseAnswering s b
  | .program b off l => programNor s b off l
  | .commit => s

/-- NOR writes of staging wait for the closing checkpoint, or for the gate where host service is classed protective (R271);
in Unconfigured, where no checkpoint comes, they do not. -/
def norWaits (s : State) : Bool := wordsWait s 6

/-- A NOR write of staging ordered: performed, or put into the release buffer with the stage as it stood (R271). -/
def orderNor (s : State) (before : Img) (op : NorOp) : State :=
  if norWaits s then
    let v : StageSave := ⟨before.stage, before.targetB, before.owner, before.stageReason, before.addr, before.byCommit, before.armed⟩
    { s with img := { s.img with
      norHeld := s.img.norHeld ++ [op], norSaved := if s.img.norSaved.isSome then s.img.norSaved else some v } }
  else runNor s op

/-- NOR writes of staging that have not left the release buffer never do; the stage stays as it has become. -/
def forgetNor (s : State) : State := { s with img := { s.img with norHeld := [], norSaved := none } }

/-- The NOR writes of staging in the release buffer are discarded with the requests they served: the stage is as it was
before them (R271, R276). -/
def discardNor (s : State) : State :=
  match s.img.norSaved with
  | none => s
  | some v => forgetNor { s with img := { s.img with
      stage := v.stage, targetB := v.targetB, owner := v.owner, stageReason := v.stageReason, addr := v.addr
      byCommit := v.byCommit, armed := v.armed } }

/-- A clean closing checkpoint lets the NOR writes of staging out (R271). -/
def releaseNor (s : State) : State := forEach s.img.norHeld runNor (forgetNor s)

/-- IMG_CMD ERASE (R79). -/
def stageErase (s : State) (who : Who) (targetB : Bool) : Option State :=
  let t := if unconfigured s then targetB else !s.img.activeB
  if stageMay s who && sealSeen s && (unconfigured s || !targetB)
      && (s.img.stage == .idle || s.img.stage == .failed || s.img.stage == .verified) then
    let before := s.img
    let s := { s with img := { s.img with targetB := t, owner := some (normWho s who) } }
    some (setStage (orderNor s before (.erase t)) .erasing s.img.stageReason)
  else none

/-- ERASE. -/
def execErase (who : Who) (targetB : Bool) (s : State) : Out := .next (orSame s (stageErase s who targetB))

/-- ERASE_COMPLETE, of an erase that has left the release buffer (R271): the stage enters WRITING, or fails on a NOR
that does not answer (R72, R79). -/
def execEraseComplete (s : State) : Out :=
  if s.img.stage == .erasing && s.img.norHeld.isEmpty then
    .next (if norAnswers s s.img.targetB then setStage s .writing s.img.stageReason else setStage s .failed 0x0D)
  else .next s

/-- A word written to IMG_DATA (R78, R79, R84). -/
def stageData (s : State) (who : Who) (data : Word) : Option State :=
  if stageMay s who && sealSeen s && s.img.stage == .writing && s.img.addr < 0x3FFFFC then
    let l := natLe 4 data.toNat
    let s := orderNor s s.img (.program s.img.targetB s.img.addr l)
    some { s with img := { s.img with addr := (s.img.addr + 4) % 0x400000 } }
  else none

/-- IMG_DATA_WRITE. -/
def execImgDataWrite (who : Who) (data : Word) (s : State) : Out := .next (orSame s (stageData s who data))

/-- A word written to IMG_ADDR: a multiple of 4 (R84); another word is refused (DESIGN CHOICE, log entry 66). -/
def stageAddr (s : State) (who : Who) (v : Nat) : Option State :=
  if stageMay s who && v % 4 = 0 then some { s with img := { s.img with addr := v % 0x400000 } } else none

/-- IMG_CMD VERIFY (R79). -/
def stageVerify (s : State) (who : Who) : Option State :=
  if stageMay s who && s.img.stage == .writing then some (setStage s .verifying s.img.stageReason) else none

/-- VERIFY. -/
def execVerify (who : Who) (s : State) : Out := .next (orSame s (stageVerify s who))

/-- VERIFY_COMPLETE: the staging check's result, over what has left the release buffer (R72, R78, R79, R271); the SEAL
pins are sampled (R77). -/
def execVerifyComplete (s : State) : Out :=
  if s.img.stage == .verifying && s.img.norHeld.isEmpty then
    let r := checkStaged s s.img.targetB
    let s := { s with
      img := { s.img with sealSampled := s.lands.sealPins }
      bat := { s.bat with refuse := r.refuse.getD s.bat.refuse } }
    .next (if r.result.reason = 0 then setStage s .verified 0 else setStage s .failed r.result.reason)
  else .next s

/-- The commit word of a slot programmed to 0x0000_0000 (R47). -/
def programCommit (s : State) (b : Bool) : State := programNor s b 0x3FFFFC [0#8, 0#8, 0#8, 0#8]

/-- IMG_CMD COMMIT (R79, R80). -/
def stageCommit (s : State) (who : Who) : Option State :=
  if stageMay s who && sealSeen s && s.img.stage == .verified then
    if unconfigured s then some (setStage (programCommit s s.img.targetB) .idle s.img.stageReason)
    else if allOpen s then
      let before := s.img
      let s := orderNor { s with img := { s.img with byCommit := true, armed := false } } before .commit
      some (setStage s .reloadPending s.img.stageReason)
    else none
  else none

/-- COMMIT. -/
def execCommit (who : Who) (s : State) : Out := .next (orSame s (stageCommit s who))

/-- COMMIT_WORD_PROGRAMMED, of a commit that has left the release buffer (R271): the word reads 0x0000_0000, and the
restart begins at the next batten 0 (R80). -/
def execCommitWordProgrammed (s : State) : Out :=
  if s.img.stage == .reloadPending && s.img.byCommit && !s.img.armed && s.img.norHeld.isEmpty then
    let s := programCommit s s.img.targetB
    .next { s with img := { s.img with armed := commitWord s s.img.targetB == 0 } }
  else .next s

/-- IMG_CMD RELOAD (R79, R80). -/
def stageReload (s : State) (who : Who) : Option State :=
  if stageMay s who && s.img.stage == .idle && !unconfigured s && allOpen s then
    let s := { s with img := { s.img with byCommit := false, armed := true, owner := some (normWho s who) } }
    some (setStage s .reloadPending s.img.stageReason)
  else none

/-- RELOAD. -/
def execReload (who : Who) (s : State) : Out := .next (orSame s (stageReload s who))

/-- IMG_CMD ABANDON (R79). -/
def stageAbandon (s : State) (who : Who) : Option State :=
  if stageMay s who && s.img.stage != .reloadPending then some (setStage s .idle s.img.stageReason) else none

/-- ABANDON. -/
def execAbandon (who : Who) (s : State) : Out := .next (orSame s (stageAbandon s who))

/-- The sector that holds a slot's commit word erased (R47, R80): it ends the slot and holds the four octets of the word
at least. -/
def eraseCommit (s : State) (b : Bool) : State :=
  let top := slotBase b + 0x400000
  { s with nor := memErase s.nor (top - min 0x400000 (max 4 Config.norSector)) top }

/-- A pending reload is cancelled: by a Lockout (0) or by SEALOPEN on a COMMIT (1) (R80). -/
def cancelReload (s : State) (why : Nat) : State :=
  if s.img.stage != .reloadPending || s.img.restarting then s
  else
    let s := logEv s 121 1 why
    let s := forgetNor { s with img := { s.img with armed := false } }
    if s.img.byCommit then
      let s := if norAnswers s s.img.targetB then eraseCommit s s.img.targetB else s
      setStage s .verified s.img.stageReason
    else setStage s .idle s.img.stageReason

/-! ## SEALOPEN and Bench -/

/-- Bench is left: the warm restart begins at the next batten edge (R21, R285). R80's wait for batten 0 is for COMMIT and
RELOAD alone. DEDUCED, log entry 31. The debug session ends, its breakpoints are cleared (R285). -/
def leaveBench (s : State) : State :=
  if !inBench s then s
  else
    let held := s.cpr.dbgHalted
    { s with
      img := { s.img with benchExit := true, armed := true }
      cpr := { s.cpr with
        dbgOn := false, dbgHalted := false, resume := s.cpr.resume || held, breakpoints := [], dbgWaiting := [], dbgOut := none } }

/-- SEALOPEN_CHANGE (R21, R80, R81). Where its release moves the stage to FAILED, the NOR writes already accepted that wait for
their release are dropped (DESIGN CHOICE, log entry 66: R81 does not say what becomes of them). -/
def execSealopenChange (asserted : Bool) (s : State) : Out :=
  let s := { s with lands := { s.lands with sealOpen := asserted } }
  if asserted then .next s
  else
    let s :=
      match s.img.stage with
      | .reloadPending => if s.img.byCommit then cancelReload s 1 else s
      | .erasing => setStage (forgetNor s) .failed 0x0F
      | .writing => setStage (forgetNor s) .failed 0x0F
      | .verifying => setStage (forgetNor s) .failed 0x0F
      | .verified => setStage (forgetNor s) .failed 0x0F
      | _ => s
    .next (leaveBench s)

/-- In Bench an orderly stop that has begun goes on from its stage 3: every string is Open (R406). -/
def benchStop (s : State) : State :=
  if s.pwr.stop = 1 || s.pwr.stop = 2 then beginStop { s with pwr := { s.pwr with stop := 3 } } else s

/-- HST_BENCH written with 1 (R21, R312), where the register fabric works. A Ship order, which needs Operating, ends there
(R22, R390; DEDUCED, log entry 67). -/
def benchEnter (s : State) (who : Who) : Option State :=
  let may := isMaintain s who || normWho s who == .gable || who == .gable
  if writesServed s && may && mapUp s && operating s && allOpen s && sealSeen s then
    some (benchStop (endShip { s with img := { s.img with module := .bench } }))
  else none

/-- ENTER_BENCH. -/
def execEnterBench (who : Who) (s : State) : Out := .next (orSame s (benchEnter s who))

/-- HST_BENCH written with 2 (R21, R312). -/
def benchLeave (s : State) (who : Who) : Option State :=
  if writesServed s && (isMaintain s who || who == .gable) && inBench s then some (leaveBench s) else none

/-- LEAVE_BENCH. -/
def execLeaveBench (who : Who) (s : State) : Out := .next (orSame s (benchLeave s who))

end Sys2Proof.Machine
end

