-- ==== Sys2Proof/Machine/Ridge.lean ====
section
/-! DEFINITION. Ridge's strings (R214 to R217, R223 to R238): causes, phases, openings and their wear, Standstill and
Lockout. Orders and their arbitration are in RidgeOrders.lean. -/

namespace Sys2Proof.Machine

/-! ## Figures of a string -/

/-- I_zero [A] (R216). -/
def iZero (s : State) : Rat := maxR 2 (mkRat s.cfg.plant.cellAh 1000000)
/-- PULL_IN of a role's channel in battens, or 20 (R216). -/
def pullBattens (s : State) (k role : Nat) : Nat :=
  let p := (eavRec s (coilOf s k role)).pullIn
  if p = 0 then 20 else p
/-- |I_s| of a string at the edge does not exceed I_zero. -/
def lowCurrent (s : State) (k : Nat) : Bool := decide (absR (iString s k) ≤ iZero s)
/-- The age of the set in force [battens]; none without one. -/
def setAge (s : State) : Option Nat := s.est.force.map (fun f => s.bat.num - f.batten)
/-- The set in force is stale (R14). -/
def setStale (s : State) : Bool := (setAge s).any (fun a => 40 < a)
/-- A string limit of the set in force [0.1 A], in the order CHG2 … DIS60; 0 without a set and for a stale one (R14). -/
def slimOf (s : State) (k j : Nat) : Nat :=
  match s.est.force with
  | some f => if setStale s then 0 else (vget f.slim k).getD j 0
  | none => 0
/-- R_s of a string: the sum of Rser over its cells [Ω] (R225). -/
def rStr (s : State) (k : Nat) : Rat := sumR ((cellsOfStr s k).map (fun c => (estCell s c).rser))
/-- A string is in Precharge, Closed or Standstill. -/
def strLive (t : Str) : Bool := t.st == .precharge || t.st == .closed || t.st == .standstill
/-- A Standstill cause of a string is present (RDG_BREACH). -/
def standstillCause (t : Str) : Bool := t.stale || t.mismatch || t.thermal

/-! ## Coils and wear (R216, R234, R235) -/

/-- The contactor roles a string commands on: 0 main-negative, 1 main-positive, 2 precharge (R216). -/
def rolesOn (s : State) (k : Nat) : List Nat :=
  let t := strOf s k
  match t.phase with
  | .idle => []
  | .mnSettle => [0]
  | .charging => [0, 2]
  | .joinWait => [0]
  | .overlap => if t.preOn then [0, 1, 2] else [0, 1]
  | .run => [0, 1]
  | .hold => [0, 1]
  | .ramp => [0, 1]
  | .sequence => if (strRec s k).openOrder = 0 then [0] else [1]
  | .locked => []

/-- The coil channels commanded on by every string. -/
def coilMask (s : State) : BitVec 16 :=
  maskOf 16 (fun c => (strs s).any (fun k => (rolesOn s k).any (fun r => coilOf s k r == c)))

/-- The life N(I) in operations of a contactor at an interrupted current [A] (R234). -/
def lifeAt (curve : List (Nat × Nat)) (i : Rat) : Rat :=
  let n := fun (p : Nat × Nat) => ((p.2 * 100 : Nat) : Rat)
  let c := fun (p : Nat × Nat) => ((p.1 : Nat) : Rat)
  let first := curve.headD (0, 1)
  let last := curve.getLastD (0, 1)
  if i ≤ c first then n first
  else if c last < i then maxR 1 (n last * sq (c last / i))
  else
    let j := (curve.filter (fun p => c p < i)).length - 1
    let a := curve.getD j (0, 1)
    let b := curve.getD (j + 1) (0, 1)
    let w := (i - c a) / (c b - c a)
    n a * expR (w * lnR (n b / n a))

/-- What an opening at a current costs: ⌈1 000 000 / N(I)⌉ [ppm] (R234). A quotient within 2^-64 above a whole number is that
number: the fixed-point logarithm is no nearer (log entry 9). -/
def lifeCost (curve : List (Nat × Nat)) (i : Rat) : Nat := (ceilR (1000000 / lifeAt curve i - mkRat 1 (2 ^ 64))).toNat

/-- One opening charged to a contactor at a current (R234), with the worn warning at its crossing (R235). -/
def chargeOpening (s : State) (k : Nat) (i : Rat) (role : Nat) : State :=
  let j := 3 * k + role
  let curve := match contactorOf s k role with
    | some (_, r) => r.curve
    | none => []
  let w := vget s.led.wear j
  let used := w.consumed + lifeCost curve (absR i)
  let s := { s with led := { s.led with wear := vset s.led.wear j { w with
    consumed := used, ops := w.ops + 1, lastBatten := s.bat.num, lastI := satInt 16 (rndEven i) } } }
  let s := ledgerDue s (.contactor j)
  if w.consumed < 800000 && 800000 ≤ used then logEv s (96 + k) 8 role else s

/-- A string's record changed, the contactors it no longer commands on charged at a current (R234). -/
def changeStr (s : State) (k : Nat) (i : Rat) (f : Str → Str) : State :=
  let before := rolesOn s k
  let s := modStr s k f
  let after := rolesOn s k
  forEach (before.filter (fun r => !after.contains r)) (fun s r => chargeOpening s k i r) s

/-! ## Entering states and phases (R216, R412) -/

/-- The code of a phase (R239). -/
def phaseCode : Phase → Nat
  | .idle => 0 | .mnSettle => 1 | .charging => 2 | .joinWait => 3 | .overlap => 4 | .run => 5 | .ramp => 6
  | .sequence => 7 | .hold => 8 | .locked => 9

/-- The event of a string's state change (R412). -/
def logStr (s : State) (k : Nat) (old : StrState) : State :=
  let t := strOf s k
  let live := old == .precharge || old == .closed || old == .standstill
  let code := match t.st with
    | .lockout => 4
    | .standstill => 3
    | .opened => if live then 2 else 1
    | _ => 1
  logEv s (96 + k) code (strCode s k + 16 * phaseCode t.phase + 256 * causeCode t.cause)

/-- A phase begins in the running batten, with its deadline. -/
def startPhase (b : Nat) (ph : Phase) (deadline : Nat) (t : Str) : Str :=
  { t with phase := ph, began := b, deadline := deadline }

/-- A string enters a state and a phase; openings are charged at `i`. -/
def enterStr (s : State) (k : Nat) (i : Rat) (st : StrState) (ph : Phase) (deadline : Nat) (cause : Option Cause) : State :=
  let b := s.bat.num
  let old := strState s k
  let s := changeStr s k i (fun t =>
    let t := startPhase b ph deadline t
    { t with
      st := st, cause := cause.getD t.cause, ramp := false, rampAck := false
      preOn := if ph == .overlap then t.preOn else false
      openAt := if st == .opened then some b else none, weldRun := 0, clearRun := 0, holdHigh := !lowCurrent s k, lowRun := 0 })
  logStr s k old

/-- An opening at once into Open (R227). -/
def openAtOnce (s : State) (k : Nat) (i : Rat) (c : Cause) : State := enterStr s k i .opened .idle 0 (some c)

/-- A string enters Lockout (R215 ranks 1 and 2, R232); one that is there stays as it is. -/
def lockStr (s : State) (k : Nat) (i : Rat) (c : Cause) : State :=
  if strState s k == .lockout then s else enterStr s k i .lockout .locked 0 (some c)

/-! ## Join figures (R225) -/

/-- Another string is Closed or in Standstill. -/
def others (s : State) (k : Nat) : List Nat :=
  (strs s).filter (fun j => j != k && (strState s j == .closed || strState s j == .standstill))

/-- ΔV of a joining string [V]. -/
def joinDv (s : State) (k : Nat) : Rat := vString s k - vLink s k

/-- The window ΔV_j [V]: I_perm × (R_s + R_p). -/
def joinWindow (s : State) (k : Nat) : Rat :=
  let o := others s k
  let out := decide (0 < joinDv s k)
  let ls : Rat := mkRat (slimOf s k (if out then 3 else 0)) 10
  let lp : Rat := mkRat (sumN (o.map (fun j => slimOf s j (if out then 0 else 3)))) 10
  let own := minR ((strRec s k).inrush : Rat) ls
  let perm := if o.isEmpty then own else minR own lp
  let g := sumR (o.map (fun j => let r := rStr s j; if r = 0 then 0 else 1 / r))
  let rp : Rat := if g = 0 then 0 else 1 / g
  perm * (rStr s k + rp)

/-- RDG_JOIN's values of a batten are not computed yet (R239). -/
def joinClear (s : State) (k : Nat) : State := modStr s k (fun t => { t with dVj := none })

/-- RDG_JOIN's values of a batten, where they are due: of an Open string beside a live one, and of one in JOIN WAIT (R225,
R239). -/
def joinFigures (s : State) (k : Nat) : State :=
  let t := strOf s k
  if strValid s k && ((t.st == .opened && !(others s k).isEmpty) || t.phase == .joinWait) then
    modStr s k (fun t => { t with dV := joinDv s k, dVj := some (joinWindow s k) })
  else s

/-! ## Progress of the phases (R216, R223 to R231) -/

/-- Battens since the phase began. -/
def inPhase (s : State) (k : Nat) : Nat := s.bat.num - (strOf s k).began

/-- Closed, OVERLAP: main-positive on; a precharge that reaches Closed ends the run of failures (R216, R224). -/
def toOverlap (s : State) (k : Nat) (preOn : Bool) : State :=
  let s := modStr s k (fun t => { t with preFails := 0, preOn := preOn })
  enterStr s k (iString s k) .closed .overlap (pullBattens s k 1) none

/-- The third passing join test closes the string (R225). -/
def joinPass (s : State) (k : Nat) : State :=
  let t := strOf s k
  if t.phase == .joinWait && 3 ≤ t.joinRun then toOverlap s k false else s

/-- The wait reaches PRE_WINDOW (R225). -/
def joinTimeout (s : State) (k : Nat) : State :=
  if (strOf s k).phase == .joinWait && (strRec s k).preWindow ≤ inPhase s k then
    openAtOnce s k (iString s k) .joinTimeout
  else s

/-- The join test of a batten passes (R225). -/
def joinTest (s : State) (k : Nat) : Bool := strValid s k && decide (absR (joinDv s k) ≤ joinWindow s k)

/-- The wait reaches PRE_WINDOW in a batten that does not complete the three passing tests (R225). -/
def joinTimedOut (s : State) (k : Nat) : Bool :=
  let t := strOf s k
  t.phase == .joinWait && (strRec s k).preWindow ≤ inPhase s k && !(joinTest s k && 2 ≤ t.joinRun)

/-- JOIN WAIT's batten: the test, then the wait's limit (R225). -/
def joinStep (s : State) (k : Nat) : State :=
  let pass := joinTest s k
  let s := modStr s k (fun t => { t with joinRun := if pass then t.joinRun + 1 else 0 })
  let s := joinFigures s k
  joinTimeout (joinPass s k) k

/-- CHARGING begins at bB: V0, V_s, n_fast and n_slow (R223). -/
def toCharging (s : State) (k : Nat) : State :=
  let r := strRec s k
  let v0 := vLink s k
  let vs := vString s k
  let tau : Rat := mkRat (r.preRes * r.linkCap) 10000
  let te := tau * lnR ((vs - v0) / (vs / 20))
  let tol : Rat := mkRat r.preTol 100
  let slow := min r.preWindow (pullBattens s k 2 + (ceilR ((1 + tol) * te)).toNat)
  modStr s k (fun t =>
    { startPhase s.bat.num .charging slow t with
      bB := s.bat.num, v0 := v0, vS := vs, nFast := (1 - tol) * te, nSlow := slow })

/-- P_MN battens have passed (R216, R223). -/
def mnSettled (s : State) (k : Nat) : State :=
  let t := strOf s k
  if t.phase != .mnSettle || inPhase s k < pullBattens s k 0 then s
  else
    let wait := fun (s : State) =>
      joinStep (modStr s k (fun t =>
        { startPhase s.bat.num .joinWait (strRec s k).preWindow t with bB := s.bat.num, joinRun := 0 })) k
    if t.joinMode then wait s
    else if !strValid s k || decide (vString s k ≤ 0) then openAtOnce s k (iString s k) .prechargeVoltage
    else if vString s k ≤ 2 * vLink s k then wait s
    else toCharging s k

/-- V_link stands at 95 % of V_s at this edge (R223); an invalid sample shows no V_link (log entry 17). -/
def at95 (s : State) (k : Nat) : Bool := strValid s k && decide ((strOf s k).vS * 19 / 20 ≤ vLink s k)

/-- What this batten finds of a precharge: FAST at the first edge at 95 %, or SLOW where none has come by bB + n_slow
(R223). -/
def prechargeCause (s : State) (k : Nat) : Option Cause :=
  let t := strOf s k
  let n := s.bat.num - t.bB
  if t.phase != .charging then none
  else if at95 s k then (if (n : Rat) < t.nFast then some .prechargeFast else none)
  else if t.nSlow ≤ n then some .prechargeSlow
  else none

/-- The third failure in a row (R224). -/
def prechargeRepeats (s : State) (k : Nat) : Bool := (prechargeCause s k).isSome && 2 ≤ (strOf s k).preFails

/-- A precharge found FAST or SLOW: the cooldown, and the run of failures, which its third ends (R224). -/
def prechargeCount (s : State) (k : Nat) : State :=
  if (prechargeCause s k).isNone then s
  else
    let n := (strOf s k).preFails + 1
    modStr s k (fun t => { t with cooldown := some (s.bat.num + 30000), preFails := if 3 ≤ n then 0 else n })

/-- A precharge found FAST or SLOW opens the string, the third in a row locks it out (R223, R224). -/
def prechargeFail (s : State) (k : Nat) : State :=
  match prechargeCause s k with
  | none => s
  | some c =>
    let t := prechargeCount s k
    if prechargeRepeats s k then lockStr t k (iString s k) .prechargeRepeated else openAtOnce t k (iString s k) c

/-- The first edge at 95 %: FAST, or Closed (R223). -/
def reached95 (s : State) (k : Nat) : State :=
  if (strOf s k).phase != .charging || !at95 s k then s
  else if (prechargeCause s k).isSome then prechargeFail s k
  else toOverlap s k true

/-- No such edge by bB + n_slow (R223). -/
def prechargeSlow (s : State) (k : Nat) : State := if prechargeCause s k == some .prechargeSlow then prechargeFail s k else s

/-- P_MP battens have passed: RUN, or HOLD with a Standstill cause present (R216, R230). -/
def overlapDone (s : State) (k : Nat) : State :=
  let t := strOf s k
  if t.phase != .overlap || inPhase s k < pullBattens s k 1 then s
  else if standstillCause t then
    let c : Cause := if t.stale then .limitsStale else if t.mismatch then .coreMismatch else .thermal
    enterStr s k (iString s k) .standstill .hold 0 (some c)
  else changeStr s k (iString s k) (fun t => { startPhase s.bat.num .run 0 t with preOn := false })

/-- The ramp's end: the first coil-off intent of OPEN_ORDER (R228). -/
def endRamp (s : State) (k : Nat) (byDeadline : Bool) : State :=
  let s := if byDeadline then
      { s with rdg := { s.rdg with rampTimeouts := satAdd 16 s.rdg.rampTimeouts 1 } }
    else s
  if (strRec s k).openOrder = 2 then enterStr s k (iString s k) .opened .idle 0 none
  else changeStr s k (iString s k) (fun t =>
    { startPhase s.bat.num .sequence 20 t with ramp := false, rampAck := false })

/-- The ramp ends on the second low batten, or at its deadline (R228). -/
def rampEnd (s : State) (k : Nat) : State :=
  let t := strOf s k
  if t.phase != .ramp then s
  else if 2 ≤ t.lowRun then endRamp s k false
  else if t.bR + (strRec s k).rampMs ≤ s.bat.num then endRamp s k true
  else s

/-- No RAMP ACK by bR + 20 (R228). -/
def rampUnack (s : State) (k : Nat) : State :=
  let t := strOf s k
  if t.phase == .ramp && t.ramp && t.bR + 20 ≤ s.bat.num && !t.rampAck && !t.unackLogged then
    logEv (modStr s k (fun t => { t with unackLogged := true })) (96 + k) 7 0
  else s

/-- A ramp begins for a soft cause (R228); with RAMP_MS 0 it ends in the same batten and makes no request. -/
def beginRamp (s : State) (k : Nat) (c : Cause) : State :=
  let ms := (strRec s k).rampMs
  let s := changeStr s k (iString s k) (fun t =>
    { startPhase s.bat.num .ramp ms t with
      cause := c, ramp := ms != 0, rampAck := false, unackLogged := false, bR := s.bat.num
      lowRun := if lowCurrent s k then 1 else 0, preOn := false })
  if ms = 0 then endRamp s k false else s

/-- The ramp's batten: the count of low battens, the missing acknowledgement, the end. -/
def rampStep (s : State) (k : Nat) : State :=
  let s := modStr s k (fun t => { t with lowRun := if lowCurrent s k then t.lowRun + 1 else 0 })
  rampEnd (rampUnack s k) k

/-- 20 battens after the first coil-off intent the second contactor opens (R216, R228). -/
def sequenceDone (s : State) (k : Nat) : State :=
  if (strOf s k).phase == .sequence && 20 ≤ inPhase s k then enterStr s k (iString s k) .opened .idle 0 none else s

/-- Every Standstill cause has been clear for one full course, at the batten 0 that ends it (R230). -/
def holdClear (s : State) (k : Nat) : State :=
  let t := strOf s k
  if t.phase == .hold && s.bat.num % 10 = 0 && 10 ≤ t.clearRun && !standstillCause t then
    enterStr s k (iString s k) .closed .run 0 none
  else s

/-- HOLD's batten: the return to RUN, then the count of clear evaluations of the running course (R230). -/
def holdStep (s : State) (k : Nat) : State :=
  let s := holdClear s k
  if (strOf s k).phase != .hold then s
  else modStr s k (fun t =>
    let n := if s.bat.num % 10 = 0 then 0 else t.clearRun
    { t with clearRun := if standstillCause t then 0 else if s.bat.num % 10 = 0 || 0 < n then n + 1 else 0 })

/-- The battens of HOLD in which STANDSTILL CURRENT looks at the current, its entry's the first: RAMP_MS, or the entry's alone
for RAMP_MS 0 (R226; log entry 38). -/
def holdWindow (s : State) (k : Nat) : Nat := max 1 (strRec s k).rampMs

/-- Current above I_zero in every batten of the window of HOLD, which this batten ends or has passed (R226). -/
def holdCurrent (s : State) (k : Nat) : Bool :=
  let t := strOf s k
  t.phase == .hold && t.holdHigh && holdWindow s k ≤ inPhase s k + 1 && (holdWindow s k ≤ inPhase s k || !lowCurrent s k)

/-- STANDSTILL CURRENT opens the string at once. -/
def standstillOpen (s : State) (k : Nat) : State :=
  if holdCurrent s k then openAtOnce s k (iString s k) .standstillCurrent else s

/-- A string of the orderly stop has reached its opening stage (R406). -/
def thermalDue (s : State) (k : Nat) : Bool :=
  s.pwr.stop != 0 && strState s k == .standstill
    && (2 ≤ (strOf s k).stopLow || s.pwr.shutdownAt + 2000 ≤ s.bat.num)

/-- THERMAL SHUTDOWN opens the string at once (R406). -/
def thermalOpen (s : State) (k : Nat) : State :=
  if thermalDue s k then openAtOnce s k (iString s k) .thermalShutdown else s

/-- Ten consecutive battens above I_zero through an Open string (R231). -/
def weldLock (s : State) (k : Nat) : State :=
  if strState s k == .opened && 10 ≤ (strOf s k).weldRun then lockStr s k (iString s k) .weld else s

/-- The count of WELD, from 50 battens after the evaluation that entered Open (R231). -/
def weldCount (s : State) (k : Nat) : State :=
  let t := strOf s k
  match t.openAt with
  | some o =>
    if t.st == .opened && o + 50 ≤ s.bat.num then
      modStr s k (fun t => { t with weldRun := if lowCurrent s k then 0 else t.weldRun + 1 })
    else modStr s k (fun t => { t with weldRun := 0 })
  | none => s

/-! ## Persistence (R226) -/

/-- PERSIST of a string: the smallest among its chemistries (R226). -/
def persistOf (s : State) (k : Nat) : Nat :=
  ((strPorts s k).map (fun p => (modelOf s (portRec s p).chem).persist)).foldl min 65535

/-- T_hot of a cell [°C] (R180). -/
def tHot (s : State) (c : Nat) : Option Rat :=
  let r := vget s.tha.cells c
  let e := estCell s c
  let ts := (if e.init then [e.tc] else [])
    ++ (match r.tmeas with
        | some t => if s.bat.num ≤ r.tmeasAt + 100 then [mkRat t 10] else []
        | none => [])
    ++ (match r.tcore with
        | some t => if (vget s.est.imp c).disagree then [] else [mkRat t 10]
        | none => [])
  match ts with
  | [] => none
  | t :: l => some (l.foldl maxR t)

/-- The string's cells that take part in the counts: neither stale nor held (R226). -/
def liveCells (s : State) (k : Nat) : List Nat :=
  (cellsOfStr s k).filter (fun c => !flagOf s c 0 && !(vget s.tha.cells c).held)

/-- A cell's VLAST lies beyond V_MAX or below V_MIN. -/
def cellVoltBreach (s : State) (c : Nat) : Bool :=
  let v := (vget s.tha.cells c).vlast
  let m := cellModel s c
  m.vMax < v || v < m.vMin

/-- A cell's T_hot lies above T_MAX. -/
def cellTempBreach (s : State) (c : Nat) : Bool :=
  match tHot s c with
  | some t => decide (mkRat (cellModel s c).tMax 10 < t)
  | none => false

/-- A voltage breach among the cells that take part in the counts (R226). -/
def voltBreach (s : State) (k : Nat) : Bool := (liveCells s k).any (cellVoltBreach s)

/-- A temperature breach among the cells that take part in the counts (R226). -/
def tempBreach (s : State) (k : Nat) : Bool := (liveCells s k).any (cellTempBreach s)

/-- The current lies over 1.05 × L + 2 A in RUN, L with the ceiling of R220 (R226). -/
def currentBreach (s : State) (k : Nat) : Bool :=
  let t := strOf s k
  let i := iString s k
  let out := decide (0 < i)
  let l : Rat := mkRat (slimOf s k (if out then 3 else 0)) 10
  let l := match (if out then t.ceilDis else t.ceilChg) with
    | some c => minR l (c : Rat)
    | none => l
  t.phase == .run && decide (l * 21 / 20 + 2 < absR i)

/-- One batten of the persistence counts. -/
def persistCount (s : State) (k : Nat) : State :=
  let v := voltBreach s k
  let h := tempBreach s k
  let c := currentBreach s k
  modStr s k (fun t => { t with
    cntV := if v then t.cntV + 1 else 0, cntT := if h then t.cntT + 1 else 0, cntI := if c then t.cntI + 1 else 0 })

/-- A count has reached PERSIST. -/
def persists (s : State) (k n : Nat) : Bool := 0 < n && persistOf s k ≤ n

/-- The Lockout cause of a string's counts (R226, rank 2). -/
def countLock (s : State) (k : Nat) : Option Cause :=
  let t := strOf s k
  if persists s k t.cntV then some .cellVoltage
  else if persists s k t.cntT then some .cellTemperature
  else if t.st == .opened && 10 ≤ t.weldRun then some .weld
  else none

/-- The Lockout cause of a string: of its counts, or a precharge that fails for the third time in a row (R224, R226, rank 2). -/
def lockCause (s : State) (k : Nat) : Option Cause :=
  (countLock s k).or (if prechargeRepeats s k then some .prechargeRepeated else none)

/-- A channel's fault bits as agreed in this batten, placed as in EAV_CHn (R274, R307). -/
def agreedFaults (s : State) (n : Nat) : Word := (agreedFor s (.channelFaults (Fin.ofNat 24 n))).getD 0

/-- A coil channel of the string shows a short, an over-temperature, a short to supply or a latch (R226, R300). -/
def coilFault (s : State) (k : Nat) : Bool :=
  [0, 1, 2].any (fun r =>
    let c := vget s.eav.chans (coilOf s k r)
    let w := agreedFaults s (coilOf s k r)
    c.short || c.overTemp || c.toSupply || c.latched || w &&& 0xCC000#32 != 0)

/-- A coil channel of the string shows a failed open-load test (R222, R300). -/
def coilOpenLoad (s : State) (k : Nat) : Bool :=
  [0, 1, 2].any (fun r =>
    let c := vget s.eav.chans (coilOf s k r)
    c.openOn || c.openOff || agreedFaults s (coilOf s k r) &&& 0x30000#32 != 0)

/-- The soft causes of a live string, lowest code first, an OPEN that wins among them (R226). -/
def softCauses (s : State) (k : Nat) (openWins : Bool) : List Cause :=
  let t := strOf s k
  (if openWins then [.openOrder] else [])
    ++ (if allInService s k then [] else [.portLost])
    ++ (if (cellsOfStr s k).any (cellBad s) then [.measurement] else [])
    ++ (if t.phase == .run && persists s k t.cntI then [.currentOverLimit] else [])
    ++ (if s.rdg.insOpenNow then [.insulation] else [])

/-- The causes of a live string that open at once, lowest code first (R226). -/
def hardCauses (s : State) (k : Nat) : List Cause :=
  (if holdCurrent s k then [.standstillCurrent] else [])
    ++ (if thermalDue s k then [.thermalShutdown] else [])
    ++ (if coilFault s k then [.coilFault] else [])
    ++ (prechargeCause s k).toList
    ++ (if joinTimedOut s k then [.joinTimeout] else [])

/-- The Standstill causes of a string, lowest code first. -/
def stillCauses (t : Str) : List Cause :=
  (if t.stale then [.limitsStale] else []) ++ (if t.mismatch then [.coreMismatch] else [])
    ++ (if t.thermal then [.thermal] else [])

/-- The cause of the lowest code. -/
def lowestCause (l : List Cause) : Option Cause :=
  match l with
  | [] => none
  | c :: r => some (r.foldl (fun a b => if causeCode b < causeCode a then b else a) c)

/-- PERSISTENCE_REACHED: a count that stands at PERSIST raises its cause (R226). -/
def persistReached (s : State) (k : Nat) : State :=
  let t := strOf s k
  if persists s k t.cntV then lockStr s k (iString s k) .cellVoltage
  else if persists s k t.cntT then lockStr s k (iString s k) .cellTemperature
  else if t.phase == .run && persists s k t.cntI then beginRamp s k .currentOverLimit
  else s

/-- The standing causes of HOLD, of the stop and of the counts are refreshed for a batten (R14, R226, R230, R406). -/
def gatherStr (s : State) (k : Nat) : State :=
  let s := persistCount (weldCount s k) k
  let low := lowCurrent s k
  modStr s k (fun t => { t with
    stale := setStale s, thermal := s.pwr.stop != 0
    stopLow := if s.pwr.stop != 0 && low then t.stopLow + 1 else 0
    holdHigh := t.holdHigh && (t.phase != .hold || holdWindow s k ≤ inPhase s k || !low) })

/-! ## The expiries of Ridge's own counters -/

/-- The cooldown ends (R224). -/
def cooldownEnd (s : State) (k : Nat) : State :=
  match (strOf s k).cooldown with
  | some e => if e ≤ s.bat.num then modStr s k (fun t => { t with cooldown := none }) else s
  | none => s

/-- The override lapses (R235). -/
def overrideEnd (s : State) (k : Nat) : State :=
  match (strOf s k).overrideTo with
  | some e => if e ≤ s.bat.num then modStr s k (fun t => { t with overrideTo := none }) else s
  | none => s

/-- The reset window closes 10 000 battens after the press (R233). -/
def resetWindowEnd (s : State) : State :=
  match s.rdg.resetAt with
  | some t => if t + 10000 < s.bat.num then { s with rdg := { s.rdg with resetAt := none } } else s
  | none => s

/-! ## What every change of the strings brings -/

/-- The strings that left Precharge, Closed or Standstill for Open or Lockout between two states (R211). -/
def openedMask (a b : State) : BitVec 4 :=
  maskOf 4 (fun k => hasStr b k && strLive (strOf a k) && !strLive (strOf b k))

/-- A string entered Lockout between two states. -/
def newLockout (a b : State) : Bool := (strs b).any (fun k => strState a k != .lockout && strState b k == .lockout)

/-- The plant state's event (R412) and register. -/
def plantEvent (s : State) : State :=
  let p := plantState s
  if p = s.rdg.plant then s else logEv { s with rdg := { s.rdg with plant := p } } 101 1 p

/-- A string that leaves Open restarts the quiet count (R384) and cancels a Ship order (R390). -/
def quietRestart (a b : State) : State :=
  if (strs b).any (fun k => strState a k == .opened && strState b k != .opened) then
    endShip { b with pwr := { b.pwr with quietMs := 0 } }
  else b

/-- The stages 2 and 3 of the orderly stop: a string has reached its opening; every string is Open or in Lockout, and
the commits begin (R406). -/
def stopStage (s : State) : State :=
  if s.pwr.stop = 0 || 2 < s.pwr.stop then s
  else if (strs s).all (fun k => strState s k == .opened || strState s k == .lockout) then
    beginStop { s with pwr := { s.pwr with stop := 3 } }
  else if (strs s).any (fun k => (strOf s k).cause == .thermalShutdown && strState s k == .opened) then
    { s with pwr := { s.pwr with stop := 2 } }
  else s

/-- What follows a change of the strings from `a`: coils, the fault segment's trigger, a pending reload's cancellation
by a Lockout (R80, R211, R216, R384). -/
def settle (a s : State) : State :=
  let s := { s with rdg := { s.rdg with coils := coilMask s } }
  let s := stopStage (quietRestart a (faultTrigger s (openedMask a s)))
  if newLockout a s then cancelReload s 0 else s

/-- Ridge works: Operating, the cores running, the string configured. -/
def ridgeRuns (s : State) (k : Nat) : Bool := operating s && coresRun s && hasStr s k

/-- One counter's end as a command of its own: it acts where its condition stands (log entry 18). -/
def ridgeRow (f : State → Nat → State) (k : Nat) (s : State) : State :=
  if ridgeRuns s k then plantEvent (settle s (f s k)) else s

/-- MN_SETTLE_EXPIRY. -/
def execMnSettleExpiry (k : Fin 4) (s : State) : Out := .next (ridgeRow mnSettled k s)
/-- PRECHARGE_95_REACHED. -/
def execPrecharge95Reached (k : Fin 4) (s : State) : Out := .next (ridgeRow reached95 k s)
/-- PRECHARGE_SLOW_EXPIRY. -/
def execPrechargeSlowExpiry (k : Fin 4) (s : State) : Out := .next (ridgeRow prechargeSlow k s)
/-- JOIN_TEST_PASS. -/
def execJoinTestPass (k : Fin 4) (s : State) : Out := .next (ridgeRow joinPass k s)
/-- JOIN_TIMEOUT: the join test comes before the wait's limit (R225). -/
def execJoinTimeout (k : Fin 4) (s : State) : Out := .next (ridgeRow (fun s k => joinTimeout (joinPass s k) k) k s)
/-- OVERLAP_EXPIRY. -/
def execOverlapExpiry (k : Fin 4) (s : State) : Out := .next (ridgeRow overlapDone k s)
/-- RAMP_END. -/
def execRampEnd (k : Fin 4) (s : State) : Out := .next (ridgeRow rampEnd k s)
/-- RAMP_UNACKNOWLEDGED. -/
def execRampUnacknowledged (k : Fin 4) (s : State) : Out := .next (ridgeRow rampUnack k s)
/-- SEQUENCE_EXPIRY. -/
def execSequenceExpiry (k : Fin 4) (s : State) : Out := .next (ridgeRow sequenceDone k s)
/-- PERSISTENCE_REACHED. -/
def execPersistenceReached (k : Fin 4) (s : State) : Out := .next (ridgeRow persistReached k s)
/-- STANDSTILL_CURRENT. -/
def execStandstillCurrent (k : Fin 4) (s : State) : Out := .next (ridgeRow standstillOpen k s)
/-- STANDSTILL_CLEAR_COURSE. -/
def execStandstillClearCourse (k : Fin 4) (s : State) : Out := .next (ridgeRow holdClear k s)
/-- WELD. -/
def execWeld (k : Fin 4) (s : State) : Out := .next (ridgeRow weldLock k s)
/-- PRECHARGE_COOLDOWN_EXPIRY. -/
def execPrechargeCooldownExpiry (k : Fin 4) (s : State) : Out := .next (ridgeRow cooldownEnd k s)
/-- WEAR_OVERRIDE_EXPIRY. -/
def execWearOverrideExpiry (k : Fin 4) (s : State) : Out := .next (ridgeRow overrideEnd k s)
/-- LOCKOUT_RESET_WINDOW_EXPIRY. -/
def execLockoutResetWindowExpiry (s : State) : Out := .next (resetWindowEnd s)
/-- THERMAL_STOP_OPENING. -/
def execThermalStopOpening (k : Fin 4) (s : State) : Out := .next (ridgeRow thermalOpen k s)

end Sys2Proof.Machine
end

