-- ==== Sys2Proof/Machine/RidgeOrders.lean ====
section
/-! DEFINITION. Ridge's orders and its evaluation (R214, R215, R218 to R222, R229, R233, R235, R238, R239). -/

namespace Sys2Proof.Machine

/-! ## Names and codes (R218, R221) -/

/-- The code of a result (R221). -/
def resultCode : OrderResult → Nat
  | .done => 0x00 | .notPermitted => 0x01 | .notConfigured => 0x02 | .notOperating => 0x03 | .lostToOpen => 0x04
  | .lostToLowerLimit => 0x05 | .lostOnRank => 0x06 | .already => 0x07 | .lockout => 0x08 | .standstill => 0x09
  | .opening => 0x0A | .reloadPending => 0x0B | .splitMode => 0x0C | .proofPending => 0x0D | .portNotInService => 0x0E
  | .wireTestPending => 0x0F | .limitsPending => 0x10 | .limitsStale => 0x11 | .measurement => 0x12
  | .vergeInvalid => 0x13 | .breachPresent => 0x14 | .insulation => 0x15 | .thermal => 0x16 | .coilFault => 0x17
  | .contactorIdentity => 0x18 | .contactorWorn => 0x19 | .prechargeCooldown => 0x1A | .prechargeBusy => 0x1B
  | .noLockout => 0x1C | .resetSequence => 0x1D | .sparLatched => 0x1E | .noRamp => 0x1F | .notAddressed => 0xFF

/-- The code of an order (R218). -/
def orderCode : OrderKind → Nat
  | .close => 1 | .opening => 2 | .limit => 3 | .limitClear => 4 | .rampAck => 5 | .lockoutAck => 6 | .wearOverride => 7
  | .other c => c.toNat

/-- The role of an order's source; 6 for LOCAL. -/
def sourceRole (s : State) (o : Order) : Nat :=
  match o.src with
  | some n => sessRole s n.val
  | none => 6

/-- Who may send an order (R218). -/
def orderPermitted (k : OrderKind) (role : Nat) : Bool :=
  match k with
  | .close => role == roleDISPATCH || role == roleSUPERVISE || role == 6
  | .opening => role == rolePROTECT || role == roleDISPATCH || role == roleSUPERVISE
  | .limit => role == roleDISPATCH
  | .limitClear => role == roleDISPATCH
  | .rampAck => role == roleCONVERTER
  | .lockoutAck => role == roleMAINTAIN
  | .wearOverride => role == roleMAINTAIN
  | .other _ => false

/-- The place of a role in R219's ranking, PROTECT first. -/
def roleRank (role : Nat) : Nat :=
  if role = rolePROTECT then 0 else if role = 6 then 1 else if role = roleSUPERVISE then 2
  else if role = roleDISPATCH then 3 else if role = roleMAINTAIN then 4 else 5

/-- The ranking of an order: role, then the lower session. -/
def orderRank (s : State) (o : Order) : Nat := 16 * roleRank (sourceRole s o) + (o.src.map (·.val)).getD 8

/-- The winner's code of RDG_RESB: session, or LOCAL. -/
def winnerCode (o : Order) : Nat := (o.src.map (·.val)).getD 8

/-! ## The status word (R214, R394) -/

/-- The Spar status word of slot 5: the agreed value, or what the receive register holds; none when it is missing. -/
def ridgeWord (s : State) : Option Word :=
  if s.spar.fresh then some (s.cpr.agreedWord.getD s.spar.presented) else none

/-- The state field of a status word. -/
def wordState (w : Word) : Nat := w.toNat % 8

/-- Rank 1 of R215: TRIPPED, START or UNCONFIGURED shown, or no word. -/
def sparTripSeen (w : Option Word) : Bool :=
  match w with
  | none => true
  | some w => wordState w == 4 || wordState w == 0 || wordState w == 1

/-- What a port's fault tone trip shows (R131); of several findings of one frame OV goes first, then UV, then SUPPLY (DEDUCED,
log entry 64). -/
def toneCause (s : State) (p : Nat) : Nat :=
  match frameOf (portOf s p) s.bat.num with
  | none => 4
  | some m =>
    if m.status.getLsbD 16 then 0 else if m.status.getLsbD 17 then 1 else if !m.status.getLsbD 18 then 2 else 3

/-- The Spar cause events and the fault tone trips an evaluation first sees, and SPR_FIRST (R260, R262, R414). -/
def sparEvents (s : State) (w : Word) : State :=
  let causes : BitVec 16 := w.extractLsb' 16 16
  let new := causes &&& ~~~s.rdg.seenCauses
  let first := s.rdg.seenCauses == 0 && causes != 0
  let s := forEach (maskBits new) (fun s n =>
    logEv s (56 + n) 1 (b2n (first && n == s.spar.wordFirst) + 65536 * causes.toNat)) s
  let tones : Word := if causes.getLsbD 8 then s.spar.wordTones else 0
  let s := forEach (maskBits (tones &&& ~~~s.rdg.seenTones)) (fun s p => logEv s p 9 (toneCause s p)) s
  { s with
    rdg := { s.rdg with seenCauses := causes, seenTones := tones }
    spar := if first then
        { s.spar with firstCause := s.spar.wordFirst, firstSeen := true, firstBatten := s.bat.num % 2 ^ 24 }
      else s.spar }

/-! ## CLOSE (R222) -/

/-- A live string's refusal by an opening cause in the batten (R219 step 3). -/
def causeRefusal : Cause → Option OrderResult
  | .portLost => some .portNotInService
  | .measurement => some .measurement
  | .insulation => some .insulation
  | .thermalShutdown => some .thermal
  | .coilFault => some .coilFault
  | .prechargeFast => some .prechargeCooldown
  | .prechargeSlow => some .prechargeCooldown
  | .limitsStale => some .limitsStale
  | .thermal => some .thermal
  | _ => none

/-- A contactor of the string has consumed its life (R235). -/
def wornOut (s : State) (k : Nat) : Bool := [0, 1, 2].any (fun r => 1000000 ≤ (vget s.led.wear (3 * k + r)).consumed)

/-- The first condition of R222 that a CLOSE for string `k` fails. -/
def closeRefusal (s : State) (k : Nat) (w : Option Word) : Option OrderResult :=
  let t := strOf s k
  if t.st != .opened then
    some (if t.st == .lockout then .lockout else if t.phase == .sequence then .opening
      else if t.st == .standstill then .standstill else .already)
  else if s.img.stage == .reloadPending then some .reloadPending
  else if s.cpr.coupling != .joined then some .splitMode
  else if w.any (fun w => wordState w == 2) then some .proofPending
  else if !allInService s k then some .portNotInService
  else if (cellsOfStr s k).any (fun c => flagOf s c 7) then some .wireTestPending
  else if !(s.est.force.any (fun f => f.allIn.getLsbD k)) then some .limitsPending
  else if setStale s then some .limitsStale
  else if (cellsOfStr s k).any (cellBad s) then some .measurement
  else if !strValid s k then some .vergeInvalid
  else if (cellsOfStr s k).any (fun c => cellVoltBreach s c || cellTempBreach s c) then some .breachPresent
  else if s.rdg.insHeld then some .insulation
  else if s.pwr.level == 3 || s.pwr.stop != 0 then some .thermal
  else if coilFault s k || coilOpenLoad s k then some .coilFault
  else if [0, 1, 2].any (fun r => (vget s.led.wear (3 * k + r)).differs) then some .contactorIdentity
  else if wornOut s k && t.overrideTo.isNone then some .contactorWorn
  else if t.cooldown.isSome then some .prechargeCooldown
  else none

/-- A CLOSE that wins moves the string to Precharge; an armed override is used up (R222, R235). -/
def toPrecharge (s : State) (k : Nat) : State :=
  let s :=
    if (strOf s k).overrideTo.isSome then
      let s := forEach [0, 1, 2] (fun s r =>
        let j := 3 * k + r
        if 1000000 ≤ (vget s.led.wear j).consumed then
          ledgerDue { s with led := { s.led with wear := vmod s.led.wear j (fun x =>
            { x with overrides := satAdd 16 x.overrides 1 }) } } (.contactor j)
        else s) s
      modStr s k (fun t => { t with overrideTo := none })
    else s
  let join := !(others s k).isEmpty
  let s := modStr s k (fun t => { t with joinMode := join, joinRun := 0 })
  enterStr s k (iString s k) .precharge .mnSettle (pullBattens s k 0) none

/-! ## Arbitration (R219) -/

/-- An order addresses a configured string and is permitted: it takes part for that string (R219 step 1). -/
def takesPart (s : State) (o : Order) (k : Nat) : Bool :=
  hasStr s k && o.strings.getLsbD k && orderPermitted o.kind (sourceRole s o)

/-- The orders of a kind that take part for a string. -/
def ordersFor (s : State) (os : List Order) (kind : OrderKind) (k : Nat) : List Order :=
  os.filter (fun o => o.kind == kind && takesPart s o k)

/-- The highest-ranked of a list of orders (R219 step 6). -/
def topOrder (s : State) (l : List Order) : Option Order :=
  match l with
  | [] => none
  | o :: r => some (r.foldl (fun a b => if orderRank s b < orderRank s a then b else a) o)

/-- An OPEN wins for a string. -/
def openWins (s : State) (os : List Order) (k : Nat) : Bool := !(ordersFor s os .opening k).isEmpty

/-- A LIMIT's value, LIMIT CLEAR above any. -/
def limitValue (o : Order) : Nat := if o.kind == .limitClear then 65536 else o.value

/-- The LIMIT and LIMIT CLEAR orders of a string and direction. -/
def limitsFor (s : State) (os : List Order) (k : Nat) (dis : Bool) : List Order :=
  os.filter (fun o => (o.kind == .limit || o.kind == .limitClear) && o.discharge == dis && takesPart s o k)

/-- The lowest value among limits (R219 step 4). -/
def lowestLimit (l : List Order) : Option Nat :=
  match l with
  | [] => none
  | o :: r => some (r.foldl (fun a b => min a (limitValue b)) (limitValue o))

/-- A LOCKOUT ACK's outcome for a string (R233). -/
def ackResult (s : State) (w : Option Word) (k : Nat) : OrderResult :=
  if strState s k != .lockout then .noLockout
  else if sparTripSeen w then .sparLatched
  else match s.rdg.resetAt with
  | some t => if t < s.bat.num && s.bat.num ≤ t + 10000 then .done else .resetSequence
  | none => .resetSequence

/-- A lockout reset for the string is valid in this batten (R215 rank 3). -/
def resetValid (s : State) (os : List Order) (w : Option Word) (k : Nat) : Bool :=
  !(ordersFor s os .lockoutAck k).isEmpty && ackResult s w k == .done && (lockCause s k).isNone

/-- What every CLOSE for a string meets before the choice among strings: a result, or none where it passes (R219
steps 3 and 5, R215). -/
def closeOutcome (s : State) (os : List Order) (w : Option Word) (k : Nat) : Option OrderResult :=
  let t := strOf s k
  if openWins s os k then some .lostToOpen
  else if sparTripSeen w || (lockCause s k).isSome then some .lockout
  else
    let c := if strLive t then
        let still := if t.st == .precharge then stillCauses t else []
        (lowestCause (softCauses s k false ++ hardCauses s k ++ still)).bind causeRefusal
      else none
    match c with
    | some r => some r
    | none => closeRefusal s k w

/-- The string whose CLOSE enters Precharge: the lowest that passes while none is in Precharge (R219 step 5). -/
def closeWinner (s : State) (os : List Order) (w : Option Word) : Option Nat :=
  if (strs s).any (fun k => strState s k == .precharge) then none
  else (strs s).find? (fun k => !(ordersFor s os .close k).isEmpty && (closeOutcome s os w k).isNone)

/-- The result of a ranked order among its like: DONE, or LOST ON RANK with the winner (R219 step 6). -/
def rankResult (s : State) (l : List Order) (o : Order) : OrderResult × Nat :=
  match topOrder s l with
  | some top => if top.src == o.src then (.done, 15) else (.lostOnRank, winnerCode top)
  | none => (.done, 15)

/-- An order's result for one string, and the winner of a lost tie (R219 to R222, R233). -/
def orderResult (s : State) (os : List Order) (w : Option Word) (o : Order) (k : Nat) : OrderResult × Nat :=
  if !o.strings.getLsbD k then (.notAddressed, 15)
  else if !operating s then (.notOperating, 15)
  else if !orderPermitted o.kind (sourceRole s o) then (.notPermitted, 15)
  else if !hasStr s k then (.notConfigured, 15)
  else match o.kind with
  | .close =>
    match closeOutcome s os w k with
    | some r => (r, 15)
    | none => if closeWinner s os w == some k then rankResult s (ordersFor s os .close k) o else (.prechargeBusy, 15)
  | .opening => rankResult s (ordersFor s os .opening k) o
  | .limit =>
    let l := limitsFor s os k o.discharge
    if lowestLimit l == some (limitValue o) then
      rankResult s (l.filter (fun x => x.kind == .limit && x.value == o.value)) o
    else (.lostToLowerLimit, 15)
  | .limitClear =>
    if lowestLimit (limitsFor s os k o.discharge) == some (limitValue o) then (.done, 15) else (.lostToLowerLimit, 15)
  | .rampAck => if (strOf s k).ramp then (.done, 15) else (.noRamp, 15)
  | .lockoutAck =>
    let r := ackResult s w k
    if r == .done && (lockCause s k).isSome then (.lockout, 15) else (r, 15)
  | .wearOverride => (.done, 15)
  | .other _ => (.notPermitted, 15)

/-- An order's four result bytes; with no string addressed every byte is NOT CONFIGURED for a session, NOT ADDRESSED
for LOCAL (R239). -/
def orderResults (s : State) (os : List Order) (w : Option Word) (o : Order) : List OrderResult × Nat :=
  if o.strings == 0 then
    (List.replicate 4 (if o.src.isSome then .notConfigured else .notAddressed), 15)
  else
    let rs := (List.range 4).map (orderResult s os w o)
    (rs.map (·.1), ((rs.find? (fun r => r.2 != 15)).map (·.2)).getD 15)

/-- An order's results enter the registers (R239), its refused CLOSEs RDG_STR, and a session's order awaits its RESULT
(R325). Of two CLOSEs for one string refused at one edge RDG_STR shows the code of the one that arrived later (DESIGN
CHOICE, log entry 19: R239 does not say which is the last). -/
def answerOrder (s : State) (o : Order) (rs : List OrderResult) (win : Nat) : State :=
  let bad := ((List.range 4).filter (fun k => o.strings.getLsbD k && rs.getD k .notAddressed != .done)).length
  let s := { s with rdg := { s.rdg with notDone := satAdd 16 s.rdg.notDone bad } }
  let s :=
    if o.kind == .close then
      forEach (strs s) (fun s k =>
        let r := rs.getD k .notAddressed
        if r == .done || r == .notAddressed then s else modStr s k (fun t => { t with lastRefused := resultCode r })) s
    else s
  match o.src with
  | none => { s with rdg := { s.rdg with localRes := rs } }
  | some n =>
    let r : ResReg := { res := rs, code := orderCode o.kind, winner := win, batten := s.bat.num % 2 ^ 32 }
    let s := { s with rdg := { s.rdg with resA := vset s.rdg.resA n.val r } }
    if o.result then { s with hst := { s.hst with results := s.hst.results ++ [{ n := n, seq := o.seq, pool := o.pool }] } } else s

/-! ## One string's row (R215) -/

/-- I_s charged to an opening by Spar: of the edge before the trip; where the hold window had opened the contactors before, or
no trip is known, what the return after a core-pair reset finds, if it finds anything (R234). -/
def tripCurrent (s : State) (back : Option (Cause × Rat)) (k : Nat) : Rat :=
  let found := (back.map (·.2)).getD (iString s k)
  match s.spar.tripAt with
  | some t =>
    if s.rdg.expiredFirst && back.any (fun c => c.1 == .holdExpired) then found
    else if t = s.bat.num then iString s k else (strOf s k).lastI
  | none => found

/-- A standing ramp request is acknowledged, an override armed, a ceiling set: the orders that act beside the row
(R218, R220, R228, R235). -/
def besideRow (s : State) (os : List Order) (k : Nat) : State :=
  let s := if (strOf s k).ramp && !(ordersFor s os .rampAck k).isEmpty then
      modStr s k (fun t => { t with rampAck := true })
    else s
  let s := if (ordersFor s os .wearOverride k).isEmpty then s
    else modStr s k (fun t => { t with overrideTo := some (s.bat.num + 60000) })
  let put := fun (s : State) (dis : Bool) =>
    match lowestLimit (limitsFor s os k dis) with
    | none => s
    | some v =>
      let c := if v = 65536 then none else some v
      modStr s k (fun t => if dis then { t with ceilDis := c } else { t with ceilChg := c })
  put (put s false) true

/-- The phase's progress (rank 9). -/
def progress (s : State) (k : Nat) : State :=
  match (strOf s k).phase with
  | .mnSettle => mnSettled s k
  | .charging => reached95 s k
  | .joinWait => joinStep s k
  | .overlap => overlapDone s k
  | .ramp => rampStep s k
  | .sequence => sequenceDone s k
  | .hold => holdStep s k
  | _ => s

/-- What the first evaluation after a core-pair reset finds of a string, with the current its opening is charged at: a
live string whose hold window expired, or one in Precharge (R234, R237, R238). -/
def returnCause (s : State) (expired reclaim : Bool) (k : Nat) : Option (Cause × Rat) :=
  let t := strOf s k
  if !strLive t then none
  else if expired then some (.holdExpired, t.resetI.getD t.lastI)
  else if reclaim && t.st == .precharge then some (.coreReset, iString s k)
  else none

/-- The row of R215 that acts on a string. `os` and `w` are the batten's orders and status word; `back` what the return
after a core-pair reset finds; `win` the string whose CLOSE enters Precharge, as the evaluation began. A failed
precharge counts whichever row opens the string, but for a Spar trip and a return after a core-pair reset (R224;
DEDUCED, log entry 17). -/
def strRow (s : State) (os : List Order) (w : Option Word) (back : Option (Cause × Rat)) (reset : Bool) (win : Option Nat)
    (k : Nat) : State :=
  let t := strOf s k
  let soft := if strLive t then softCauses s k (openWins s os k) else []
  let hard := if strLive t then hardCauses s k else []
  let lock := if back.isSome then countLock s k else lockCause s k
  if sparTripSeen w then lockStr s k (tripCurrent s back k) .sparTrip
  else
  let s := if back.isSome then s else prechargeCount s k
  match lock with
  | some c => lockStr s k ((back.map (·.2)).getD (iString s k)) c
  | none =>
  match back with
  | some c => openAtOnce s k c.2 c.1
  | none =>
    if reset then enterStr s k 0 .opened .idle 0 none
    else if t.st == .precharge then
      match lowestCause (soft ++ hard ++ stillCauses t) with
      | some c => openAtOnce s k (iString s k) c
      | none => progress s k
    else match lowestCause hard with
    | some c => openAtOnce s k (iString s k) c
    | none =>
      match lowestCause soft with
      | some c => if t.phase == .ramp || t.phase == .sequence then progress s k else beginRamp s k c
      | none =>
        if t.phase == .run && standstillCause t then
          enterStr s k (iString s k) .standstill .hold 0 (lowestCause (stillCauses t))
        else if win == some k then toPrecharge s k
        else progress s k

/-- VERGE INVALID and VERGE VALID of a string (R359). -/
def vergeEvent (s : State) (k : Nat) : State :=
  let v := strValid s k
  let old := (strOf s k).prevValid
  let s := modStr s k (fun t => { t with prevValid := some v })
  if old == some (!v) then logEv s (96 + k) (if v then 6 else 5) 0 else s

/-! ## Insulation (R229, R364) -/

/-- A new insulation result judged, as this batten's agreement read returned it where one was made (R229, R273, R274), and the
warning's crossings noted with it (R364). -/
def insJudge (s : State) : State :=
  let open_ := s.vrg.cfg.insOpen
  if !s.vrg.newResult then s
  else
    let r := ((agreedFor s .insulation).map (·.toNat)).getD s.vrg.result
    let warn := s.vrg.cfg.insWarn != 0 && r < s.vrg.cfg.insWarn
    let evs := if warn == s.vrg.warned then [] else [(if warn then 1 else 2, r)]
    let below := open_ != 0 && r < open_
    let clear := if s.vrg.cfg.insWarn = 0 then open_ else s.vrg.cfg.insWarn
    let n := if below then s.rdg.insLow + 1 else 0
    { s with
      vrg := { s.vrg with newResult := false, warned := warn, insEvents := evs ++ s.vrg.insEvents }
      rdg := { s.rdg with
        insLow := n, insOpenNow := decide (2 ≤ n)
        insHeld := if below then true else if clear ≤ r then false else s.rdg.insHeld } }

/-- The insulation events of an evaluation (R364, R414). -/
def insEvent (s : State) : State :=
  forEach s.vrg.insEvents (fun s e => logEv s 100 e.1 e.2) { s with vrg := { s.vrg with insEvents := [] } }

/-! ## The evaluation (R214) -/

/-- The cause CORE MISMATCH is cleared at the reclaim (R238). -/
def clearMismatch (s : State) (reclaim : Bool) (k : Nat) : State :=
  modStr s k (fun t => { t with mismatch := t.mismatch && !reclaim })

/-- The current noted at a core-pair reset is used up at the reclaim. -/
def dropResetI (s : State) (reclaim : Bool) (k : Nat) : State :=
  modStr s k (fun t => { t with resetI := if reclaim then none else t.resetI })

/-- The actuation of a status word as a CLOSE from LOCAL (R214). -/
def localOrder (s : State) (w : Option Word) : List Order :=
  if w.any (fun w => w.getLsbD 5) then [⟨none, .close, s.rdg.localSel, false, 0, 0, false, false⟩] else []

/-- The agreed status word shows ARMED: the proofs after a changed image are complete, the comparison of R75 ends and the
ledger records the new digest (DEDUCED, log entry 29). -/
def proofsComplete (s : State) (w : Option Word) : State :=
  if s.img.changed && w.any (fun w => w.toNat % 8 == 3) then
    ledgerDue { s with
      img := { s.img with changed := false }
      led := { s.led with modDigest := s.cfg.digest, modSeq := s.cfg.sequence } } .module
  else s

/-- What an evaluation gathers before it arbitrates: Spar's causes, the insulation result, the strings' timers and counts
(R14, R214, R226, R231). -/
def ridgeGather (s : State) : State :=
  let reclaim := s.rdg.reclaim
  let s := match ridgeWord s with
    | some w => sparEvents s w
    | none => s
  let s := insJudge { s with rdg := { s.rdg with evaluated := true, latched := [], expired := false, reclaim := false } }
  let s := forEach (strs s) (fun s k => clearMismatch s reclaim k) s
  let s := forEach (strs s) (fun s k => overrideEnd (cooldownEnd s k) k) s
  forEach (strs s) gatherStr s

/-- Slot 5 (R214, R215). The rows of all strings are taken on the arbitration made when the evaluation begins;
each string's entries stand by their CODE (R414). -/
def ridgeEvaluate (s : State) : State :=
  let a := s
  let w := ridgeWord s
  let os := s.rdg.latched ++ localOrder s w
  let expired := s.rdg.expired
  let reclaim := s.rdg.reclaim
  let s := ridgeGather s
  let answers := os.map (fun o => (o, orderResults s os w o))
  let win := closeWinner s os w
  let resets := maskOf 4 (fun k => hasStr s k && resetValid s os w k)
  let s := forEach (strs s) (fun s k =>
    let a := s
    let s := vergeEvent s k
    let back := returnCause s expired reclaim k
    let s := joinFigures (joinClear s k) k
    orderNew a (joinFigures (dropResetI (strRow (besideRow s os k) os w back (resets.getLsbD k) win k) reclaim k) k)) s
  let s := forEach answers (fun s x => answerOrder s x.1 x.2.1 x.2.2) s
  let s := match w with
    | some w =>
      let s := sparAck s w
      if w.getLsbD 3 then { s with rdg := { s.rdg with resetAt := some s.bat.num } } else resetWindowEnd s
    | none => resetWindowEnd s
  let s := plantEvent (insEvent s)
  let s := if w.any (fun w => w.getLsbD 4) then logEv s 101 2 0 else s
  let s := if resets != 0 then logEv s 101 3 resets.toNat else s
  faultFrame (settle a (proofsComplete s w))

/-- Outside Operating the orders latched at the edge are answered with NOT OPERATING, and nothing else is evaluated
(R219 step 1). -/
def refuseLatched (s : State) : State :=
  let os := s.rdg.latched
  let s := { s with rdg := { s.rdg with latched := [] } }
  forEach os (fun s o =>
    let r := orderResults s os none o
    answerOrder s o r.1 r.2) s

/-- RIDGE_EVALUATION: slot 5, once per batten with the cores running; in Operating alone it has Ridge's work (R214,
R219, R236). -/
def execRidgeEvaluation (s : State) : Out :=
  if !slotsRun s || !slotNext s 5 then .next s
  else .next (if operating s then ridgeEvaluate (endSlot s 5) else refuseLatched (endSlot s 5))

/-! ## Orders as they arrive (R218, R325) -/

/-- An order of a session reaches Purlin before the edge: it is latched, at most one per session (R15, R218). -/
def latchOrder (s : State) (o : Order) : Option State :=
  if !operating s || !coresRun s || s.rdg.incoming.any (fun x => x.src == o.src) then none
  else some { s with
    rdg := { s.rdg with incoming := s.rdg.incoming ++ [o] }
    pwr := { s.pwr with quietMs := 0 } }

/-- An order of session `n`, as its row names it: latched for the next edge where the session is defined and has none
latched (log entry 19). -/
def orderRow (n : Fin 8) (kind : OrderKind) (seq : BitVec 16) (strings : BitVec 4) (dis : Bool) (value : Nat)
    (s : State) : State :=
  if sessRole s n.val = 0 then s
  else orSame s (latchOrder s ⟨some n, kind, strings, dis, value, seq.toNat, true, false⟩)

/-- CLOSE. -/
def execClose (n : Fin 8) (seq : BitVec 16) (strings : BitVec 4) (s : State) : Out :=
  .next (orderRow n .close seq strings false 0 s)
/-- ORDER_OPEN. -/
def execOrderOpen (n : Fin 8) (seq : BitVec 16) (strings : BitVec 4) (s : State) : Out :=
  .next (orderRow n .opening seq strings false 0 s)
/-- LIMIT. -/
def execLimit (n : Fin 8) (seq : BitVec 16) (strings : BitVec 4) (discharge : Bool) (value : BitVec 16)
    (s : State) : Out :=
  .next (orderRow n .limit seq strings discharge value.toNat s)
/-- LIMIT_CLEAR. -/
def execLimitClear (n : Fin 8) (seq : BitVec 16) (strings : BitVec 4) (discharge : Bool) (s : State) : Out :=
  .next (orderRow n .limitClear seq strings discharge 0 s)
/-- RAMP_ACK. -/
def execRampAck (n : Fin 8) (seq : BitVec 16) (strings : BitVec 4) (s : State) : Out :=
  .next (orderRow n .rampAck seq strings false 0 s)
/-- LOCKOUT_ACK. -/
def execLockoutAck (n : Fin 8) (seq : BitVec 16) (strings : BitVec 4) (s : State) : Out :=
  .next (orderRow n .lockoutAck seq strings false 0 s)
/-- WEAR_OVERRIDE. -/
def execWearOverride (n : Fin 8) (seq : BitVec 16) (strings : BitVec 4) (s : State) : Out :=
  .next (orderRow n .wearOverride seq strings false 0 s)

end Sys2Proof.Machine
end

