-- ==== Sys2Proof/Machine/Messages.lean ====
section
/-! DEFINITION. Messages of the module to hosts, buffers, refusals and the release of replies (R271, R314 to R327). -/

namespace Sys2Proof.Machine

/-! ## Status and kind codes (R316, R318) -/

/-- ACCESS. -/
def stACCESS : Nat := 0x01
/-- ADDRESS. -/
def stADDRESS : Nat := 0x02
/-- FORMAT. -/
def stFORMAT : Nat := 0x03
/-- NO BUFFER. -/
def stNOBUFFER : Nat := 0x04
/-- BUSY. -/
def stBUSY : Nat := 0x05
/-- ORDER PENDING. -/
def stORDERPENDING : Nat := 0x06
/-- NOT OPERATING. -/
def stNOTOPERATING : Nat := 0x07
/-- DEFERRED. -/
def stDEFERRED : Nat := 0x08
/-- CORE RESTART. -/
def stCORERESTART : Nat := 0x09
/-- IMAGE RELOAD. -/
def stIMAGERELOAD : Nat := 0x0A
/-- PAGE NOT RESIDENT. -/
def stNOTRESIDENT : Nat := 0x0B
/-- PAGE QUEUE FULL. -/
def stQUEUEFULL : Nat := 0x0C
/-- DUPLICATE. -/
def stDUPLICATE : Nat := 0x0D
/-- REFUSED. -/
def stREFUSED : Nat := 0x0E

/-- ACCEPT. -/
def kindACCEPT : Nat := 0x81
/-- REFUSE. -/
def kindREFUSE : Nat := 0x82
/-- REPLY. -/
def kindREPLY : Nat := 0x83
/-- RESULT. -/
def kindRESULT : Nat := 0x84
/-- EVENT. -/
def kindEVENT : Nat := 0x90

/-! ## Sending -/

/-- Where a writer's messages leave: the port of its session; for the PRP pair one message stands for its two
copies (R308, R314, R332). -/
def viaOf (s : State) (who : Who) : Via :=
  match who with
  | .gable => .gable
  | .session n =>
    match (sessOf s n.val).defn.port with
    | 3 => .gable
    | 1 => .netB
    | _ => .netA

/-- The NETWORK record. -/
def netRec (s : State) : NetworkRec := s.cfg.network.getD {}
/-- NETA and NETB form a PRP pair (R332). -/
def prpMode (s : State) : Bool := s.cfg.network.isSome && (netRec s).mode == 1
/-- The trailer of the next frame: its sequence number, none outside PRP (R332). -/
def takeTrailer (s : State) : Option Nat × State :=
  if prpMode s then (some s.hst.prpSeq, { s with hst := { s.hst with prpSeq := (s.hst.prpSeq + 1) % 65536 } }) else (none, s)

/-- A message with the running batten in its BATTEN field. -/
def mkMsg (s : State) (who : Who) (kind seq status : Nat) (payload : List Byte) : HostMsg :=
  let m : HostMsg := { who := who, via := viaOf s who, kind := kind, seq := seq, status := status
                       batten := s.bat.num % 2 ^ 32, payload := payload }
  match who with
  | .session n =>
    let d := sessOf s n.val
    if m.via == .gable then m else { m with ip := d.defn.peerIp, udp := d.defn.peerUdp }
  | .gable => m

/-- The source MAC of the last request accepted from a session, to which its messages go (R314). -/
def peerMac (s : State) (who : Who) : Option (BitVec 48) :=
  match who with
  | .session n => (sessOf s n.val).mac
  | .gable => none

/-- A message leaves: to its network and the MAC that stands then, with its trailer under PRP, or to wait for the Gable port
(R314, R332, R339). In the last batten before Dormant the network sends nothing further (R386). -/
def sendMsg (s : State) (m : HostMsg) : State :=
  if m.via == .gable then { s with hst := { s.hst with gableOut := s.hst.gableOut ++ [m] } }
  else if s.pwr.last then s
  else
    let (q, s) := takeTrailer s
    { s with hst := { s.hst with sent := s.hst.sent ++ [{ m with trailer := q, mac := peerMac s m.who }] } }

/-- A REFUSE with a BATTEN field of its own; DUPLICATE repeats the GUARANTEE there (R319). -/
def refuseAt (s : State) (who : Who) (seq status batten : Nat) : State :=
  let s := { s with hst := { s.hst with refused := satAdd 16 s.hst.refused 1 } }
  sendMsg s { mkMsg s who kindREFUSE seq status [] with batten := batten }

/-- A REFUSE, counted in HST_REFUSE (R321). -/
def refuse (s : State) (who : Who) (seq status : Nat) : State := refuseAt s who seq status (s.bat.num % 2 ^ 32)

/-- A frame or transaction discarded (R308, R319, R339). -/
def discardFrame (s : State) : State := { s with hst := { s.hst with discarded := satAdd 16 s.hst.discarded 1 } }

/-! ## Buffers (R320) -/

/-- The orders of a session that Purlin holds for an edge. -/
def heldOrders (s : State) (n : Nat) : List Order :=
  (s.rdg.incoming ++ s.rdg.latched).filter (fun o => o.result && o.src.map (·.val) == some n)

/-- Buffers of its reserved share that a session holds. -/
def resHeld (s : State) (n : Nat) : Nat :=
  (s.hst.queue.filter (fun r => !r.pool && r.who == .session (Fin.ofNat 8 n))).length
    + ((heldOrders s n).filter (fun o => !o.pool)).length
    + (s.hst.results.filter (fun r => r.n.val == n && !r.pool)).length
    + (s.hst.release.filter (fun r => r.1.who == .session (Fin.ofNat 8 n) && r.2 == 1)).length

/-- Pool buffers that a writer holds, an outstanding EVENT's among them. -/
def poolHeld (s : State) (who : Who) : Nat :=
  (s.hst.queue.filter (fun r => r.pool && r.who == who)).length
    + (s.hst.release.filter (fun r => r.1.who == who && r.2 == 2)).length
    + (match who with
      | .gable => 0
      | .session n =>
        ((heldOrders s n.val).filter (fun o => o.pool)).length
          + (s.hst.results.filter (fun r => r.n == n && r.pool)).length
          + b2n (sessOf s n.val).outstanding.isSome)

/-- Every writer. -/
def allWhos : List Who := .gable :: (List.finRange 8).map .session

/-- The buffers of the shared pool: 256 less the sessions' RESERVE. -/
def poolSize (s : State) : Nat :=
  256 - sumN ((List.range 8).map (fun n => if (sessOf s n).defined then (sessOf s n).defn.reserve else 0))

/-- Pool buffers free. -/
def poolFree (s : State) : Nat := poolSize s - sumN (allWhos.map (poolHeld s))

/-! ## RESULT (R317, R325) -/

/-- The payload of a RESULT. -/
def resultPayload (r : ResReg) : List Byte :=
  (List.range 4).map (fun k => BitVec.ofNat 8 (resultCode (r.res.getD k .notAddressed)))
    ++ [BitVec.ofNat 8 r.code, BitVec.ofNat 8 r.winner, 0#8, 0#8] ++ natLe 4 r.batten

/-- An owed RESULT, into the release buffer: that of the session's last arbitrated order, unless it holds one of its own. -/
def formResult (s : State) (r : Owed) : State :=
  let pl := r.payload.getD (resultPayload (vget s.rdg.resA r.n.val))
  let m := mkMsg s (.session r.n) kindRESULT r.seq 0 pl
  { s with hst := { s.hst with release := s.hst.release ++ [(m, if r.pool then 2 else 1)] } }

/-- The RESULTs a session is owed are formed; how many there were. -/
def formResults (s : State) (n : Nat) : State × Nat :=
  let mine := s.hst.results.filter (fun r => r.n.val == n)
  let s := { s with hst := { s.hst with results := s.hst.results.filter (fun r => r.n.val != n) } }
  (forEach mine formResult s, mine.length)

/-! ## Release and refusal (R271, R276, R327) -/

/-- Replies leave: RESULTs still owed are formed, and everything in the release buffer leaves with the running batten in its
BATTEN field. -/
def releaseReplies (s : State) : State :=
  let s := forEach (List.range 8) (fun s n => (formResults s n).1) s
  let out := s.hst.release.map (·.1)
  let s := { s with hst := { s.hst with release := [] } }
  forEach out (fun s m => sendMsg s { m with batten := s.bat.num % 2 ^ 32 }) s

/-- EVENTs that wait leave, and count as sent. -/
def releaseEvents (s : State) : State :=
  forEach (List.range 8) (fun s n =>
    match (sessOf s n).outstanding with
    | some (m, c, none, r) =>
      let m := { m with batten := s.bat.num % 2 ^ 32 }
      sendMsg (modSess s n (fun x => { x with outstanding := some (m, c, some s.bat.num, r) })) m
    | _ => s) s

/-- What a clean closing checkpoint lets out to the hosts. -/
def releaseMsgs (s : State) : State := releaseEvents (releaseReplies s)

/-- A RESULT that does not leave is owed again, as it was formed (R325, R338). -/
def oweAgain (s : State) (m : HostMsg) (buf : Nat) : State :=
  match m.who with
  | .session n => { s with hst := { s.hst with results := s.hst.results ++ [⟨n, m.seq, buf == 2, some m.payload⟩] } }
  | .gable => s

/-- What the release buffer holds does not leave: replies are refused with a status, RESULTs owed again (R276, R325,
R327). -/
def dropReplies (s : State) (status : Nat) : State :=
  let held := s.hst.release
  let s := { s with hst := { s.hst with release := [] } }
  forEach held (fun s h =>
    if h.1.kind == kindRESULT then oweAgain s h.1 h.2 else refuse s h.1.who h.1.seq status) s

/-- Requests accepted and not yet served are refused with a status. -/
def dropQueue (s : State) (status : Nat) : State :=
  let q := s.hst.queue
  forEach q (fun s r => refuse s r.who r.seq status) { s with hst := { s.hst with queue := [] } }

/-- Orders latched and not arbitrated are refused with a status (R325, R327). -/
def dropOrders (s : State) (status : Nat) : State :=
  let os := s.rdg.latched ++ s.rdg.incoming
  let s := { s with rdg := { s.rdg with latched := [], incoming := [] } }
  forEach os (fun s o =>
    match o.src, o.result with
    | some n, true => refuse s (.session n) o.seq status
    | _, _ => s) s

/-- An EVENT still in the release buffer is formed again from the routed entries. -/
def dropEvents (s : State) : State :=
  forEach (List.range 8) (fun s n =>
    match (sessOf s n).outstanding with
    | some (m, _, none, _) => modSess s n (fun x => { x with
        outstanding := none, lost := satAdd 16 x.lost (fieldLe m.payload 2 2) })
    | _ => s) s

/-- The assertion of a core-pair reset, as Purlin's requests see it (R327). -/
def hostsCoreReset (s : State) : State :=
  dropEvents (dropOrders (dropQueue (dropReplies s stCORERESTART) stCORERESTART) stCORERESTART)

/-- Event delivery of a session stops (R313, R329), with its reason code. -/
def stopDelivery (s : State) (n reason : Nat) : State :=
  if !(sessOf s n).delivering then s
  else
    let s := modSess s n (fun x => { x with delivering := false, outstanding := none, routed := [], lost := 0 })
    logEv s (72 + n) 2 reason

end Sys2Proof.Machine
end

