-- ==== Sys2Proof/Machine/Can.lean ====
section
/-! DEFINITION. The two CAN FD controllers: the limit frame's transmit-at-time, cancellation, error counters after
ISO 11898-1, ALONE, the collision watch (R342 to R352). -/

namespace Sys2Proof.Machine

/-- A controller's record. -/
def canOf (s : State) (c : Nat) : Can := vget s.can c

/-- Source number of a controller's events (R410). -/
def canSource (c : Nat) : Nat := 80 + c

/-- The controller takes part on its bus: configured, integrated, running, not bus-off (R23, R342, R349). -/
def canOnBus (s : State) (c : Nat) : Bool :=
  let k := canOf s c
  k.configured && k.integrated && !k.stopped && k.err != .busOff

/-- A frame of the controller can end on the bus: a frame in transmission completes although the controller is stopped
(R349). -/
def canCompletes (s : State) (c : Nat) : Bool :=
  let k := canOf s c
  k.mb != 0 && (canOnBus s c || (k.stopped && k.mb == 2 && k.integrated))

/-- The controller sends the limit frame (R346). -/
def canSends (s : State) (c : Nat) : Bool := (canOf s c).configured && (canOf s c).cfg.limitId.testBit 30

/-! ## Results of the limit frame (R348) -/

/-- Mailbox 0 emptied with a result in CAN_TXRES. -/
def canResult (s : State) (c res batten : Nat) : State :=
  modCan s c (fun k => { k with
    mb := 0, handed := false, cancel := false, byReset := false, txRes := res, txBatten := batten % 2 ^ 24 })

/-- The limit frame of a batten is dropped: counted in CAN_DROPCNT and EST_PUBCNT and logged (R186, R347, R351). -/
def canDrop (s : State) (c res batten : Nat) : State :=
  let s := canResult s c res batten
  let s := modCan s c (fun k => { k with dropped := satAdd 16 k.dropped 1 })
  let s := { s with est := { s.est with canDrop := satAdd 16 s.est.canDrop 1 } }
  logEv s (canSource c) 7 res

/-- The limit frame as it goes out (R342, R346). -/
def canTx (k : Can) : CanTx :=
  let ext := k.cfg.limitId.testBit 29
  { id := k.cfg.limitId % 2 ^ (if ext then 29 else 11), extended := ext, brs := k.cfg.dataRate != 0
    esi := k.err == .passive, octets := k.frame }

/-- The loop delay measured between FDF and res of an attempt that went so far (R344), a free reading; whether an error
came before or after it, a free choice too (log entry 45). -/
def canMeasure (s : State) (c : Nat) (sure : Bool) : State :=
  let (n, s) := takeFresh s
  let w := Config.freeWord n
  modCan s c (fun k => { k with
    loopDelay := if k.cfg.dataRate ≤ 1000 then 0 else if sure || w.getLsbD 7 then w.toNat % 128 else k.loopDelay })

/-- The limit frame has been sent: at its time, or after a late cancel. -/
def canSent (s : State) (c : Nat) : State :=
  let late := (canOf s c).cancel
  let s := modCan (canMeasure s c true) c (fun k => { k with
    sent := satAdd 16 k.sent 1
    lateSent := satAdd 16 k.lateSent (b2n late)
    onBus := k.onBus ++ [canTx k] })
  canResult s c (if late then 2 else 1) (canOf s c).frameBatten

/-! ## Error counters (R342, R350) -/

/-- The error state by the counters, with the events of its entries (R351). -/
def canErrState (s : State) (c : Nat) : State :=
  let k := canOf s c
  if k.err == .busOff then s
  else if 255 < k.tecCnt then
    let s := modCan s c (fun k => { k with err := .busOff, busOffs := satAdd 8 k.busOffs 1 })
    logEv s (canSource c) 2 0
  else if 127 < k.tecCnt || 127 < k.recCnt then
    if k.err == .passive then s
    else
      let s := modCan s c (fun k => { k with err := .passive, passives := satAdd 8 k.passives 1 })
      logEv s (canSource c) 1 0
  else modCan s c (fun k => { k with err := .active })

/-- The transmit error counter rises by 8 for each of `n` causes (ISO 11898-1). -/
def canTecUp (s : State) (c n : Nat) : State := canErrState (modCan s c (fun k => { k with tecCnt := k.tecCnt + 8 * n })) c

/-- ALONE clears (R350). -/
def canNotAlone (s : State) (c : Nat) : State :=
  let was := (canOf s c).alone
  let s := modCan s c (fun k => { k with alone := false, ackErrs := 0 })
  if was then logEv s (canSource c) 5 0 else s

/-- An attempt of the limit frame ends in an error: retried, or after a cancellation request dropped (R348). -/
def canAttemptError (s : State) (c : Nat) : State :=
  let k := canOf s c
  if k.cancel then canDrop s c 3 k.frameBatten
  else modCan s c (fun k => { k with mb := min k.mb 1 })

/-! ## The limit frame in time (R347 to R349) -/

/-- Slot 7 hands a frame over: it waits for its time (R186, R347). -/
def canHand (s : State) (c : Nat) (frame : List Byte) : State :=
  modCan s c (fun k => { k with
    handed := true, cancel := false, byReset := false, mb := 0, frame := frame, frameBatten := s.bat.num })

/-- CAN_TRANSMIT_TIME: the frame handed over in this batten becomes pending (R11, R347). -/
def execCanTransmitTime (c : Fin 2) (s : State) : Out :=
  let k := canOf s c.val
  if k.handed && !k.stopped && k.frameBatten == s.bat.num then .next (modCan s c.val (fun k => { k with handed := false, mb := 1 })) else .next s

/-- Whether a pending frame has sent its start of frame when a cancellation is requested: never off the bus, otherwise
a free value, since bus traffic is not held. -/
def canStarted (s : State) (c : Nat) : Bool × State :=
  let k := canOf s c
  if k.mb == 0 || !canOnBus s c then (false, s)
  else if k.mb == 2 then (true, s)
  else
    let (n, s) := takeFresh s
    ((Config.freeWord n).getLsbD 0, s)

/-- A cancellation request (R348): at once before the start of frame, otherwise when the attempt ends. -/
def canCancel (s : State) (c : Nat) (res : Nat) (byReset : Bool) : State :=
  let k := canOf s c
  if !k.handed && k.mb == 0 then s
  else
    let (started, s) := canStarted s c
    if started then modCan s c (fun k => { k with mb := 2, cancel := true, byReset := byReset })
    else canDrop s c res k.frameBatten

/-- CAN_DEADLINE: CORE cycle 72 000 of batten 3 (R347, R349). -/
def execCanDeadline (c : Fin 2) (s : State) : Out :=
  let k := canOf s c.val
  if (k.mb = 0 ∧ !k.handed) ∨ k.cancel ∨ s.bat.num ≤ k.frameBatten ∨ k.stopped then .next s
  else .next (canCancel s c.val (if k.err == .busOff then 6 else 4) false)

/-- CAN_FRAME_COMPLETE: an attempt of the limit frame ends; an error raises the transmit error counter by 8, and by 8
again for each bit error in an error or overload flag and each run of 8 dominant bits after it (ISO 11898-1). -/
def execCanFrameComplete (c : Fin 2) (e : CanEnd) (s : State) : Out :=
  let n := c.val
  let k := canOf s n
  if !canCompletes s n then .next s
  else
    match e with
    | .complete t =>
      let s := canSent (canNotAlone s n) n
      .next (canTecUp (modCan s n (fun k => { k with tecCnt := k.tecCnt - 1 })) n (t.flagErrors + t.dominantRuns))
    | .lostArbitration =>
      if k.cancel then .next (canDrop s n (if k.byReset then 5 else 4) k.frameBatten)
      else .next (modCan s n (fun k => { k with mb := 1 }))
    | .error t => .next (canAttemptError (canTecUp (canMeasure s n false) n (1 + t.flagErrors + t.dominantRuns)) n)
    | .stuffInArbitration t => .next (canAttemptError (canTecUp s n (t.flagErrors + t.dominantRuns)) n)

/-- How often an attempt without an acknowledgement raises the transmit error counter by 8: for itself, but in error-passive
only where a dominant bit met its flag, and for what followed the flag (R350, ISO 11898-1). -/
def ackUps (passive : Bool) (x : CanNoAck) : Nat := b2n (!passive || x.dominantInFlag) + x.tail.flagErrors + x.tail.dominantRuns

/-- CAN_ACK_ERROR: an attempt without an acknowledgement; the 16th in a row sets ALONE (R350). -/
def execCanAckError (x : CanNoAck) (s : State) : Out :=
  let n := x.on.val
  let k := canOf s n
  if !canCompletes s n then .next s
  else
    let s := modCan (canMeasure s n true) n (fun k => { k with ackErrs := satAdd 8 k.ackErrs 1 })
    let s := canTecUp s n (ackUps (k.err == .passive) x)
    let s :=
      if 15 ≤ k.ackErrs && !k.alone then
        logEv (modCan s n (fun k => { k with alone := true, alones := satAdd 8 k.alones 1 })) (canSource n) 4 0
      else s
    .next (canAttemptError s n)

/-! ## Reception (R342, R346) -/

/-- A received frame matches filter 0: the identifier and format of LIMIT_ID. -/
def canMatches (s : State) (c : Nat) (f : CanRx) : Bool :=
  let l := (canOf s c).cfg.limitId
  l.testBit 30 && !f.remote && f.extended == l.testBit 29
    && (if f.extended then f.id.toNat == l % 2 ^ 29 else f.id.toNat % 2 ^ 11 == l % 2 ^ 11)

/-- The receive error counter after a good reception (ISO 11898-1): one less, or from above 127 to a value of 119
to 127 that the standard leaves open. -/
def canRecDown (n rec : Nat) : Nat := if 127 < rec then 119 + (Config.freeWord n).toNat % 9 else rec - 1

/-- CAN_FRAME_RECEIVED: acknowledged and counted; a frame that matches filter 0 is a collision, logged once a
course. -/
def execCanFrameReceived (c : Fin 2) (f : CanRx) (s : State) : Out :=
  let n := c.val
  if !canOnBus s n then .next s
  else
    let hit := canMatches s n f
    let (v, s) := takeFresh s
    let s := modCan s n (fun k => { k with
      received := satAdd 16 k.received 1
      matched := satAdd 16 k.matched (b2n hit)
      recCnt := canRecDown v k.recCnt })
    let s := canErrState (canNotAlone s n) n
    if hit && (canOf s n).collisionCourse != some (courseOf s) then
      .next (logEv (modCan s n (fun k => { k with collisionCourse := some (courseOf s) })) (canSource n) 6 0)
    else .next s

/-- How far an error or an overload raises the receive error counter (ISO 11898-1): 1 for the error detected; 8 for a
dominant bit first after the flag, for each bit error in the flag and for each run of 8 dominant bits after it. -/
def recUp (e : CanRxError) : Nat := b2n e.detected + 8 * (b2n e.dominantAfterFlag + e.tail.flagErrors + e.tail.dominantRuns)

/-- CAN_RECEIVE_ERROR. -/
def execCanReceiveError (c : Fin 2) (e : CanRxError) (s : State) : Out :=
  let n := c.val
  if !canOnBus s n then .next s
  else .next (canErrState (modCan s n (fun k => { k with recCnt := satAdd 8 k.recCnt (recUp e) })) n)

/-- CAN_BUS_OFF_RECOVERY: not while the controller is stopped. -/
def execCanBusOffRecovery (c : Fin 2) (s : State) : Out :=
  let n := c.val
  if (canOf s n).err != .busOff || (canOf s n).stopped then .next s
  else .next (logEv (modCan s n (fun k => { k with err := .active, tecCnt := 0, recCnt := 0 })) (canSource n) 3 0)

/-- The first edge of the image in force has not come: the controllers stay in reset until it (R349, R400). -/
def beforeFirst (s : State) : Bool := s.bat.first && s.bat.num == 0

/-- CAN_INTEGRATION. -/
def execCanIntegration (c : Fin 2) (s : State) : Out :=
  let k := canOf s c.val
  if k.configured && !k.integrated && !k.stopped && !beforeFirst s then .next (modCan s c.val (fun k => { k with integrated := true }))
  else .next s

/-! ## Core-pair reset, Dormant, image load (R349) -/

/-- A core-pair reset is asserted, or a warm restart: a pending frame gets a cancellation request. -/
def canCoreReset (s : State) : State := forEach [0, 1] (fun s c => canCancel s c 5 true) s

/-- A limit frame that slot 7 does not form during a core-pair reset is dropped. -/
def canNotFormed (s : State) : State :=
  forEach [0, 1] (fun s c => if canSends s c then canDrop s c 5 s.bat.num else s) s

/-- CAN_MB0[1:0] (R352): a frame that is pending on the bus may be in an attempt, which is the free value that a cancellation
would meet (log entry 45). -/
def canMailbox (s : State) (c : Nat) : Nat :=
  let k := canOf s c
  if k.mb == 1 && canOnBus s c && (Config.freeWord s.fresh).getLsbD 0 then 2 else k.mb

/-- A warm restart at its edge: cancellation requests as at a core-pair reset, then the controllers stop until the new image's
first edge; a frame in transmission completes (R349). -/
def canRestart (s : State) : State :=
  let s := canCoreReset s
  { s with can := s.can.map (fun k => { k with handed := false, stopped := true }) }

/-- The frame that was in transmission at a restart edge has ended before the load that follows it by milliseconds (R82, R349);
how its attempt ended is a free value (log entry 45). -/
def canSettle (s : State) : State :=
  forEach [0, 1] (fun s (c : Fin 2) =>
    if (canOf s c.val).mb ≠ 2 then s
    else
      let (n, s) := takeFresh s
      let w := Config.freeWord n
      let e : CanEnd := if w.getLsbD 0 then .complete else if w.getLsbD 1 then .lostArbitration else .error {}
      match execCanFrameComplete c e s with
      | .next t => t
      | _ => s) s

/-- Dormant entry: a frame in transmission completes, a pending one goes uncounted, the controller stops. -/
def canStop (s : State) : State :=
  forEach [0, 1] (fun s c =>
    let (started, s) := canStarted s c
    modCan s c (fun k => { k with handed := false, mb := if started then 2 else 0, stopped := true })) s

/-- Wake from Dormant: the controllers integrate again. -/
def canWake (s : State) : State :=
  forEach [0, 1] (fun s c => modCan s c (fun k => { k with stopped := false, mb := 0, integrated := false })) s

/-- The controllers come out of reset with a CAN record each (R68, R349); a record with NOM_RATE 0 holds one in
reset. -/
def canConfigure (s : State) (recs : List CanRec) : State :=
  { s with can := Vector.ofFn (fun (i : Fin 2) =>
      let r := recs.getD i.val {}
      let sent := (vget s.can i.val).onBus
      if r.nomRate = 0 then { onBus := sent } else { cfg := r, configured := true, onBus := sent }) }

end Sys2Proof.Machine
end

