-- ==== Sys2Proof/Machine/Eaves.lean ====
section
/-! DEFINITION. Eaves: intent words, the hold window, drive, diagnostics, retries and latches of the 24 channels
(R237, R289 to R307). -/

namespace Sys2Proof.Machine

/-- A channel's record. -/
def chanOf (s : State) (n : Nat) : Chan := vget s.eav.chans n

/-- The die's Eaves logic runs: powered, out of the die's reset, the SPAR clock running (R257, R258). -/
def eavRuns (s : State) : Bool := sparRuns s

/-- Source number of a channel's events (R410). -/
def chanSource (n : Nat) : Nat := 32 + n

/-! ## Drive (R295, R299, R302) -/

/-- A pulsed auxiliary channel of duty 0 is held off while commanded on (R291). -/
def heldOff (s : State) (n : Nat) : Bool := 16 ≤ n && (chanOf s n).cfg.use == 3 && vget s.eav.duty (n - 16) == 0

/-- The channel is to be on by its word: commanded on, used, not held off. -/
def chanAsked (s : State) (n : Nat) : Bool :=
  (eavOn s).getLsbD n && (chanOf s n).cfg.use != 0 && !heldOff s n

/-- Nothing keeps a channel that is asked on from conducting (R298 to R304). -/
def chanMay (s : State) (n : Nat) : Bool :=
  let c := chanOf s n
  chanAsked s n && !s.eav.vsupLow && !c.overTemp && !c.latched && !c.waitReclaim
    && (!c.retryPending || c.isRetry || c.deferredRetry)

/-- A channel turned on; a coil driver begins its pull-in (R295). A turn-on with RETRY PENDING is a retry. -/
def turnOn (s : State) (n : Nat) : State :=
  modChan s n (fun c => { c with
    conducting := true
    pullIn := n < 16 && 0 < c.cfg.pullIn
    isRetry := c.retryPending
    deferredRetry := false
    offHigh := 0, offLow := 0, supHigh := 0, supLow := 0 })

/-- A channel stops conducting; its OPEN LOAD ON clears (R300). -/
def turnOff (s : State) (n : Nat) : State :=
  let was := (chanOf s n).openOn
  let s := modChan s n (fun c => { c with conducting := false, pullIn := false, openOn := false })
  if was then logEv s (chanSource n) 3 0 else s

/-- A channel follows its command and what bars it. -/
def driveChan (s : State) (n : Nat) : State :=
  let c := chanOf s n
  if c.conducting then (if chanAsked s n then s else turnOff s n)
  else if chanMay s n then turnOn s n
  else s

/-- A deferred retry is made once its conditions hold (R302). -/
def deferredDrive (s : State) (n : Nat) : State := if (chanOf s n).deferredRetry then driveChan s n else s

/-! ## Intent words (R291 to R293) -/

/-- The octets of parts 0 to 3, little-endian. -/
def intentOctets (w : IntentWord) : List Byte := [w.p0, w.p1, w.p2, w.p3].flatMap (fun p => natLe 4 p.toNat)

/-- An intent word of its fields, complement and CRC made (R291). -/
def makeIntent (on : BitVec 24) (seq : Byte) (gates : BitVec 16) (duty : List Nat) : IntentWord :=
  let p0 : Word := BitVec.ofNat 32 (on.toNat + seq.toNat * 2 ^ 24)
  let p1 : Word := BitVec.ofNat 32 (gates.toNat + (~~~gates).toNat * 2 ^ 16)
  let p2 : Word := BitVec.ofNat 32 (leNat ((duty.take 4).map (BitVec.ofNat 8)))
  let p3 : Word := BitVec.ofNat 32 (leNat (((duty.drop 4).take 4).map (BitVec.ofNat 8)))
  let w : IntentWord := ⟨p0, p1, p2, p3, 0⟩
  { w with p4 := crc32 (intentOctets w) }

/-- ON of a word. -/
def wordOn (w : IntentWord) : BitVec 24 := w.p0.setWidth 24
/-- SEQ of a word. -/
def wordSeq (w : IntentWord) : Byte := (w.p0 >>> 24).setWidth 8
/-- GATEREQ of a word. -/
def wordGates (w : IntentWord) : BitVec 16 := w.p1.setWidth 16
/-- The DUTY field of auxiliary channel `i`. -/
def wordDuty (w : IntentWord) (i : Nat) : Nat := bits (if i < 4 then w.p2 else w.p3).toNat (8 * (i % 4) + 7) (8 * (i % 4))

/-- The configuration a coming word is tested by: the new image's with its first word (R305). -/
def chanCfg (s : State) (n : Nat) : EavesRec := if s.eav.cfgWaits then (chanOf s n).next else (chanOf s n).cfg

/-- One channel's part of the acceptance test. -/
def chanTest (s : State) (w : IntentWord) (n : Nat) : Bool :=
  let use := (chanCfg s n).use
  let on := (wordOn w).getLsbD n
  (use != 0 || !on)
    && (16 ≤ n || (wordGates w).getLsbD n == (use == 1 && on))
    && (n < 16 || (wordDuty w (n - 16) ≤ 100 && (use == 3 || wordDuty w (n - 16) == 0)))

/-- The acceptance test of R292. -/
def acceptable (s : State) (w : IntentWord) : Bool :=
  crc32 (intentOctets w) == w.p4
    && (w.p1 >>> 16).setWidth 16 == ~~~wordGates w
    && (!s.eav.haveWord || wordSeq w != s.eav.seqNo)
    && (List.range 24).all (chanTest s w)

/-- An accepted word: the reclaim of a hold window, the new image's configuration, every channel's state and the
gate requests (R237, R292, R304, R305). -/
def applyWord (s : State) (w : IntentWord) : State :=
  let waits := s.eav.cfgWaits
  let put := fun (c : Chan) => { c with cfg := if waits then c.next else c.cfg, waitReclaim := false }
  let s := { s with eav := { s.eav with
    on := wordOn w, seqNo := wordSeq w, haveWord := true, hold := false, down := false, cfgWaits := false
    duty := Vector.ofFn (fun (i : Fin 8) => wordDuty w i.val), chans := s.eav.chans.map put } }
  let s := { s with spar := { s.spar with gateReq := wordGates w, holdExpired := false } }
  forEach (List.range 24) driveChan (sparGates s)

/-- The die tests a word (R292): applied whole or refused and counted. -/
def takeWord (s : State) (w : IntentWord) : State :=
  if acceptable s w then applyWord s w
  else { s with eav := { s.eav with refused := satAdd 16 s.eav.refused 1 } }

/-- INTENT_WORD_ACCEPT: the word in crossing 6, or one from the die-to-die link. -/
def execIntentWordAccept (link : Option IntentWord) (s : State) : Out :=
  if !eavRuns s then .next s
  else
    match link, s.eav.word with
    | some w, _ => .next (takeWord s w)
    | none, some w => .next (takeWord { s with eav := { s.eav with word := s.eav.wordNext, wordNext := none } } w)
    | none, none => .next s

/-! ## The hold window (R237, R304) -/

/-- A hold window starts; none while one runs or while every channel is off already. -/
def startHold (s : State) : State :=
  if s.eav.hold || s.eav.down || !eavRuns s then s
  else { s with eav := { s.eav with hold := true, windows := satAdd 16 s.eav.windows 1 } }

/-- INTENT_GAP_TIMEOUT. -/
def execIntentGapTimeout (s : State) : Out := .next (startHold s)

/-- CORE_RESET_SIGNAL. -/
def execCoreResetSignal (s : State) : Out := .next (startHold s)

/-- Every channel off until the next accepted word. -/
def channelsDown (s : State) : State :=
  let s := { s with eav := { s.eav with hold := false, down := true } }
  forEach (List.range 24) driveChan s

/-- HOLD_WINDOW_EXPIRY: every channel and every gate turns off (R237, R244, R304). -/
def execHoldWindowExpiry (s : State) : Out :=
  if !s.eav.hold || !eavRuns s then .next s
  else
    let s := { s with eav := { s.eav with expired := true }, rdg := { s.rdg with
      expired := true, expiredFirst := if s.rdg.expired then s.rdg.expiredFirst else s.spar.mode != SparMode.tripped } }
    .next (channelsDown (sparGates { s with spar := { s.spar with holdExpired := true } }))

/-! ## Diagnostics, retries, latches (R295, R297 to R303) -/

/-- PULL_IN_END: economised drive (R295). -/
def execPullInEnd (ch : Fin 24) (s : State) : Out :=
  if eavRuns s then .next (modChan s ch.val (fun c => { c with pullIn := false })) else .next s

/-- The running attempt fails (R301), its finding logged first (R414): a failed retry counts, the third sets the fault latch; in
a hold window the channel waits for the reclaim word (R304). -/
def attemptFailed (s : State) (n code : Nat) : State :=
  let hold := s.eav.hold
  let s := modChan s n (fun c =>
    let r := if c.isRetry then min 3 (c.retries + 1) else c.retries
    { c with
      fails := satAdd 16 c.fails 1
      retries := r
      retryPending := true
      isRetry := false
      deferredRetry := false
      waitReclaim := c.waitReclaim || hold })
  let s := turnOff (logEv s (chanSource n) code (1 + 256 * (chanOf s n).retries)) n
  if (chanOf s n).retries == 3 && !(chanOf s n).latched then
    logEv (modChan s n (fun c => { c with latched := true })) (chanSource n) 6 1
  else s

/-- CHANNEL_SHORT (R300). -/
def execChannelShort (ch : Fin 24) (s : State) : Out :=
  let n := ch.val
  if !(chanOf s n).conducting || !eavRuns s then .next s
  else
    .next (attemptFailed (modChan s n (fun c => { c with short := true })) n 1)

/-- CHANNEL_OVER_TEMPERATURE (R300): the thermal latch is set, and an attempt under way fails. -/
def execChannelOverTemperature (ch : Fin 24) (s : State) : Out :=
  let n := ch.val
  if (chanOf s n).overTemp || (chanOf s n).cfg.use == 0 || !eavRuns s then .next s
  else
    let s := modChan s n (fun c => { c with overTemp := true })
    .next (if (chanOf s n).conducting then attemptFailed s n 2 else logEv s (chanSource n) 2 (1 + 256 * (chanOf s n).retries))

/-- THERMAL_LATCH_RELEASE (R300, R302). -/
def execThermalLatchRelease (ch : Fin 24) (s : State) : Out :=
  let n := ch.val
  if !(chanOf s n).overTemp || !eavRuns s then .next s
  else
    let s := modChan s n (fun c => { c with overTemp := false })
    .next (deferredDrive (logEv s (chanSource n) 2 (256 * (chanOf s n).retries)) n)

/-- OPEN_LOAD_ON_CHANGE (R300): tested while on and past the pull-in. -/
def execOpenLoadOnChange (ch : Fin 24) (found : Bool) (s : State) : Out :=
  let n := ch.val
  let c := chanOf s n
  if !c.conducting || c.pullIn || c.openOn == found || !eavRuns s then .next s
  else .next (logEv (modChan s n (fun c => { c with openOn := found })) (chanSource n) 3 (b2n found))

/-- Three consecutive tests find or clear (R300): the counts after one more test, and the finding. -/
def testCount (was : Bool) (high low : Nat) (hit : Bool) : Nat × Nat × Bool :=
  if hit then (min 3 (high + 1), 0, was || 2 ≤ high) else (0, min 3 (low + 1), was && low < 2)

/-- The off-state test of one channel. -/
def offTest (aboveTest nearSupply : BitVec 24) (s : State) (n : Nat) : State :=
  let c := chanOf s n
  if c.cfg.use == 0 || c.conducting then s
  else
    let (oh, ol, o) := testCount c.openOff c.offHigh c.offLow (aboveTest.getLsbD n)
    let (sh, sl, t) := testCount c.toSupply c.supHigh c.supLow (nearSupply.getLsbD n)
    let s := modChan s n (fun c => { c with
      offHigh := oh, offLow := ol, supHigh := sh, supLow := sl, openOff := o, toSupply := t })
    let s := if o == c.openOff then s else logEv s (chanSource n) 4 (b2n o)
    if t == c.toSupply then s else logEv s (chanSource n) 5 (b2n t)

/-- OFF_STATE_TEST: EAVn at or above 2.5 V, and at or above VSUP − 1.0 V, in one test of every channel. -/
def execOffStateTest (aboveTest nearSupply : BitVec 24) (s : State) : Out :=
  if eavRuns s then .next (forEach (List.range 24) (offTest aboveTest nearSupply) s) else .next s

/-- RETRY_DUE (R301, R302): made, or deferred uncounted. -/
def execRetryDue (ch : Fin 24) (s : State) : Out :=
  let n := ch.val
  let c := chanOf s n
  if !c.retryPending || c.isRetry || c.latched || c.deferredRetry || !eavRuns s then .next s
  else .next (driveChan (modChan s n (fun c => { c with deferredRetry := true })) n)

/-- ATTEMPT_PROVEN (R301): RETRY PENDING, the count and the SHORT clear. -/
def execAttemptProven (ch : Fin 24) (s : State) : Out :=
  let n := ch.val
  let was := (chanOf s n).short
  if !(chanOf s n).conducting || !eavRuns s then .next s
  else
    let s := modChan s n (fun c => { c with retryPending := false, isRetry := false, retries := 0, short := false })
    .next (if was then logEv s (chanSource n) 1 0 else s)

/-- Two clamp events lie within 10 s, by the battens between them: not where these alone are more; where they leave it in doubt,
or did not count all the time, a free value decides (R297; log entry 44). -/
def clampRepeated (s : State) (c : Chan) : Bool :=
  match c.lastClamp with
  | none => false
  | some b =>
    let n := (s.bat.num : Int) - b
    n ≤ 10000 && (!(c.clampLost || !battensRun s || n == 10000) || (Config.freeWord s.fresh).getLsbD 0)

/-- CLAMP_EVENT (R297). -/
def execClampEvent (ch : Fin 24) (s : State) : Out :=
  let n := ch.val
  let again := clampRepeated s (chanOf s n)
  if !eavRuns s then .next s
  else
    let s := { s with fresh := s.fresh + 1 }
    let s := modChan s n (fun c => { c with
      clamps := satAdd 16 c.clamps 1, lastClamp := some s.bat.num, clampLost := !battensRun s })
    .next (if again then logEv s (chanSource n) 7 0 else s)

/-- VSUP_LOW: every channel stops conducting (R298). -/
def execVsupLow (s : State) : Out :=
  if s.eav.vsupLow || !eavRuns s then .next s
  else
    let s := forEach (List.range 24) (fun s n => if (chanOf s n).conducting then turnOff s n else s) s
    .next (logEv { s with eav := { s.eav with vsupLow := true } } 104 1 0)

/-- VSUP_RESTORED: the channels return to their last word with new pull-ins, deferred retries are made (R299); VSUP
has returned above Spar's own trip threshold as well (R257). -/
def execVsupRestored (s : State) : Out :=
  if !eavRuns s then .next s
  else
    let s := sparGates { s with spar := { s.spar with supplyOk := true } }
    if !s.eav.vsupLow then .next s
    else
      let s := forEach (List.range 24) driveChan { s with eav := { s.eav with vsupLow := false } }
      .next (logEv s 104 2 0)

/-! ## Register writes (R294, R303, R307) -/

/-- Who may write EAV_AUXCMD and EAV_AUXDUTY (R294). -/
def auxMay (s : State) (who : Who) : Bool := if inBench s then isMaintain s who else isSupervise s who

/-- A write to EAV_AUXCMD; none where it is refused (R294). -/
def eavAuxcmd (s : State) (who : Who) (m : Byte) : Option State :=
  if auxMay s who && (List.range 8).all (fun i => !m.getLsbD i || (eavRec s (16 + i)).use != 0) then
    some { s with eav := { s.eav with auxCmd := m } }
  else none

/-- A write to EAV_AUXDUTY0 or 1; none where it is refused (R294, R307). -/
def eavAuxduty (s : State) (who : Who) (hi : Bool) (v : Word) : Option State :=
  let f := fun (i : Nat) => bits v.toNat (8 * i + 7) (8 * i)
  if auxMay s who && (List.range 4).all (fun i => f i ≤ 100) then
    let d := (List.range 4).foldl (fun d i => vset d ((if hi then 4 else 0) + i) (f i)) s.eav.auxDuty
    some { s with eav := { s.eav with auxDuty := d } }
  else none

/-- One channel's latch cleared (R303): it turns on as a new first attempt with the next word. -/
def clearLatch (s : State) (n : Nat) : State :=
  let was := (chanOf s n).latched
  let s := modChan s n (fun c => { c with
    latched := false, retryPending := false, retries := 0, isRetry := false, deferredRetry := false })
  if was then logEv s (chanSource n) 6 0 else s

/-- A write to EAV_LATCH; none where it is refused (R303). -/
def eavLatchClear (s : State) (who : Who) (m : BitVec 24) : Option State :=
  if isSupervise s who then some (forEach (maskBits m) clearLatch s) else none

/-! ## The word of slot 6 (R291, R294) -/

/-- The fields of the word slot 6 writes: the coils of Ridge's last evaluation and their gate requests; the auxiliary
channels by EAV_AUXCMD and EAV_AUXDUTY; nothing on in Unconfigured, no coil in Bench. -/
def slot6Word (s : State) : IntentWord :=
  let aux := maskOf 24 (fun n => 16 ≤ n && s.eav.auxCmd.getLsbD (n - 16) && (eavRec s n).use != 0)
  let coil := maskOf 16 (fun c => operating s && s.rdg.coils.getLsbD c && (eavRec s c).use == 1)
  let on := if unconfigured s then 0 else aux ||| coil.setWidth 24
  let duty := (List.range 8).map (fun i =>
    if !unconfigured s && (eavRec s (16 + i)).use == 3 then vget s.eav.auxDuty i else 0)
  makeIntent on (BitVec.ofNat 8 s.bat.num) (if unconfigured s then 0 else coil) duty

end Sys2Proof.Machine
end

