-- ==== Sys2Proof/Machine/Publish.lean ====
section
/-! DEFINITION. Publication: the limits of slot 7, the GOOSE datasets and the CAN limit frame (R185 to R187, R217,
R220, R334 to R336). -/

namespace Sys2Proof.Machine

/-! ## Published limits (R185, R186) -/

/-- A string publishes its limits: Closed in RUN without a ramp request (R185, R216, R217). -/
def publishes (s : State) (k : Nat) : Bool :=
  let t := strOf s k
  operating s && hasStr s k && t.st == .closed && t.phase == .run && !t.ramp && !setStale s

/-- One published limit of a string [A]: the set's, rounded down, under the direction's ceiling (R185, R220). -/
def strPub (s : State) (k j : Nat) : Nat :=
  if !publishes s k then 0
  else
    let t := strOf s k
    let v := slimOf s k j / 10
    match if j < 3 then t.ceilChg else t.ceilDis with
    | some c => min v c
    | none => v

/-- The published limits of the four strings. -/
def strPubs (s : State) : List (List Nat) :=
  (List.range 4).map (fun k => (List.range 6).map (fun j => satTo 16 (strPub s k j)))

/-- The plant's published limits: the sums, saturating. -/
def plantPubs (strs : List (List Nat)) : List Nat :=
  (List.range 6).map (fun j => satTo 16 (sumN (strs.map (fun l => l.getD j 0))))

/-- Any configured cell is REFERENCE STALE (R163, R186). -/
def anyRefStale (s : State) : Bool := (List.range (nCells s)).any (fun c => s.est.refStale.getLsbD c)

/-- Octets 2 and 3 of the limit frame in [15:0], RAMP in [19:16] (R186, R188). -/
def pubFlags (s : State) (stale : Bool) : Nat :=
  sumN ((List.range 4).map (fun k => strCode s k * 2 ^ (3 * k)))
    + 2 ^ 12 * b2n stale + 2 ^ 13 * b2n (s.bat.sync == .holdover) + 2 ^ 14 * b2n (anyRefStale s)
    + sumN ((List.range 4).map (fun k => b2n (strOf s k).ramp * 2 ^ (16 + k)))

/-- SET_COURSE: the course of the snapshot behind the set in force; 0 without one (R14, R186). -/
def setCourse (s : State) : Nat := ((s.est.force.map (fun f => f.batten / 10)).getD 0) % 2 ^ 32

/-- The 64 octets of the limit frame (R186). -/
def limitFrame (s : State) (flags : Nat) (plant : List Nat) (strs : List (List Nat)) : List Byte :=
  natLe 2 (setCourse s % 4096 + 4096 * bits flags 19 16) ++ natLe 2 flags ++ plant.flatMap (natLe 2)
    ++ strs.flatMap (fun l => l.flatMap (natLe 2))

/-- A limit differs from its last sent value enough to publish (R187). -/
def limitMoved (new old : Nat) : Bool :=
  (new = 0) != (old = 0) || (new != old && 2 * old ≤ 100 * (max new old - min new old))

/-- The change test of R187; a first state after the image load is one. -/
def limitsChanged (s : State) (flags : Nat) (plant : List Nat) (strs : List (List Nat)) : Bool :=
  match s.est.lastSent with
  | none => true
  | some (f, p, l) =>
    f != flags || (List.zip (plant ++ strs.flatten) (p ++ l.flatten)).any (fun x => limitMoved x.1 x.2)

/-! ## GOOSE publication (R334 to R336) -/

/-- A link is up. -/
def linkUp : LinkState → Bool
  | .down => false
  | .up100 => true
  | .up1000 => true

/-- The port of a record has a link (R67, R330): NETA, NETB, or either of the PRP pair. -/
def goosePortUp (s : State) (port : Nat) : Bool :=
  match port with
  | 0 => linkUp s.hst.linkA
  | 1 => linkUp s.hst.linkB
  | _ => linkUp s.hst.linkA || linkUp s.hst.linkB

/-- The GOOSE record of an index. -/
def gooseRec (s : State) (k : Nat) : GooseRec := s.cfg.goose.getD k {}

/-- A GOOSE record's run changed. -/
def modGoose (s : State) (k : Nat) (f : GooseRun → GooseRun) : State :=
  { s with hst := { s.hst with goose := vmod s.hst.goose k f } }

/-- The largest n with 2⁻ⁿ s at or above a bound in µs. -/
def accuracyBits (us : Nat) : Nat := ((List.range 32).filter (fun n => us * 2 ^ n ≤ 1000000)).getLast?.getD 0

/-- UTC of the running batten's edge [ms] (R336), by the last usable Sync; before one the manual states no time: a free
value (log entry 6). -/
def edgeUtc (s : State) : Nat :=
  match s.bat.utc with
  | some (b, ms) => ms + (s.bat.num - b)
  | none => (Config.freeWord s.fresh).toNat

/-- The quality octet of t: LeapSecondsKnown [7], ClockNotSynchronized [5], TimeAccuracy [4:0] (R336). -/
def timeQuality (s : State) : Nat :=
  let bound := 1 + 20 * (s.bat.holdMs / 1000)
  let (sync, acc) := match s.bat.sync with
    | .free => (1, 31)
    | .acquiring => (1, 31)
    | .locked => (0, 19)
    | .holdover => if bound * 128 ≤ 1000000 then (0, accuracyBits bound) else (1, 31)
  128 * b2n s.hst.leapKnown + 32 * sync + acc

/-- A frame leaves a network port, with its trailer under PRP (R332). -/
def netSend (s : State) (t : NetTx) : State :=
  let (q, s) := takeTrailer s
  { s with hst := { s.hst with netSent := s.hst.netSent ++ [⟨t, q⟩] } }

/-- A port has a MAC and is not held in reset (R330, R332). -/
def portUsed (s : State) (p : NetPort) : Bool :=
  match p with
  | .netA => (netRec s).macA != 0
  | .netB => if prpMode s then (netRec s).macA != 0 else (netRec s).macB != 0
/-- A port's IP; 0 for none. -/
def portIp (s : State) (p : NetPort) : Nat :=
  match p with
  | .netA => (netRec s).ipA
  | .netB => if prpMode s then (netRec s).ipA else (netRec s).ipB
/-- A port with an IP announces it by a gratuitous ARP (R330), but in the last batten before Dormant (R386). -/
def sendArp (s : State) (p : NetPort) : State :=
  if portUsed s p && portIp s p != 0 && !s.pwr.last then netSend s (.gratuitousArp p) else s

/-- A record's name: PLANT_NAME, BXM5120 for an empty one, a suffix and the index in two digits (R334). -/
def gooseName (s : State) (suffix : String) (k : Nat) : List Byte :=
  let text := fun (t : String) => t.toList.map (fun c => BitVec.ofNat 8 c.toNat)
  (if s.cfg.plantName.isEmpty then text "BXM5120" else s.cfg.plantName) ++ text suffix
    ++ [BitVec.ofNat 8 (48 + k / 10), BitVec.ofNat 8 (48 + k % 10)]

/-- What a transmission of a dataset carries, as its run stands. -/
def gooseTx (s : State) (k : Nat) : NetTx :=
  let g := vget s.hst.goose k
  .goose k (gooseName s "BXM/LLN0$GO$gcb" k) (gooseName s "BXM/LLN0$ds" k) g.stNum g.sqNum g.ttl g.t g.quality g.members

/-- A counter that wraps from its greatest value to 1 (R335). -/
def wrapOne (n : Nat) : Nat := if n = 0xFFFFFFFF then 1 else n + 1

/-- A dataset's turn to be transmitted: where its port has a link and the network sends, it leaves, as a new state with
stNum raised and sqNum 0, or as a repeat with sqNum raised; otherwise nothing leaves and both stand (R335). -/
def gooseSend (s : State) (k : Nat) : State :=
  let s := modGoose s k (fun g => { g with lastAt := s.bat.num })
  if !goosePortUp s (gooseRec s k).port || !mapUp s || s.pwr.last || s.pwr.halted then s
  else
    let s := modGoose s k (fun g =>
      if g.unsent then { g with stNum := wrapOne g.stNum, sqNum := 0, unsent := false } else { g with sqNum := wrapOne g.sqNum })
    netSend s (gooseTx s k)

/-- A dataset formed in a slot of the running batten that has changed: sent at once, repeated after `first` ms and so on
(R335); its t and quality are the forming batten's (R336). -/
def goosePublish (s : State) (k : Nat) (members : List Int) (first : Nat) : State :=
  let (t, q) := (edgeUtc s, timeQuality s)
  gooseSend (modGoose { s with fresh := s.fresh + 1 } k (fun g => { g with
    interval := first, ttl := 2 * first, members := members, t := t, quality := q, unsent := true })) k

/-- The records that publish a content. -/
def publishers (s : State) (content : Nat) : List Nat :=
  (List.range s.cfg.goose.length).filter (fun k => (gooseRec s k).dir == 1 && (gooseRec s k).content == content)

/-- GOOSE_REPEAT: the dataset again once its interval has passed, the interval doubling up to HEARTBEAT (R335); a state that
no link has carried yet is tried again. In Bench no limits are published (R18). -/
def execGooseRepeat (k : Fin 24) (s : State) : Out :=
  let n := k.val
  let g := vget s.hst.goose n
  let r := gooseRec s n
  if r.dir ≠ 1 ∨ g.interval = 0 ∨ s.bat.num < g.lastAt + g.interval ∨ unconfigured s ∨ (r.content = 1 ∧ inBench s) then .next s
  else
    let next := if g.unsent then g.interval else min (2 * g.interval) r.heartbeat
    .next (gooseSend (modGoose s n (fun g => { g with interval := next, ttl := 2 * next })) n)

/-- The members of the limit dataset in order (R187). -/
def limitMembers (s : State) (flags : Nat) (plant : List Nat) (strs : List (List Nat)) : List Int :=
  let n := fun (x : Nat) => (x : Int)
  [n (setCourse s), n (bits flags 12 12), n (bits flags 13 13), n (bits flags 14 14)] ++ plant.map n
    ++ (List.range 4).map (fun k => n (bits flags (3 * k + 2) (3 * k)))
    ++ (List.range 4).map (fun k => n (bits flags (16 + k) (16 + k))) ++ strs.flatten.map n

/-- The published values held in the registers and sent as a new state of the limit dataset. -/
def sendLimits (s : State) (flags : Nat) (plant : List Nat) (strs : List (List Nat)) (heartbeatOnly : Bool) : State :=
  let s := { s with est := { s.est with
    pPub := plant, sPub := Vector.ofFn (fun (i : Fin 4) => strs.getD i.val []), pubFlag := flags
    lastSent := some (flags, plant, strs) } }
  forEach (publishers s 1) (fun s k =>
    goosePublish s k (limitMembers s flags plant strs)
      (if heartbeatOnly then (gooseRec s k).heartbeat else min 2 (gooseRec s k).heartbeat)) s

/-- Six zeros. -/
def noLimits : List Nat := List.replicate 6 0

/-- At the assertion of a core-pair reset the NET block sends every limit 0 with LIMITS STALE set, then repeats it at its
heartbeat (R236). -/
def zeroLimits (s : State) : State :=
  if !operating s then s else sendLimits s (pubFlags s true) noLimits (List.replicate 4 noLimits) true

/-- The limit frame handed to the controllers that send it, in batten 2 of the course. -/
def handFrames (s : State) (flags : Nat) (plant : List Nat) (strs : List (List Nat)) : State :=
  if phaseOf s != 2 then s
  else forEach [0, 1] (fun s c =>
    let k := canOf s c
    if canSends s c && !(k.frameBatten == s.bat.num && !k.frame.isEmpty) then
      canHand s c (limitFrame s flags plant strs) else s) s

/-- The published values reach the CAN controllers and the NET block: the CAN frame of batten 2, and a new state of the
limit dataset where the change test finds one (R185 to R187). -/
def publish (s : State) (w : LimitsWord) : State :=
  let s := handFrames s w.flags w.plant w.strs
  if !limitsChanged s w.flags w.plant w.strs then s
  else
    let s := sendLimits s w.flags w.plant w.strs false
    { s with est := { s.est with pubCnt :=
      if (publishers s 1).isEmpty then s.est.pubCnt else satAdd 16 s.est.pubCnt 1 } }

/-- The published values of slot 7; nothing is published in Unconfigured and Bench (R18). -/
def limitsWord (s : State) : LimitsWord :=
  let strs := strPubs s
  ⟨pubFlags s (setStale s), if operating s then plantPubs strs else noLimits,
    if operating s then strs else List.replicate 4 noLimits⟩

/-- Slot 7 (R185 to R187): the published values are formed, and sent off the pair through the output compare gate (R270). -/
def slot7 (s : State) : State :=
  let w := limitsWord s
  let s := { s with est := { s.est with
    pPub := w.plant, sPub := Vector.ofFn (fun (i : Fin 4) => w.strs.getD i.val []), pubFlag := w.flags } }
  if !operating s then s
  else if gateOn s then { s with hst := { s.hst with limitsGate := some w } }
  else publish s w

/-- LIMIT_PUBLICATION: slot 7, once per batten while the cores run (R236). -/
def execLimitPublication (s : State) : Out :=
  if !slotsRun s || !slotNext s 7 then .next s else .next (slot7 (endSlot s 7))

/-! ## The other datasets (R334), formed in the GOOSE slot -/

/-- Members for a string with no value: the manual states none. -/
def noMember : Int := ofTwos 32 (Config.freeWord 0).toNat

/-- The least and the greatest of a list of values. -/
def extremes (l : List Int) : List Int :=
  match l with
  | [] => [noMember, noMember]
  | x :: r => [r.foldl min x, r.foldl max x]

/-- STRINGS, content 0x02. -/
def stringMembers (s : State) : List Int :=
  (plantState s : Int) :: (List.range 4).flatMap (fun k =>
    let t := strOf s k
    [(strCode s k : Int), (phaseCode t.phase : Int), (causeCode t.cause : Int), (b2n t.ramp : Int)])

/-- CELLS, content 0x04. -/
def cellMembers (s : State) : List Int :=
  (List.range 4).flatMap (fun k =>
    let cs := cellsOfStr s k
    extremes (cs.map (fun c => ((vget s.tha.cells c).vavg : Int)))
      ++ extremes (cs.filterMap (fun c => (vget s.tha.cells c).tmeas))
      ++ extremes (cs.map (fun c => ((estWord0 s c % 65536 : Nat) : Int))))

/-- INSULATION, content 0x05. -/
def insulationMembers (s : State) : List Int :=
  [(s.vrg.rPos : Int), (s.vrg.rNeg : Int), (b2n s.vrg.warned : Int), (b2n s.rdg.insOpenNow : Int)]

/-- The members of a content formed in the GOOSE slot. -/
def contentMembers (s : State) (content : Nat) : List Int :=
  match content with
  | 2 => stringMembers s
  | 3 => [(s.spar.presented.toNat : Int)]
  | 4 => cellMembers s
  | _ => insulationMembers s

/-- The change test of a content, member by member (R334): CELLS by 10 mV, 1.0 K or 1.0 %, INSULATION by a flag or 10 %
of a resistance, the others by any change. -/
def memberMoved (content i : Nat) (new old : Int) : Bool :=
  let d := absI (new - old)
  match content with
  | 4 => (match i % 6 / 2 with | 0 => 100 | 1 => 10 | _ => 500) ≤ d
  | 5 => if 2 ≤ i then new != old else new != old && absI old ≤ 10 * d
  | _ => new != old

/-- Datasets the GOOSE slot formed leave the release buffer (R271, R335). -/
def releaseGoose (s : State) : State :=
  let h := s.hst.gooseHeld
  forEach h (fun s x => goosePublish s x.1 x.2 (min 2 (gooseRec s x.1).heartbeat))
    { s with hst := { s.hst with gooseHeld := [] } }

/-- The GOOSE slot: the datasets that changed are sent, through the release buffer (R271, R335), in Bench too, where R18 bars
the published limits alone. -/
def gooseSlot (s : State) : State :=
  if unconfigured s then s
  else
    let changed := (List.range s.cfg.goose.length).filterMap (fun k =>
      let r := gooseRec s k
      let g := vget s.hst.goose k
      let m := contentMembers s r.content
      let moved := (List.range m.length).any (fun i => memberMoved r.content i (m.getD i 0) (g.members.getD i 0))
      if r.dir == 1 && 2 ≤ r.content && (g.interval == 0 || moved) then some (k, m) else none)
    let s := { s with hst := { s.hst with gooseHeld := changed } }
    if wordsWait s 7 then s else releaseGoose s

end Sys2Proof.Machine
end

