-- ==== Sys2Proof/Machine/CorePair.lean ====
section
/-! DEFINITION. The lead and check cores: signatures, checkpoints, mismatches and their reactions, the core-pair reset,
agreement, split mode, debug (R236 to R238, R265 to R288). -/

namespace Sys2Proof.Machine

/-- The partition code of a partition index: 0x01 to 0x08 (R69). -/
def partNo (p : Fin 8) : Nat := p.val + 1

/-- The partition that runs a task (R268). -/
def taskPart (task : Nat) : Nat :=
  match task with
  | 0x09 => 1 | 0x0B => 2 | 0x0A => 3 | 0x01 => 6 | 0x02 => 6 | 0x03 => 7 | 0x04 => 7 | 0x0D => 7 | _ => 8

/-- The partition that runs a fixed slot; R268 gives slot 8 none: a free value (DESIGN CHOICE, log entry 6). -/
def fixedPart (s : State) (slot : Nat) : Nat × State :=
  match slot with
  | 0 => (3, s) | 1 => (1, s) | 2 => (1, s) | 3 => (1, s) | 4 => (2, s) | 5 => (3, s) | 6 => (4, s) | 7 => (5, s)
  | _ =>
    let (n, s) := takeFresh s
    (1 + (Config.freeWord n).toNat % 8, s)

/-- The table entry of a SLOT_ID. -/
def entryOf (s : State) (id : Nat) : Option SlotEntry := s.cfg.schedule.find? (fun e => e.id == id)

/-- A task is demand-driven (R29). -/
def demandDriven (task : Nat) : Bool := task == 0x02 || task == 0x06

/-- A free value for the kind of a mismatch that CPR_STATUS lists no code for. -/
def freeKind (s : State) : Nat × State :=
  let (n, s) := takeFresh s
  (1 + (Config.freeWord n).toNat % 8, s)

/-! ## The cores (R265 to R269, R272, R276) -/

/-- The octets of a store. -/
def storeLen : StoreSize → Nat
  | .byte => 1 | .halfword => 2 | .word => 4

/-- A store's data, zero-extended to 32 bits (R269). -/
def storeData (size : StoreSize) (d : Word) : Word := BitVec.ofNat 32 (d.toNat % 2 ^ (8 * storeLen size))

/-- Octets of private memory from an offset on lie inside a partition's region (R268). -/
def inRegion (p off n : Nat) : Bool := (List.range n).all (fun i => Config.regionOwner (off + i) == p)

/-- A line's old content goes into the journal on its first store; a journal of 2 048 lines is full (R276). -/
def journalLine (m : Mem) (c : Core) (p line : Nat) : Core :=
  if c.journal.any (fun j => j.line == line) then c
  else if 2048 ≤ c.journal.length then { c with full := true }
  else { c with journal := c.journal ++ [⟨line, p, memGets ramBlank m (64 * line) 64⟩] }

/-- A store to private memory by a partition: inside its region it is performed, a restartable partition's lines
journalled first; outside it is not (R268, R276). -/
def storePriv (restarts : Nat → Bool) (x : Core × Mem) (p off : Nat) (size : StoreSize) (d : Word) : Core × Mem :=
  let (c, m) := x
  let n := storeLen size
  if !inRegion p off n then x
  else
    let c := if restarts p then journalLine m (journalLine m c p (off / 64)) p ((off + n - 1) / 64) else c
    (c, memPuts ramBlank m off (natLe n d.toNat))

/-- What an event does to its core's private memory and journal. -/
def coreEvent (restarts : Nat → Bool) (x : Core × Mem) (e : CoreEvent) : Core × Mem :=
  match e with
  | .privStore part off d size => storePriv restarts x (partNo part) off.toNat size d
  | .regWrite _ _ _ => x
  | .store _ _ _ _ => x
  | .load _ _ _ => x

/-- A core's register file: 32 registers, index 0 always 0 (R269). -/
def regFile (t : CoreTrace) : Vector Word 32 := Vector.ofFn (fun (i : Fin 32) => if i.val = 0 then 0 else t.regs.getD i.val 0)

/-- A core and its private memory after what a trace shows. -/
def coreRun (restarts : Nat → Bool) (x : Core × Mem) (t : CoreTrace) : Core × Mem :=
  let r := t.events.foldl (coreEvent restarts) x
  let n := t.retired.toNat
  ({ r.1 with regs := regFile t, pc := t.pc, retired := (r.1.retired + n) % 2 ^ 32, since := (r.1.since + n) % 2 ^ 32 }, r.2)

/-- The partitions whose stores fell outside their regions (R268). -/
def partFaults (l : List CoreEvent) : List Nat :=
  l.filterMap (fun e => match e with
    | .privStore part off _ size => if inRegion (partNo part) off.toNat (storeLen size) then none else some (partNo part)
    | .regWrite _ _ _ => none
    | .store _ _ _ _ => none
    | .load _ _ _ => none)

/-- The shared loads of a trace, as the load queue takes them (R267). -/
def sharedLoads (l : List CoreEvent) : List LoadEntry :=
  l.filterMap (fun e => match e with
    | .load part a v => some ⟨part, a, v⟩
    | .regWrite _ _ _ => none
    | .store _ _ _ _ => none
    | .privStore _ _ _ _ => none)

/-- The check core's shared loads served from the queue in order: what stays, and the partitions whose address differed.
The check core waits where the queue is empty (R265, R267). -/
def serveLoads : List LoadEntry → List LoadEntry → List LoadEntry × List Nat
  | q, [] => (q, [])
  | [], _ :: _ => ([], [])
  | x :: q, y :: l =>
    let (rest, bad) := serveLoads q l
    (rest, if x.addr = y.addr then bad else partNo y.part :: bad)

/-- Both cores cleared, with their private memories (R279). -/
def clearCores (s : State) : State := { s with cpr := { s.cpr with lead := {}, check := {}, loads := [] }, priv := {} }

/-- A core's journal without a partition's lines; its registers and count are those saved at the last clean checkpoint
(R276). Where it resumes is stated nowhere: a free value (DESIGN CHOICE, log entry 70). -/
def rewindCore (c : Core) (p : Nat) (pc : Word) : Core :=
  { c with
    journal := c.journal.filter (fun j => j.part != p)
    regs := c.savedRegs, retired := c.savedRetired, pc := pc, since := 0 }

/-- The journalled lines of a partition written back (R276). -/
def rewindMem (c : Core) (p : Nat) (m : Mem) : Mem :=
  (c.journal.filter (fun j => j.part == p)).foldl (fun m j => memPuts ramBlank m (64 * j.line) j.old) m

/-- Both cores go back to the last clean checkpoint, but for the private work of partitions other than `p` (R276). -/
def rewindCores (s : State) (p : Nat) : State :=
  let (n, s) := takeFresh s
  let pc := Config.freeWord n
  let (l, k) := (s.cpr.lead, s.cpr.check)
  { s with
    cpr := { s.cpr with lead := rewindCore l p pc, check := rewindCore k p pc, loads := [] }
    priv := { lead := rewindMem l p s.priv.lead, check := rewindMem k p s.priv.check } }

/-- What a clean checkpoint saves of a core; its journal is committed (R272, R276). -/
def saveCore (c : Core) : Core := { c with journal := [], savedRegs := c.regs, savedRetired := c.retired }

/-- A signature register shows the CRC with R51's final XOR (R269, R288). -/
def shownSigs (v : Vector Word 8) : Vector Word 8 := v.map (fun w => w ^^^ 0xFFFFFFFF#32)

/-! ## Core-pair reset (R236, R275 to R280) -/

/-- The checkpoint unit records Standstill, cause CORE MISMATCH, for every string in RUN (R226, R275). It comes before
the reset is asserted, and the STANDSTILL entries of R412 are logged with it (DEDUCED, log entry 33: R417 lets only H
sources log during the reset itself). -/
def mismatchStandstill (s : State) : State :=
  forEach (strs s) (fun s k =>
    let t := strOf s k
    if operating s && t.st == .closed && t.phase == .run then
      modStr (enterStr s k (iString s k) .standstill .hold 0 (some .coreMismatch)) k (fun t => { t with mismatch := true })
    else s) s

/-- A split ends with the pair's restart: the job is lost, the pair restarts joined (R282). -/
def splitLost (s : State) : State :=
  let c := s.cpr
  let ended := c.coupling != .joined
  { s with cpr := { c with
    coupling := .joined
    splitRes := if ended then 7 else c.splitRes
    coursesLeft := 0, shadows := 0, splitDue := none, rejoinDue := false
    job := if c.job = 1 then 3 else c.job
    jobRes := [] } }

/-- What the release buffers of partitions 0x07 and 0x08 hold does not leave, and the journal gives their regions back
(R276): 0x07 the routing of Gutter entries and the datasets formed, 0x08 learning, ledger and impedance work. What the
estimator engine, which is outside the pair, has put beside it stays: its evidence for Rser and the pending references
(R190, R192, R236). -/
def restorePart (s : State) (p : Nat) : State :=
  let v := s.cpr.saved
  if p = 7 then
    let s := dropEvents { s with
      gtr := { s.gtr with routed := v.routed }
      hst := { s.hst with gooseHeld := [] } }
    forEach (List.range 8) (fun s n =>
      modSess s n (fun x => { x with routed := x.routed.filter (fun e => e < v.routed) })) s
  else if p = 8 then
    let cells := Vector.ofFn (fun (i : Fin 512) =>
      let now := vget s.led.cells i.val
      { vget v.cells i.val with aR := now.aR, bR := now.bR, pend := now.pend, socRec := now.socRec })
    let imp := Vector.ofFn (fun (i : Fin 512) => { vget v.imp i.val with acc := (vget s.est.imp i.val).acc })
    { s with
      led := { s.led with
        cells := cells, work := v.work, held := [] }
      est := { s.est with imp := imp }
      pgr := { s.pgr with
        seconds := s.pgr.outSec ++ s.pgr.seconds, frames := s.pgr.outBat ++ s.pgr.frames, outSec := [], outBat := [] } }
  else s

/-- What the journal and the release buffers of partitions 0x07 and 0x08 can give back, as it stands (R276). -/
def partSave (s : State) : PartSave :=
  { cells := s.led.cells, work := s.led.work, imp := s.est.imp, routed := s.gtr.routed }

/-- The cores leave the batten's table work: what has not started does not run; deferred instances go on waiting
(log entry 28). -/
def leaveWork (s : State) : State :=
  { s with bat := { s.bat with running := none, todo := [], deferred := s.bat.todo.filter (·.carried) ++ s.bat.deferred } }

/-- What the release buffer of a partition holds does not leave (R271, R276): replies of host service are refused CORE
RESTART and the NOR writes of staging discarded; the others as `restorePart` says. -/
def discardPart (s : State) (p : Nat) : State := if p = 6 then discardNor (dropReplies s stCORERESTART) else restorePart s p

/-- The signatures restart from their initial value (R269). -/
def freshSigs (s : State) : State :=
  { s with cpr := { s.cpr with curL := Vector.replicate 8 0xFFFFFFFF#32, curC := Vector.replicate 8 0xFFFFFFFF#32 } }

/-- A core-pair reset finds a port: a command word that the output compare gate holds does not reach the serialiser, which
forms NOP by itself, nor does its bulk word leave; the work they stood for waits as before, a WRITE without an answer is
made again, and a running test is cut (R104, R127, R236, R270). -/
def resetPort (s : State) (p : Nat) : State :=
  let s := match (portOf s p).cmdGate with
    | none => s
    | some g => putCmd (modPort s p (fun q => { q with
        cmdGate := none, cmdQueue := g.queue, thermPos := g.thermPos, clearDue := g.clearDue, clearAt := g.clearAt
        admitted := g.admitted, test := g.test, pulsing := g.pulsing })) p { tselA := 255, tselB := 255, code := 0, arg := [] }
  let s := modPort s p (fun q => { q with
    bulkGate := false, inFlight := none
    bulk := match q.inFlight with
      | some r => if q.bulkGate || bulkRank r == 3 then r :: q.bulk else q.bulk
      | none => q.bulk })
  cutTest s p

/-- The assertion of a core-pair reset: what stops and what is lost, a limit frame of this batten that slot 7 has not
formed among it (R236, R327, R349); both cores and their memories are cleared (R279); the hold window starts (R237). -/
def assertReset (s : State) : State :=
  let s := canCoreReset (hostsCoreReset s)
  let unformed := s.bat.fixedDone ≤ 7 || s.hst.limitsGate.isSome
  let s := if operating s && phaseOf s == 2 && unformed then canNotFormed s else s
  let s := discardNor (restorePart (restorePart s 7) 8)
  let s := forEach (strs s) (fun s k => modStr s k (fun t => { t with resetI := some (iString s k), clearRun := 0 })) s
  let s := forEach (List.range 32) resetPort s
  let s := clearCores (freshSigs (leaveWork (splitLost s)))
  startHold { s with
    gtr := { s.gtr with held := [] }
    eav := { s.eav with gated := none }
    hst := { s.hst with limitsGate := none }
    owl := { s.owl with bulkOpen := false }
    bat := { s.bat with worked := [] }
    cpr := { s.cpr with run := .inReset 0, recorded := [], resume := false, agreedWord := none, resetAt := s.bat.num
                        dbgWaiting := [] } }

/-- The reaction to a protective mismatch or a WATCHDOG (R275, R278): Standstill for strings in RUN, with its entries by the
checkpoint unit's hardware path, past the gate; the zero-limit dataset, the reset under the hold window. -/
def protectiveReaction (s : State) : State :=
  let s := { s with
    cpr := { s.cpr with protective := satAdd 16 s.cpr.protective 1, sigC := shownSigs s.cpr.curC }
    gtr := { s.gtr with held := [] } }
  let s := releaseHeld (mismatchStandstill s)
  let t := zeroLimits { s with cpr := { s.cpr with run := .inReset 0 } }
  assertReset { t with cpr := { t.cpr with run := s.cpr.run } }

/-- A protective mismatch of a partition, with its kind. -/
def protectiveMismatch (s : State) (part kind : Nat) : State :=
  let s := { s with cpr := { s.cpr with
    lastPart := part, lastKind := kind, byMismatch := satAdd 8 s.cpr.byMismatch 1 } }
  protectiveReaction (logEv s 113 1 (part + 256 * kind))

/-- A restartable mismatch: the partition's work since the last clean checkpoint is discarded, both cores resume at the
next edge (R276). -/
def restartPart (s : State) (p : Nat) : State :=
  let s := dropHeld (discardPart s p) [p]
  let s := forEach s.bat.worked (fun s id =>
    match entryOf s id with
    | some e =>
      if taskPart e.task = p && !demandDriven e.task then
        logEv { s with bat := { s.bat with dropCnt := satAdd 16 s.bat.dropCnt 1 } } 124 2 id
      else s
    | none => s) s
  let s := freshSigs (leaveWork (rewindCores s p))
  let others := s.bat.worked.filter (fun id => (entryOf s id).any (fun e => taskPart e.task != p))
  { s with cpr := { s.cpr with resume := true }, bat := { s.bat with worked := others } }

/-- A restartable mismatch of a partition, or the protective reaction when it follows two others within 1 000 battens
(R275, R277). -/
def restartableMismatch (s : State) (part kind : Nat) : State :=
  let recent := s.cpr.recent.filter (fun b => s.bat.num ≤ b + 1000)
  let s := { s with cpr := { s.cpr with recent := s.bat.num :: recent } }
  if 2 ≤ recent.length then protectiveMismatch s part kind
  else
    let s := { s with cpr := { s.cpr with
      lastPart := part, lastKind := kind, sigC := shownSigs s.cpr.curC, restartable := satAdd 16 s.cpr.restartable 1 } }
    restartPart (logEv s 112 1 (part + 256 * kind)) part

/-- A mismatch found in a shadow course: recorded, and without a reaction (R283). -/
def recordShadow (s : State) (part kind : Nat) : State :=
  { s with cpr := { s.cpr with
    shadowClean := false, recorded := s.cpr.recorded ++ [(part, kind)], lastPart := part, lastKind := kind
    sigC := shownSigs s.cpr.curC } }

/-- A mismatch by its partition's class (R275); in a shadow course it is recorded (R283). -/
def mismatch (s : State) (part kind : Nat) : State :=
  if s.cpr.coupling == .shadow then recordShadow s part kind
  else if protectivePart s part then protectiveMismatch s part kind else restartableMismatch s part kind

/-! ## Signatures and checkpoints (R269, R272) -/

/-- The octets an event adds to its partition's signature; a write to register 0 adds nothing (R269). -/
def eventOctets (p : Nat) (e : CoreEvent) : List Byte :=
  match e with
  | .regWrite part idx v => if partNo part = p ∧ idx.val ≠ 0 then BitVec.ofNat 8 idx.val :: natLe 4 v.toNat else []
  | .store part a d size =>
    if partNo part = p then 0xFF#8 :: (natLe 4 a.toNat ++ natLe 4 (storeData size d).toNat) else []
  | .load _ _ _ => []
  | .privStore _ _ _ _ => []

/-- The signatures after more events. -/
def runSigs (sig : Vector Word 8) (l : List CoreEvent) : Vector Word 8 :=
  Vector.ofFn (fun (i : Fin 8) => crc32Run (vget sig i.val) (l.flatMap (eventOctets (i.val + 1))))

/-- The differences between both cores at a barrier, in the order of R272's table: partition and kind of CPR_STATUS. The
partition faults and load-queue mismatches recorded stand last. -/
def differences (s : State) (o : CheckObs) : List (Nat × Nat) :=
  let run := partNo o.running
  let c := s.cpr
  let sig := (List.range 8).filter (fun i => vget c.curL i != vget c.curC i)
  sig.map (fun i => (i + 1, 3))
    ++ (if c.lead.since != c.check.since || c.lead.pc != c.check.pc then [(run, 2)] else [])
    ++ (if c.lead.regs != c.check.regs then [(run, 1)] else [])
    ++ (c.loads.take 1).map (fun x => (partNo x.part, 6))
    ++ (if o.lead.words != o.check.words || o.lead.agreements != o.check.agreements then [(run, 2)] else [])

/-- One mismatch per partition: the first found. -/
def perPartition : List (Nat × Nat) → List (Nat × Nat)
  | [] => []
  | x :: l => x :: (perPartition l).filter (fun y => y.1 != x.1)

/-- What a clean checkpoint lets out of the release buffers: Gutter entries always; at the closing checkpoint replies,
EVENTs, datasets, staged records, frames and the NOR writes of staging too (R271, R417). -/
def releaseAll (s : State) (closing : Bool) : State :=
  let s := releaseHeld s
  if closing then releaseNor <| releaseFrames (releaseCommits (releaseGoose (releaseMsgs s))) else s

/-- Register files and counts are saved, the journal is committed, the signatures restart (R269, R272, R276). -/
def commitJournal (s : State) (closing : Bool) : State :=
  let init := Vector.replicate 8 0xFFFFFFFF#32
  { s with
    bat := { s.bat with worked := [] }
    cpr := { s.cpr with
      lead := saveCore s.cpr.lead, check := saveCore s.cpr.check
      cleanBatten := s.bat.num % 2 ^ 24, cleanClosing := closing, curL := init, curC := init, recorded := [], saved := partSave s } }

/-- A checkpoint's verdict in the joined pair: clean, or the mismatches' reactions; the protective one applies when both
classes are found, and after a full journal (R272, R275, R276). -/
def judge (s : State) (found : List (Nat × Nat)) (closing full : Bool) : State :=
  match perPartition found with
  | [] => commitJournal (releaseAll s closing) closing
  | m :: ms =>
    match (m :: ms).find? (fun x => protectivePart s x.1) with
    | some x => protectiveMismatch s x.1 x.2
    | none =>
      if full then protectiveMismatch s m.1 m.2
      else forEach (m :: ms) (fun s x => if coresRun s then mismatch s x.1 x.2 else s)
        { s with cpr := { s.cpr with recorded := [] } }

/-- The changes of the debugger as they enter both signatures (R286): register writes and writes of shared memory. -/
def editEvents (part : Fin 8) (l : List (Nat × DebugEdit)) : List CoreEvent :=
  l.filterMap (fun x => match x.2 with
    | .regWrite i v => some (.regWrite part i v)
    | .memWrite a v => some (.store part a v .word)
    | .privWrite _ _ => none
    | .pcWrite _ => none)

/-- A change of the debugger made to a core (R286); index 0 stays 0. -/
def editCore (x : Core × Mem) (e : DebugEdit) : Core × Mem :=
  let (c, m) := x
  match e with
  | .regWrite i v => if i.val = 0 then x else ({ c with regs := vset c.regs i.val v }, m)
  | .memWrite _ _ => x
  | .privWrite off v => (c, memPuts ramBlank m off.toNat (natLe 4 v.toNat))
  | .pcWrite v => ({ c with pc := v }, m)

/-- The changes that wait are replayed into the check core, before what it does next (R286). -/
def replayEdits (s : State) : State :=
  let c := s.cpr
  let (k, m) := c.dbgWaiting.foldl (fun k x => editCore k x.2) (c.check, s.priv.check)
  { s with
    cpr := { c with
      check := k, curC := runSigs c.curC (editEvents c.lastRan c.dbgWaiting)
      dbgReplayed := satAdd 16 c.dbgReplayed c.dbgWaiting.length, dbgWaiting := [] }
    priv := { s.priv with check := m } }

/-- What the check core's program is: the lead core's own while the pair compares; nothing in the copy course; the job
in the split, which enters no signature (R282, R283). -/
def checkEvents (s : State) (t : CoreTrace) : List CoreEvent :=
  match s.cpr.coupling with
  | .joined => t.events
  | .shadow => t.events
  | .split => []
  | .copy => []

/-- The check core follows the lead core (R265, R282, R283). -/
def follows (s : State) : Bool := s.cpr.coupling == .joined || s.cpr.coupling == .shadow

/-- The lead core after a trace. -/
def leadRun (s : State) (t : CoreTrace) : Core × Mem := coreRun (fun p => !protectivePart s p) (s.cpr.lead, s.priv.lead) t

/-- The trace of the check core that can be: while it follows, it retires no instruction that the lead core, with `n` since
the last checkpoint, has not, and stalls there; of a trace that shows more nothing is taken but the stall at that count
(R265; log entry 70). -/
def checkTrace (s : State) (n : Nat) (t : CoreTrace) : CoreTrace :=
  let c := s.cpr.check
  if follows s && n < c.since + t.retired.toNat then
    { t with events := [], retired := BitVec.ofNat 32 (n - c.since), pc := c.pc, regs := c.regs.toList }
  else t

/-- The check core after a trace: stopped in the copy course (R283). -/
def checkRun (s : State) (t : CoreTrace) : Core × Mem :=
  if s.cpr.coupling == .copy then (s.cpr.check, s.priv.check)
  else coreRun (fun p => !protectivePart s p) (s.cpr.check, s.priv.check) t

/-- What the load queue keeps, and the partitions whose loads did not match it (R267). -/
def queueRun (s : State) (lead check : List CoreEvent) : List LoadEntry × List Nat :=
  if follows s then serveLoads (s.cpr.loads ++ sharedLoads lead) (sharedLoads check) else ([], [])

/-- Both cores' memories, counts, signatures and load queue after their traces. -/
def traceCores (s : State) (lead check : CoreTrace) (running : Fin 8) : State :=
  let events := checkEvents s check
  let l := leadRun s lead
  let k := checkRun s check
  { s with
    cpr := { s.cpr with
      lead := l.1, check := k.1, loads := (queueRun s lead.events events).1.take 512, lastRan := running
      curL := runSigs s.cpr.curL lead.events, curC := runSigs s.cpr.curC events }
    priv := ⟨l.2, k.2⟩ }

/-- The partition faults and load-queue mismatches that traces bring (R267, R268). -/
def tracesNote (s : State) (lead check : CoreTrace) : List (Nat × Nat) :=
  let events := checkEvents s check
  (partFaults (lead.events ++ events)).map (fun p => (p, 7)) ++ (queueRun s lead.events events).2.map (fun p => (p, 6))

/-- What both cores have done since they were last looked at, the debugger's changes replayed first; and what it brought. -/
def runCores (s : State) (lead check : CoreTrace) (running : Fin 8) : State × List (Nat × Nat) :=
  let s := replayEdits s
  let check := checkTrace s (leadRun s lead).1.since check
  (traceCores s lead check running, tracesNote s lead check)

/-- What a checkpoint finds (R272): what was recorded before it, the differences at the barrier, what its cores' events
brought; and the state with the cores at the barrier. -/
def barrier (s : State) (o : CheckObs) : State × List (Nat × Nat) :=
  let (s, noted) := runCores s o.lead o.check o.running
  (s, s.cpr.recorded ++ differences s o ++ noted)

/-- A checkpoint (R272): compared when joined; compared and only recorded in a shadow course; otherwise nothing is
compared (R282, R283). -/
def checkpoint (s : State) (o : CheckObs) (closing : Bool) : State :=
  if !coresRun s then s
  else
    let (s, found) := barrier s o
    let c := s.cpr
    let full := c.lead.full || c.check.full
    let s := { s with cpr := { c with
      sigL := shownSigs c.curL, lag := o.lag.toNat, lagNow := o.lag.toNat, lagMax := max c.lagMax o.lag.toNat
      lead := { c.lead with since := 0, full := false }, check := { c.check with since := 0, full := false } } }
    match s.cpr.coupling with
    | .joined => judge s found closing full
    | .shadow =>
      if found.isEmpty then judge s [] closing false
      else
        let m := found.getLast?.getD (0, 0)
        let s := { s with cpr := { s.cpr with
          shadowClean := false, recorded := [], lastPart := m.1, lastKind := m.2, sigC := shownSigs s.cpr.curC } }
        releaseAll s closing
    | _ => judge s [] closing false

/-! ## The output compare gate, agreement, WATCHDOG (R270, R273, R274, R278) -/

/-- The gate holds a word for a port. -/
def portGated (s : State) (p : Nat) : Bool := (portOf s p).cmdGate.isSome || (portOf s p).bulkGate

/-- A port's word leaves the gate: the CMD, else the bulk word (R270). -/
def releasePort (s : State) (p : Nat) : State :=
  let q := portOf s p
  if q.cmdGate.isSome then putCmd (modPort s p (fun q => { q with cmdGate := none })) p q.cmd
  else match q.inFlight with
    | some r => modPort s p (fun q => { q with bulkGate := false, lineOut := q.lineOut ++ [bulkFrame r] })
    | none => modPort s p (fun q => { q with bulkGate := false })

/-- Equal copies release a word of a partition (R270): of the port words the lowest port's, else the intent word, else the
published values, else the partition's oldest entry; of partitions 0x06 to 0x08 classed protective what their buffers hold
(R271). -/
def releaseGate (s : State) (p : Nat) : State :=
  match p with
  | 1 =>
    match (List.range 32).find? (portGated s) with
    | some n => releasePort s n
    | none => releaseEntry s 1
  | 4 =>
    match s.eav.gated with
    | some w => crossWord { s with eav := { s.eav with gated := none } } w
    | none => releaseEntry s 4
  | 5 =>
    match s.hst.limitsGate with
    | some w => publish { s with hst := { s.hst with limitsGate := none } } w
    | none => releaseEntry s 5
  | 6 => releaseNor (releaseReplies (releaseEntry s 6))
  | 7 => releaseGoose (releaseEvents (releaseEntry s 7))
  | 8 => releaseFrames (releaseCommits (releaseEntry s 8))
  | _ => releaseEntry s p

/-- A gate mismatch: protective at once, and with the core-pair reset the gate releases none of the words it holds; in a
shadow course only recorded, and the word released; uncompared in the split and the copy course (R270, R282, R283). -/
def gateMismatch (s : State) (part : Fin 8) (kind : Nat) : State :=
  let p := partNo part
  if !coresRun s || !protectivePart s p then s
  else
    match s.cpr.coupling with
    | .joined => protectiveMismatch s p kind
    | .shadow => recordShadow s p kind
    | _ => s

/-- OUTPUT_GATE_COMPARE: equal copies release the word; unequal ones release nothing. -/
def execOutputGateCompare (part : Fin 8) (lead check : Word) (s : State) : Out :=
  if lead ≠ check then .next (gateMismatch s part 4)
  else .next (if gateOn s && protectivePart s (partNo part) then releaseGate s (partNo part) else s)

/-- OUTPUT_GATE_TIMEOUT: the check copy 2 000 cycles late. -/
def execOutputGateTimeout (part : Fin 8) (s : State) : Out := .next (gateMismatch s part 5)

/-- Of two different STATE codes of the Spar status word the one that wins (R274): TRIPPED, START, UNCONFIGURED,
PROVING, then ARMED. -/
def agreeState (a b : Nat) : Nat :=
  if a = b then a else ([4, 0, 1, 2].find? (fun c => c == a || c == b)).getD a

/-- The agreed Spar status word (R274). -/
def agreeWord (a b : Word) : Word :=
  let orBits : Word := (a ||| b) &&& 0xFFFFFFC0#32
  let andBits : Word := (a &&& b) &&& 0x00000038#32
  BitVec.ofNat 32 (agreeState (a.toNat % 8) (b.toNat % 8)) ||| orBits ||| andBits

/-- The value that both cores get for two samples of an input (R274); equal ones as read. -/
def agreeValue (input : AgreeInput) (a b : Word) : Word :=
  match input with
  | .sparStatus => agreeWord a b
  | .pfail => a ||| b
  | .vholdOk => a &&& b
  | .sealOpen => a &&& b
  | .temperature _ => if a.toInt ≤ b.toInt then b else a
  | .channelFaults _ => a ||| b
  | .channelCurrent _ => if a ≤ b then b else a
  | .insulation => if a ≤ b then a else b
  | .time => a

/-- The rows of R274 in which two samples of an input differ. -/
def agreeRows (input : AgreeInput) (a b : Word) : List Nat :=
  if a = b then []
  else
    match input with
    | .sparStatus =>
      (if a &&& 7#32 = b &&& 7#32 then [] else [0])
        ++ (if a &&& 0xFFFFFFC0#32 = b &&& 0xFFFFFFC0#32 then [] else [1])
        ++ (if a &&& 0x38#32 = b &&& 0x38#32 then [] else [2])
    | .pfail => [3]
    | .vholdOk => [4]
    | .sealOpen => [4]
    | .temperature _ => [5]
    | .channelFaults _ => [6]
    | .channelCurrent _ => [7]
    | .insulation => [8]
    | .time => []

/-- Combinations counted, each input logged once a batten (R274). -/
def noteDisagreement (s : State) (input : AgreeInput) (rows : List Nat) : State :=
  forEach rows (fun s r =>
    let s := { s with cpr := { s.cpr with agree := satAdd 16 s.cpr.agree 1 } }
    if s.cpr.disagreed.contains (r, input) then s
    else logEv { s with cpr := { s.cpr with disagreed := (r, input) :: s.cpr.disagreed } } 114 1 r) s

/-- The agreement unit compares: not while the pair is split (R282). -/
def agreementOn (s : State) : Bool := s.cpr.coupling == .joined || s.cpr.coupling == .shadow

/-- AGREEMENT_READ: both cores get one value, which this batten's work uses; the stall brings the lag to 0 (R273, R274).
While the pair is split the lead core's sample is returned (R282). -/
def execAgreementRead (input : AgreeInput) (lead check : Word) (s : State) : Out :=
  if !coresRun s then .next s
  else
    let on := agreementOn s
    let s := if on then noteDisagreement { s with cpr := { s.cpr with lagNow := 0 } } input (agreeRows input lead check) else s
    let v := if on then agreeValue input lead check else lead
    match input with
    | .sparStatus => .next { s with cpr := { s.cpr with agreedWord := some v } }
    | _ => .next { s with cpr := { s.cpr with agreed := (input, v) :: s.cpr.agreed.filter (fun x => x.1 != input) } }

/-- WATCHDOG (R278): the reaction of a protective mismatch, in a shadow course too, where R283 exempts mismatches alone; not
while the debugger holds the lead core (R287). Without a check core that follows there is no lag. -/
def execWatchdog (cause : WatchdogCause) (s : State) : Out :=
  if !coresRun s || (cause == .lagExceeded && !agreementOn s) then .next s
  else
    let s := { s with cpr := { s.cpr with lastKind := 8, byWatchdog := satAdd 8 s.cpr.byWatchdog 1 } }
    .next (protectiveReaction (logEv s 113 2 0))

/-! ## Restart and self-test (R279, R280) -/

/-- A failed self-test: counted, logged, and the restart repeated once; the second failure halts both cores (R280). -/
def failSelfTest (s : State) (failing : Fin 9) (again : Bool) : State :=
  let s := logEv { s with cpr := { s.cpr with selfTest := false, selfFails := satAdd 8 s.cpr.selfFails 1 } } 113 3 failing.val
  { s with cpr := { s.cpr with run := if again then .halted else .inReset 1, loading := s.cpr.loading && !again } }

/-- An injected run raises exactly its own difference, for the partition that the test names (R279). -/
def runPasses (t : TestRun) (kind : Nat) : Bool := t.raised == [(partNo t.named, kind)]

/-- Run 4: one signature byte, in each partition in turn. -/
def sigsPass (l : List (List (Nat × Nat))) : Bool := l == (List.range 8).map (fun i => [(i + 1, 3)])

/-- The first run of a self-test that does not show what it must (R279). -/
def firstFail (t : SelfTest) : Option (Fin 9) :=
  let pass : List Bool := [t.null.isEmpty, runPasses t.regBit 1, runPasses t.pc 2, runPasses t.count 2, sigsPass t.sigs,
    runPasses t.gateData 4, runPasses t.gateLate 5, t.lead != t.check && t.got == agreeValue t.input t.lead t.check && t.agreement.isEmpty,
    runPasses t.queue 6]
  (List.finRange 9).find? (fun i => !pass.getD i.val true)

/-- CORE_PAIR_RESTART_COMPLETE: both cores and their memories have been cleared; a passed self-test lets the cores
return at the next edge, in an image's load at once (R391); a failed one repeats the restart once, then halts both
cores. -/
def execCorePairRestartComplete (test : SelfTest) (s : State) : Out :=
  match s.cpr.run, firstFail test with
  | .inReset _, none =>
    let s := clearCores s
    .next { s with cpr :=
      if s.cpr.loading then { s.cpr with selfTest := true, loading := false, run := .running, saved := partSave s }
      else { s.cpr with selfTest := true, resume := true } }
  | .inReset n, some r => .next (failSelfTest (clearCores s) r (n != 0))
  | .running, _ => .next s
  | .halted, _ => .next s

/-! ## Split mode (R281 to R284) -/

/-- CPR_SPLITRES takes a code. -/
def splitAnswer (s : State) (code : Nat) : State := { s with cpr := { s.cpr with splitRes := code } }

/-- A SPLIT order (R281): accepted or not, and the state with its result. -/
def orderSplit (s : State) (who : Who) (job duration : Nat) : Bool × State :=
  if !isMaintain s who then (false, splitAnswer s 2)
  else if !operating s || (strs s).any (fun k => strState s k == .precharge) || s.img.stage == .reloadPending
      || s.cpr.coupling != .joined || !coresRun s then (false, splitAnswer s 3)
  else if job ≠ 1 || duration = 0 then (false, splitAnswer s 4)
  else (true, { splitAnswer s 1 with cpr := { (splitAnswer s 1).cpr with splitDue := some (job, duration) } })

/-- A REJOIN order (R283). -/
def orderRejoin (s : State) (who : Who) : Bool × State :=
  if !isMaintain s who then (false, splitAnswer s 2)
  else if s.cpr.coupling != .split then (false, splitAnswer s 3)
  else (true, { splitAnswer s 1 with cpr := { (splitAnswer s 1).cpr with rejoinDue := true } })

/-- SPLIT_DURATION_EXPIRY: rejoining begins (R283). -/
def execSplitDurationExpiry (s : State) : Out :=
  if s.cpr.coupling == .split && s.cpr.coursesLeft ≤ 1 then
    .next { s with cpr := { s.cpr with rejoinDue := true } }
  else .next s

/-- The copy course begins: the check core is stopped, an unfinished job fails (R283). -/
def beginCopy (s : State) : State :=
  { s with cpr := { s.cpr with
    coupling := .copy, rejoinDue := false, coursesLeft := 0, job := if s.cpr.job = 1 then 3 else s.cpr.job } }

/-- The pair at an edge of batten 0 (R281, R283): at the end of a copy course the check core's private memory is the
lead core's, its register file is loaded, and it is released. -/
def splitEdge (s : State) : State :=
  if !coresRun s || s.bat.num % 10 ≠ 0 then s
  else
    let c := s.cpr
    match c.coupling with
    | .joined =>
      match c.splitDue with
      | some (_, d) =>
        logEv { s with cpr := { c with
          coupling := .split, splitDue := none, coursesLeft := d, shadows := 0, job := 1, jobPage := 0, loads := [], jobRes := [] } } 115 1 0
      | none => s
    | .split =>
      if c.rejoinDue || c.coursesLeft ≤ 1 then beginCopy s
      else { s with cpr := { c with coursesLeft := c.coursesLeft - 1 } }
    | .copy => { s with
        cpr := { c with
          coupling := .shadow, shadows := c.shadows + 1, shadowClean := true, recorded := [], loads := [], check := c.lead
          curL := Vector.replicate 8 0xFFFFFFFF, curC := Vector.replicate 8 0xFFFFFFFF }
        priv := { s.priv with check := s.priv.lead } }
    | .shadow =>
      if c.shadowClean then
        logEv { s with cpr := { c with coupling := .joined, splitRes := 5 } } 115 2 0
      else
        let s := logEv (splitAnswer s 6) 115 3 0
        if 3 ≤ c.shadows then protectiveMismatch s s.cpr.lastPart s.cpr.lastKind
        else { s with cpr := { s.cpr with coupling := .copy } }

/-- The page of PSRAM past the last frame of the history ring (R209). -/
def ringEnd (s : State) : Nat := 0xC40000 / 4096 + (histDepth s * histSize s + 4095) / 4096

/-- At an edge the job asks for the pages of the ring that it has not had, in class HOST, as far as the queue takes them
(R282). -/
def jobRequests (s : State) : State :=
  if s.cpr.coupling != .split || s.cpr.job ≠ 1 || histDepth s = 0 then s
  else forEach (List.range 16) (fun s _ =>
    let n := 0xC40000 / 4096 + s.cpr.jobPage
    if ringEnd s ≤ n then s
    else
      let (t, ok) := requestPage s .host n
      if ok then { t with cpr := { t.cpr with jobPage := t.cpr.jobPage + 1 } } else s) s

/-- The frames of the history ring that hold their own second: the octets at each place (R209). -/
def ringFrames (s : State) : List (List Byte) :=
  match s.pgr.newest with
  | none => []
  | some k =>
    let d := histDepth s
    (List.range (min d (k + 1))).filterMap (fun i =>
      let n := k - i
      let f := memGets ramBlank s.psram (0xC40000 + histSize s * (n % d)) (histSize s)
      if leNat (f.take 6) = 1000 * n then some f else none)

/-- The least and the greatest of a list of field values, with the value that stands for none. -/
def spanOr (none_ : Int) (l : List Int) : Int × Int :=
  match l with
  | [] => (none_, none_)
  | x :: r => (r.foldl min x, r.foldl max x)

/-- HISTORY STATISTICS of one cell: its 16 octets (R284). -/
def jobCell (fs : List (List Byte)) (c : Nat) : List Byte :=
  let at_ := fun (off : Nat) => fs.map (fun f => (fieldLe f (64 + 16 * c + off) 2 : Int))
  let temps := fun (off : Nat) => ((at_ off).filter (fun x => x != 0x8000)).map (fun x => ofTwos 16 x.toNat)
  let v := spanOr 0 (at_ 0)
  let mean : Int := if fs.isEmpty then 0 else rndEven (mkRat (sumI (at_ 0)) fs.length)
  let t := spanOr (-32768) (temps 6)
  let tc := spanOr (-32768) (temps 8)
  let soc := spanOr 0 (at_ 10)
  [v.1, v.2, mean, t.1, t.2, tc.2, soc.1, soc.2].flatMap (fun x => natLe 2 (twos 16 x))

/-- SPLIT_JOB_COMPLETE: HISTORY STATISTICS over the history ring, whose pages have all been asked for (R282), or a
failed job (R284). -/
def execSplitJobComplete (ok : Bool) (s : State) : Out :=
  if s.cpr.job ≠ 1 || s.cpr.coupling != .split then .next s
  else if !ok then .next { s with cpr := { s.cpr with job := 3 } }
  else if 0xC40000 / 4096 + s.cpr.jobPage < ringEnd s then .next s
  else
    let fs := ringFrames s
    let l := (List.range (nCells s)).flatMap (jobCell fs)
    let words := (List.range (4 * nCells s)).map (fun i => (BitVec.ofNat 32 (fieldLe l (4 * i) 4) : Word))
    .next { s with cpr := { s.cpr with job := 2, jobRes := words } }

end Sys2Proof.Machine
end

