-- ==== Sys2Proof/Machine/Feedback.lean ====
section
/-! DEFINITION. The four feedback channels: hall, quadrature and pulse counting, speed, direction, index check (R368 to
R379). -/

namespace Sys2Proof.Machine

/-- A channel's record. -/
def fbkOf (s : State) (n : Nat) : Fbk := vget s.fbk n

/-- The counters run: not in Dormant or Ship (R378). -/
def fbkRuns (s : State) : Bool := s.pwr.power == .run || s.pwr.power == .doze

/-- An event of a channel, each kind logged once a batten (R376). -/
def fbkLog (s : State) (n code detail : Nat) : State :=
  if (fbkOf s n).logged.getLsbD (code - 1) then s
  else logEv (modFbk s n (fun f => { f with logged := setBit f.logged (code - 1) true })) (84 + n) code detail

/-- An error of R370 or R371: counted, the measurement restarts, the count stays. -/
def fbkError (s : State) (n code : Nat) : State :=
  fbkLog (modFbk s n (fun f => { f with errs := satAdd 16 f.errs 1, restart := true })) n code 0

/-- A signed 32-bit count that wraps. -/
def wrap32 (i : Int) : Int := ofTwos 32 (twos 32 i)

/-- The code of a direction (R379). -/
def dirCode : Dir → Nat
  | .none => 0 | .forward => 1 | .reverse => 2

/-- Counts per revolution: 6 × LINES in hall, 4 × LINES in quadrature (R369). -/
def perTurn (f : Fbk) : Nat := (if f.cfg.mode = 1 then 6 else 4) * f.cfg.lines

/-- The speed of a period of `p` ticks of 50 ns: 0.1 rpm, or 0.01 Hz in pulse-frequency mode, by direction (R373). -/
def speedOf (f : Fbk) (p : Nat) : Int :=
  let q : Rat :=
    if f.cfg.mode = 3 then mkRat 2000000000 p else mkRat 12000000000 (p * perTurn f)
  let v := satInt 32 (rndEven q)
  if f.dir == .reverse then -v else v

/-- A new period ends with a counted event (R373). -/
def newPeriod (f : Fbk) : Fbk :=
  if f.restart || f.since = 0 then { f with restart := false, since := 0 }
  else { f with period := satTo 32 f.since, speed := speedOf f f.since, since := 0 }

/-- The reported direction changes (R375). -/
def changeDir (s : State) (n : Nat) (d : Dir) : State :=
  fbkLog (modFbk s n (fun f => { f with dir := d, dirChanged := true, against := none, dirs := satAdd 16 f.dirs 1 }))
    n 6 (dirCode d)

/-- A count of hall or quadrature in direction `d` (R370, R371, R373 to R375). -/
def countDir (s : State) (n : Nat) (d : Dir) : State :=
  let s := modFbk s n (fun f => { f with pos := wrap32 (f.pos + if d == .forward then 1 else -1), still := false, countAt := s.bat.num })
  let f := fbkOf s n
  if f.dir == d then modFbk s n (fun f => newPeriod { f with against := none })
  else if f.dir == .none then
    let second := f.against == some d
    let s := modFbk s n (fun f => { f with against := some d, restart := false, since := 0 })
    if second then changeDir s n d else s
  else
    let second := f.against == some d
    let s := modFbk s n (fun f => { f with against := some d, restart := true, since := 0 })
    if second then changeDir s n d else s

/-- The hall order (R370): the code after `c` in the forward direction. -/
def hallNext (c : Nat) : Nat :=
  match c with
  | 1 => 3 | 3 => 2 | 2 => 6 | 6 => 4 | 4 => 5 | 5 => 1 | _ => 0

/-- A change of the hall code (R370). -/
def hallChange (s : State) (n new : Nat) : State :=
  if new = 0 ∨ new = 7 then fbkError (modFbk s n (fun f => { f with hallRef := none })) n 1
  else
    let old := (fbkOf s n).hallRef
    let s := modFbk s n (fun f => { f with hallRef := some new })
    match old with
    | none => s
    | some c =>
      if hallNext c = new then countDir s n .forward
      else if hallNext new = c then countDir s n .reverse
      else if new = c then s
      else fbkError s n 2

/-- The quadrature order: the state after `c` when FBnA leads. -/
def quadNext (c : Nat) : Nat :=
  match c with
  | 0 => 1 | 1 => 3 | 3 => 2 | _ => 0

/-- A change of the quadrature state (R371). -/
def quadChange (s : State) (n old new : Nat) : State :=
  if quadNext old = new then countDir s n .forward
  else if quadNext new = old then countDir s n .reverse
  else fbkError s n 3

/-- The deviation of an index edge that compares (R372). -/
def indexDeviation (f : Fbk) : Option Int :=
  if !f.indexSeen || f.dirChanged || f.dir != f.indexDir then none
  else
    match f.dir with
    | .forward => some (satInt 16 (wrap32 (f.pos - f.indexPos) - 4 * f.cfg.lines))
    | .reverse => some (satInt 16 (wrap32 (f.pos - f.indexPos) + 4 * f.cfg.lines))
    | .none => none

/-- A rising edge of the index line (R372). -/
def indexEdge (s : State) (n : Nat) : State :=
  let dev := indexDeviation (fbkOf s n)
  let s := modFbk s n (fun f => { f with
    edges := satAdd 16 f.edges 1
    indexSeen := true
    indexPos := f.pos
    indexDir := f.dir
    dirChanged := false
    deviation := dev.getD f.deviation
    mismatches := if dev.getD 0 = 0 then f.mismatches else satAdd 16 f.mismatches 1 })
  if dev.getD 0 = 0 then s else fbkLog s n 4 (twos 16 (dev.getD 0))

/-- A rising edge in pulse-frequency mode (R369, R373). -/
def pulseEdge (s : State) (n : Nat) : State :=
  modFbk s n (fun f => newPeriod { f with pos := wrap32 (f.pos + 1), still := false, countAt := s.bat.num })

/-- The hall reference that filtered levels give: their code where it is valid (R370). -/
def hallSeen (mode : Nat) (a b c : Bool) : Option Nat :=
  let k := b2n a + 2 * b2n b + 4 * b2n c
  if mode = 1 ∧ 0 < k ∧ k < 7 then some k else none

/-- The levels of a channel's lands. -/
def landLevels (s : State) (n : Nat) : Bool × Bool × Bool :=
  let w := vget s.lands.fb n
  (w.getLsbD 0, w.getLsbD 1, w.getLsbD 2)

/-- FEEDBACK_LINE_CHANGE: the levels of the lands, which pass the filter at a sample tick while it runs (R368, R378). -/
def execFeedbackLineChange (ch : Fin 4) (ls : LineSample) (s : State) : Out :=
  let n := ch.val
  let f := fbkOf s n
  let levels : BitVec 3 := BitVec.ofNat 3 (b2n ls.a + 2 * b2n ls.b + 4 * b2n ls.c)
  let s := { s with lands := { s.lands with fb := vset s.lands.fb n levels } }
  if !fbkRuns s then .next s
  else
    let ab := fun (x y : Bool) => b2n x + 2 * b2n y
    let s := modFbk s n (fun f => { f with a := ls.a, b := ls.b, c := ls.c, since := f.since + ls.ticks })
    match f.cfg.mode with
    | 1 =>
      let new := ab ls.a ls.b + 4 * b2n ls.c
      .next (if new = ab f.a f.b + 4 * b2n f.c && (f.hallRef.isSome || new = 0 || new = 7) then s else hallChange s n new)
    | 2 =>
      let s := if ab f.a f.b = ab ls.a ls.b then s else quadChange s n (ab f.a f.b) (ab ls.a ls.b)
      .next (if !f.c && ls.c then indexEdge s n else s)
    | 3 => .next (if !f.a && ls.a then pulseEdge s n else s)
    | _ => .next s

/-- STANDSTILL ms have passed without a counted event, by the battens counted; while these stand still the command itself tells
(R374; DEDUCED, log entry 18). -/
def stillDue (s : State) (f : Fbk) : Bool := !battensRun s || f.countAt + f.cfg.standstill ≤ s.bat.num

/-- FEEDBACK_STANDSTILL (R374). -/
def execFeedbackStandstill (ch : Fin 4) (s : State) : Out :=
  let n := ch.val
  let f := fbkOf s n
  if f.cfg.mode = 0 || f.still || !fbkRuns s || !stillDue s f then .next s
  else .next (fbkLog (modFbk s n (fun f => { f with still := true, speed := 0, period := 0, restart := true })) n 5 0)

/-- What an FBOUT land shows (R377): its input land with PASS, otherwise low; low in Unconfigured and Ship. It is a function of
the state, and so follows every change of the land, of the image and of the power state. -/
def fbkOut (s : State) (n : Nat) (line : Fin 3) : Bool :=
  (fbkOf s n).cfg.pass == 1 && !unconfigured s && s.pwr.power != .ship && (vget s.lands.fb n).getLsbD line

/-- A wake from Dormant: period measurement, direction and standstill timer start again; what the lands did asleep counts
nothing (R378). While the direction is none the speed reads 0 (R375), and its period with it (DEDUCED, log entry 47). -/
def fbkWake (s : State) : State :=
  forEach (List.range 4) (fun s n =>
    let (a, b, c) := landLevels s n
    modFbk s n (fun f => { f with
      a := a, b := b, c := c, hallRef := hallSeen f.cfg.mode a b c, countAt := s.bat.num
      speed := if f.cfg.mode = 3 then f.speed else 0, period := if f.cfg.mode = 3 then f.period else 0
      restart := true, since := 0, dir := .none, against := none, dirChanged := true })) s

/-- Every image load: counts and references cleared, the new record applied; the lines stay as they are, so that a valid
hall code that stands is the first one seen (R370, R378). -/
def fbkConfigure (s : State) (recs : List FeedbackRec) : State :=
  { s with fbk := Vector.ofFn (fun (i : Fin 4) =>
      let f := vget s.fbk i.val
      let r := recs.getD i.val {}
      { cfg := r, a := f.a, b := f.b, c := f.c, countAt := s.bat.num, hallRef := hallSeen r.mode f.a f.b f.c }) }

end Sys2Proof.Machine
end

