-- ==== Sys2Proof/Machine/Power.lean ====
section
/-! DEFINITION. The housekeeping round and the thermal levels (R402 to R407), the known events, Dormant, Ship and the
wakes (R139, R380 to R390), the crossings' commands (R397, R409). -/

namespace Sys2Proof.Machine

/-! ## Sensors (R402, R403, R405) -/

/-- A sensor's record changed. -/
def modSensor (s : State) (n : Nat) (f : Sensor → Sensor) : State :=
  { s with pwr := { s.pwr with sensors := vmod s.pwr.sensors n f } }

/-- The reading of a conversion; none for a failed one or one outside the sensor's range (R403). -/
def validReading (r : Option Int) : Option Int :=
  match r with
  | some t => if -550 ≤ t ∧ t ≤ 1750 then some t else none
  | none => none

/-- One reading of a sensor (R403, R405). -/
def readSensor (s : State) (n : Nat) (r : Option Int) : State :=
  let x := vget s.pwr.sensors n
  match validReading r with
  | none =>
    let y : Sensor := { x with
      temp := 1500, broken := true, rise := false, past := (none :: x.past).take 10, riseWait := x.riseWait - 1 }
    let s := modSensor s n (fun _ => y)
    if x.broken then s else logEv s 106 1 n
  | some t =>
    let up := match x.past.getD 9 none with
      | some old => decide (old + 20 ≤ t)
      | none => false
    let say := up && x.riseWait = 0
    let y : Sensor := {
      temp := t, broken := false, rise := up, past := (some t :: x.past).take 10
      riseWait := if say then 9 else x.riseWait - 1 }
    let s := modSensor s n (fun _ => y)
    let s := if x.broken then logEv s 106 2 n else s
    if say then logEv s 107 1 n else s

/-- The module temperature [0.1 °C] and the sensor that gives it, the lowest-numbered of the hottest (R402). -/
def moduleTemp (s : State) : Int × Nat :=
  (List.range 6).foldl (fun (m : Int × Nat) n =>
    let t := (vget s.pwr.sensors n).temp
    if m.1 < t then (t, n) else m) ((vget s.pwr.sensors 0).temp, 0)

/-! ## Thermal levels (R404) -/

/-- A level's entry and leave temperature [0.1 °C]. -/
def levelBounds : Nat → Int × Int
  | 1 => (950, 900)
  | 2 => (1100, 1050)
  | _ => (1250, 1200)

/-- The level at a temperature, from the level before. -/
def levelAt (old : Nat) (t : Int) : Nat :=
  (([1, 2, 3] : List Nat).filter (fun l =>
    decide ((levelBounds l).1 ≤ t) || (decide (l ≤ old) && decide ((levelBounds l).2 ≤ t)))).getLast?.getD 0

/-- One level entered: its event, its count, and the orderly stop at Shutdown (R404, R406). -/
def enterLevel (s : State) (l : Nat) : State :=
  let s := { s with
    pwr := { s.pwr with
    level := l
    warnings := if l = 1 then satAdd 8 s.pwr.warnings 1 else s.pwr.warnings
    throttles := if l = 2 then satAdd 8 s.pwr.throttles 1 else s.pwr.throttles }
    est := { s.est with evenOnly := s.est.evenOnly || l == 2 } }
  let s := logEv s 105 l l
  if l = 3 && s.pwr.stop = 0 then
    let s := { s with pwr := { s.pwr with shutdownAt := s.bat.num } }
    if unconfigured s then { s with pwr := { s.pwr with offSent := true } }
    else if inBench s then beginStop { s with pwr := { s.pwr with stop := 3 } }
    else { s with pwr := { s.pwr with stop := 1 } }
  else s

/-- One level left. -/
def leaveLevel (s : State) (l : Nat) : State := logEv { s with pwr := { s.pwr with level := l - 1 } } 105 4 (l - 1)

/-- The levels after a round's reading: every entry and every exit on the way, one by one. -/
def judgeLevel (s : State) : State :=
  let old := s.pwr.level
  let new := levelAt old (moduleTemp s).1
  if old < new then forEach (([1, 2, 3] : List Nat).filter (fun l => old < l && l ≤ new)) enterLevel s
  else forEach (([3, 2, 1] : List Nat).filter (fun l => new < l && l ≤ old)) leaveLevel s

/-! ## The housekeeping run (R402) -/

/-- A sensor's conversion as both cores take it: what an agreement read of this batten returned; else the read is made here,
with its stall: the higher of two different samples where the agreement unit compares, else the lead core's (R273, R274,
R282). -/
def agreedReading (s : State) (n : Fin 6) (a : AdcSample) : State × Option Int :=
  match a, agreedFor s (.temperature n) with
  | .failed, _ => (s, none)
  | .ok _ _, some v => (s, some v.toInt)
  | .ok lead check, none =>
    if !agreementOn s then (s, some lead)
    else
      let s := { s with cpr := { s.cpr with lagNow := 0 } }
      (if lead = check then s else noteDisagreement s (.temperature n) [5], some (max lead check))

/-- The HOUSEKEEPING run of course n measures part n mod 10 (R402); the level follows at its end (R404). -/
def housekeeping (s : State) (a : AdcSample) : State :=
  let part := courseOf s % 10
  if part < 6 then
    let (s, r) := agreedReading s (Fin.ofNat 6 part) a
    judgeLevel (readSensor s part r)
  else
    match a with
    | .ok lead _ => { s with pwr := { s.pwr with rails := vset s.pwr.rails (part - 6) (satTo 16 lead.toNat) } }
    | .failed => s

/-! ## The orderly stop (R406, R407) -/

/-- What a network port loses in reset: links, PTP, PRP and GOOSE states (R400, R407). -/
def netReset (s : State) : State :=
  { s with hst := { s.hst with
    linkA := .down, linkB := .down, nodes := [], dups := [], prpSeq := 0, leapKnown := false
    gm := none, gmA := none, gmB := none, ptpPort := 0, annA := 0, annB := 0
    syncAt := 0, syncA := none, syncB := none, pdelayA := 0, pdelayB := 0, icmpA := 0, icmpB := 0
    goose := Vector.replicate 24 {}, gooseHeld := [] } }

/-- The cores halt: the sequencer, the ports and the isolated converter stop, the networks and CAN are held in reset,
the hold window starts (R406, R407). -/
def haltCores (s : State) : State :=
  let s := forEach [8, 9, 10, 11] crossReset (netReset (vergeOff s))
  startHold { s with
    can := Vector.replicate 2 {}
    bat := { s.bat with todo := [], running := none, pausing := false }
    owl := { s.owl with bulkOpen := false }
    pwr := { s.pwr with stop := 4, halted := true, coolRounds := 0, offSent := false, allOff := false } }

/-- One round of all six sensors by hardware: no agreement is made, the higher sample counts. -/
def hardRound (s : State) (r : Vector AdcSample 6) : State :=
  forEach (List.range 6) (fun s n =>
    match r.toList.getD n .failed with
    | .ok a b => readSensor s n (some (max a b))
    | .failed => readSensor s n none) s

/-- THERMAL_HALT: at the edge after the all-off word. In Unconfigured, where no HOUSEKEEPING slot runs, the round that
comes with it is judged first (R406). -/
def execThermalHalt (sensors : Vector AdcSample 6) (s : State) : Out :=
  if s.pwr.halted || !mapUp s || s.img.restarting then .next s
  else
    let s := if unconfigured s then judgeLevel (hardRound s sensors) else s
    .next (if s.pwr.offSent then haltCores s else s)

/-! ## Known events (R385) -/

/-- The port is to sleep-balance: native, permitted, budget left, its targets acknowledged (R139). -/
def sleepBalances (s : State) (p : Nat) : Bool :=
  let q := portOf s p
  (portRec s p).kind == 1 && balanceAllowed s p && !q.sleepNak
    && (List.range (portCells s p)).any (fun i => 0 < vget q.budget i)

/-- The largest BUDGET of the ports that sleep-balance [s], up to a whole second. -/
def largestBudget (s : State) : Nat :=
  ((usedPorts s).filter (sleepBalances s)).foldl (fun m p =>
    (List.range (portCells s p)).foldl (fun m i => max m (ceilDiv (vget (portOf s p).budget i) 1000000)) m) 0

/-- The known events: batten, code of PWR_NEXT. -/
def knownEvents (s : State) : List (Nat × Nat) :=
  let b := largestBudget s
  (if 0 < b then [(s.bat.num + 1000 * b, 1)] else [])
    ++ [((s.bat.num / 3600000 + 1) * 3600000, 2)]
    ++ (if s.bat.num < s.pwr.wakeAt then [(s.pwr.wakeAt, 3)] else [])

/-- The batten of the earliest known event. -/
def nextEvent (s : State) : Nat := (knownEvents s).foldl (fun m e => min m e.1) ((s.bat.num / 3600000 + 1) * 3600000)

/-- The code of the earliest known event: of several in one batten the lowest. -/
def nextCode (s : State) : Nat := (((knownEvents s).filter (fun e => e.1 == nextEvent s)).map (·.2)).headD 0

/-- The PWR_WAKE bits of the earliest known events (R387). -/
def nextBits (s : State) : Nat := sumN (((knownEvents s).filter (fun e => e.1 == nextEvent s)).map (fun e => 4 * 2 ^ e.2))

/-- The time to the next known event in whole seconds. -/
def nextSeconds (s : State) : Nat := (nextEvent s - s.bat.num) / 1000

/-! ## The decision (R384) -/

/-- Every condition of R384 but the last holds. -/
def dormantReady (s : State) : Bool :=
  let after := (s.cfg.power.map (·.dormantAfter)).getD 0
  after != 0 && operating s && allOpen s && after ≤ s.pwr.quietMs / 1000 && s.pwr.level < 3
    && s.cpr.coupling == .joined && coresRun s && s.img.stage == .idle
    && (usedPorts s).all (fun p => (portOf s p).test.isNone)
    && (List.range 8).all (fun n => (sessOf s n).outstanding.isNone)
    && s.hst.queue.isEmpty && s.hst.release.isEmpty && s.hst.results.isEmpty
    && s.rdg.incoming.isEmpty && s.rdg.latched.isEmpty
    && s.led.staged.isEmpty && s.led.busy.isNone && s.led.held.isEmpty
    && (List.range 4).all (fun i => (vget s.pgr.segs i).st != .collecting)
    && (usedPorts s).all (fun p =>
      let st := (portOf s p).st
      st != .syncing && st != .identifying && st != .proving)

/-- A native port is being balanced: permitted, with bleed budget left (R138, R139). -/
def beingBalanced (s : State) (p : Nat) : Bool :=
  (portRec s p).kind == 1 && balanceAllowed s p && (List.range (portCells s p)).any (fun i => 0 < vget (portOf s p).budget i)

/-- Step 2 of R386: the balance computation of R136 for every string, and the targets of the native ports being balanced
before it or by it written again (R139). -/
def rewriteTargets (s : State) : State :=
  let before := (usedPorts s).filter (beingBalanced s)
  let s := forEach (strs s) balanceString s
  forEach (usedPorts s) (fun s p =>
    if before.contains p || beingBalanced s p then
      sendTargets (modPort s p (fun q => { q with sleepNak := false })) p
    else s) s

/-- The decision for Dormant where R384 allows it: targets rewritten, CHARGE with CAUSE 2 staged (R386). -/
def decideDormant (s : State) : State :=
  if dormantReady s && s.pwr.entering.isNone && !s.pwr.shipOrdered && s.bat.num + 10000 ≤ nextEvent s then
    let s := rewriteTargets s
    startCommit (stage { s with pwr := { s.pwr with entering := some s.bat.num } } (.write (.charge 2)))
  else s

/-- The decision at the closing checkpoint of batten 9 of a course; none within a wake round (R384, R389). -/
def dormantTest (s : State) : State := if phaseOf s = 9 && s.pwr.wakeRound.isNone then decideDormant s else s

/-- The entry is abandoned: the module stays in Run (R386). -/
def abandonEntry (s : State) : State :=
  if s.pwr.entering.isNone || s.pwr.asleep then s
  else
    logEv { s with pwr := { s.pwr with
      entering := none, last := false, abandons := satAdd 8 s.pwr.abandons 1 } } 108 3 0

/-- The module may go on toward Dormant or Ship: in Operating with every string Open (R22, R390). -/
def entryHolds (s : State) : Bool := operating s && allOpen s

/-- An entry whose condition has gone is abandoned (R22). -/
def entryCheck (s : State) : State := if entryHolds s then s else abandonEntry s

/-- DORMANT_ENTRY_ABANDON: acts in steps 1 to 5 of an entry. -/
def execDormantEntryAbandon (s : State) : Out := .next (abandonEntry s)

/-! ## The last batten and the entry (R139, R386) -/

/-- A target write of a port still waits for its answer. -/
def targetsWait (q : Port) : Bool :=
  let w := fun (b : BulkReq) => match b with | .write (1 :: _) => true | _ => false
  q.bulk.any w || q.inFlight.any w

/-- The last batten may begin at this edge: every string still Open, every ACK taken or 3 battens passed, and the commits
ended, those that wait for a checkpoint included (R22, R139, R201, R386, R390). -/
def lastDue (s : State) : Bool :=
  if s.pwr.last || s.pwr.asleep || !entryHolds s then false
  else if s.pwr.shipOrdered then stopDone s
  else match s.pwr.entering with
    | some b => s.led.busy.isNone && s.led.staged.isEmpty && s.led.held.isEmpty
        && (b + 4 ≤ s.bat.num || (usedPorts s).all (fun p => !targetsWait (portOf s p)))
    | none => false

/-- The last batten begins: a port whose targets were not acknowledged counts as one that refused them (R139). -/
def beginLast (s : State) : State :=
  let s := { s with pwr := { s.pwr with last := true } }
  forEach (usedPorts s) (fun s p =>
    if targetsWait (portOf s p) then
      modPort s p (fun q => { q with
        sleepNak := true, bulk := q.bulk.filter (fun b => match b with | .write (1 :: _) => false | _ => true) })
    else s) s

/-- The CMD of the last batten: SLEEP_BALANCE or BLEED_OFF; BLEED_OFF alone before Ship (R139, R386, R390); NOP while the
cores reset (R236). -/
def sleepCmd (s : State) (p : Nat) : State :=
  if !portActive s p then s
  else if !coresRun s then putCmd s p { tselA := 255, tselB := 255, code := 0, arg := [] }
  else
    let (a, b, pos) := thermSelect s p
    let on := sleepBalances s p && !s.pwr.shipOrdered
    modPort (putCmd s p { tselA := a, tselB := b, code := if on then 5 else 7, arg := [] }) p (fun q => { q with
      thermPos := pos, balancing := on })

/-- Steps 5 and 6 of R386 at the clean closing checkpoint of the last batten: the Dormant entry item to Spar, every
channel off, CAN stopped; the AON wake timer is set; the cores and the estimator engine stop, and a run the engine has not
finished is lost (R158; log entry 67). The cores stop once their words have left the pair, the entry of the Dormant entry
among them (R417). -/
def fallAsleep (s : State) : State :=
  let slept := (usedPorts s).flatMap (fun p =>
    if sleepBalances s p && !s.pwr.shipOrdered then
      (List.range (portCells s p)).filterMap (fun i =>
        let q := portOf s p
        if 0 < vget q.budget i then some (firstCell s p + i, vget q.budget i / 1000000, vget q.ib i) else none)
    else [])
  let s := forEach (usedPorts s) (fun s p =>
    if sleepBalances s p && !s.pwr.shipOrdered then modPort s p (fun q => { q with progressDue := true }) else s) s
  let s := { s with
    est := { s.est with slept := slept, snap := none }
    pwr := { s.pwr with timer := some (nextEvent s, nextBits s), next := nextSeconds s, nextKind := nextCode s } }
  let s := if s.pwr.shipOrdered then s else releaseHeld (logEv s 108 1 s.pwr.nextKind)
  let s := { s with spar := { s.spar with dormant := true, laneMask := usedLanes s.spar } }
  let s := crossDrain (channelsDown (sparGates (canStop s)))
  { s with pwr := { s.pwr with asleep := true, last := false, entering := none } }

/-- Crossing 6 holds no word, nor does the gate before it (R386). -/
def wordsTaken (s : State) : Bool := s.eav.word.isNone && s.eav.wordNext.isNone && s.eav.gated.isNone

/-- What the closing checkpoint of a batten does for the power states, once it is clean: the decision, or at the end of the
last batten step 6. An entry whose condition has gone, or in whose last batten an order was accepted, is abandoned; while
crossing 6 has not emptied, the step waits (R22, R384, R386). -/
def powerCheckpoint (s : State) : State :=
  if !s.pwr.last then dormantTest s
  else if !entryHolds s || !s.rdg.incoming.isEmpty then abandonEntry s
  else if wordsTaken s then fallAsleep s else s

/-- DORMANT_ENTRY: step 6 ends; the last batten's samples enter the charge counters (R148); PSRAM and NOR are put to sleep,
the isolated converter, the PLLs and the crystal stop (R22, R380, R386). -/
def execDormantEntry (s : State) : Out :=
  if s.pwr.asleep && !s.pwr.shipOrdered && s.pwr.power != .dormant && entryHolds s then
    let s := vergeOff (histBatten (vergeBattenEnd (impBattenEnd s)))
    .next { s with
      bat := { s.bat with todo := [], running := none }
      pwr := { s.pwr with power := .dormant, memoriesDown := true, entries := satAdd 8 s.pwr.entries 1 } }
  else .next s

/-! ## Wakes (R26, R387 to R389) -/

/-- The bit of a wake source in PWR_WAKE. -/
def wakeBit : WakeSource → Nat
  | .wakeLand => 1 | .gable => 2 | .spar => 4

/-- Spar has something to wake for: a latch, a press, an actuation (R387). -/
def sparWakes (s : State) : Bool :=
  sparRuns s && (s.spar.causes != 0 || s.spar.pressed || s.spar.actuation)

/-- A wake begins with its cause, once step 6 has begun and no other is in progress (R386, R388). -/
def beginWake (s : State) (bits : Nat) : State :=
  if s.pwr.asleep && !s.pwr.shipOrdered && !s.pwr.waking then
    { s with pwr := { s.pwr with waking := true, wake := BitVec.ofNat 6 bits } }
  else s

/-- A wake source shows: it abandons an entry in its first steps, or wakes (R386, R387). -/
def wakeBy (s : State) (src : WakeSource) : State :=
  if src == .spar && !sparWakes s then s
  else if s.pwr.asleep then beginWake s (wakeBit src)
  else abandonEntry s

/-- WAKE_SOURCE. -/
def execWakeSource (src : WakeSource) (s : State) : Out := .next (wakeBy s src)

/-- AON_WAKE_TIMER: the timer set at the entry has run out. -/
def execAonWakeTimer (s : State) : Out :=
  match s.pwr.power == .dormant, s.pwr.timer with
  | true, some (_, bits) => .next (beginWake s bits)
  | _, _ => .next s

/-- The ports at a wake: back to SYNCING, their cells stale (R110, R400); a port already in SYNCING goes on with the
battens it had counted (DEDUCED, log entry 63). The first batten's CMD arms the satellite of a port that sends one
(R167), and the courses slept count since its last completed test (R143). -/
def wakePort (courses : Nat) (s : State) (p : Nat) : State :=
  let st := (portOf s p).st
  let arms := s.cfg.impedance.isSome && portActive s p
  let s := if st == .inService || st == .proving || st == .identifying then staleCells (portSync s p 0) p else s
  modPort s p (fun q => { q with
    owCourses := satAdd 8 q.owCourses courses
    cmdQueue := if arms then { code := 2, arg := [0] } :: q.cmdQueue.filter (·.code != 2) else q.cmdQueue })

/-- WAKE_COMPLETE: the batten number takes the battens elapsed; clocks, ports, CAN and feedback channels come back
(R26, R158, R160, R388, R389); a learning round that fell due in a course slept through is due (R189; DEDUCED, log entry
67). -/
def execWakeComplete (elapsed : Nat) (s : State) : Out :=
  if !s.pwr.waking then .next s
  else
    let n := s.bat.num + elapsed
    let hold := s.bat.sync == .locked || s.bat.sync == .holdover
    let fell := s.bat.sync == .locked
    let rest := Vector.ofFn (fun (k : Fin 4) =>
      vget s.est.restMs k.val + if s.est.quiet.getLsbD k.val then elapsed else 0)
    let round := s.pwr.wake &&& 0x27#6 == 0
    let s : State := { s with
      bat := { s.bat with
        num := n, first := true, sync := if hold then .holdover else s.bat.sync
        holdMs := if s.bat.sync == .locked then elapsed else if hold then s.bat.holdMs + elapsed else 0
        trim := if hold then s.bat.freqEst else s.bat.trim }
      est := { s.est with restMs := rest }
      pgr := { s.pgr with updates := 0, hist := Vector.replicate 4 {} }
      tha := { s.tha with cells := s.tha.cells.map (fun r => { r with hMin := 65535, hMax := 0, hFlags := 0 }) }
      spar := { s.spar with dormant := false }
      hst := if hold then { s.hst with gm := none, gmA := none, gmB := none, ptpPort := 0 } else s.hst
      pwr := { s.pwr with
        power := .run, asleep := false, memoriesDown := false, waking := false, timer := none, dormantLen := satTo 16 (elapsed / 1000)
        wakeRound := if round then some n else none
        quietMs := if round then s.pwr.quietMs + elapsed else 0 } }
    let courses : Nat := (n - 1) / 10 - (n - elapsed) / 10
    let hundredth : Bool := (n - elapsed) / 1000 < (n - 1) / 1000
    let s := impAsleep (oweLedger s (fun w => { w with
      roundAge := satAdd 16 w.roundAge courses, roundDue := w.roundDue || hundredth })) elapsed
    let s := fbkWake (canWake (sparGates s))
    let s := forEach (usedPorts s) (wakePort courses) s
    let s := logEv s 108 2 s.pwr.wake.toNat
    .next (if fell then logEv s 125 1 3 else s)

/-- The conditions that end a wake round (R389). -/
def roundOver (s : State) (b : Nat) : Bool :=
  b + 10000 ≤ s.bat.num
    || ((usedPorts s).all (fun p =>
          let st := (portOf s p).st
          st == .inService || st == .outOfService)
        && (usedPorts s).all (fun p => !(portOf s p).progressDue)
        && s.est.force.any (fun f => b ≤ f.batten))

/-- A wake round ends at a batten 0 edge, and R384 is tested again at once (R389). -/
def wakeRoundStep (s : State) : State :=
  match s.pwr.wakeRound with
  | some b =>
    if (phaseOf s = 0 || b + 10000 ≤ s.bat.num) && roundOver s b then
      decideDormant { s with pwr := { s.pwr with wakeRound := none } }
    else s
  | none => s

/-- WAKE_ROUND_END: acts where the round is over. -/
def execWakeRoundEnd (s : State) : Out := .next (wakeRoundStep s)

/-! ## Crossings (R393, R396, R397, R409) -/

/-- CDC_OVR written: bits set to 1 clear; none where it is refused (R409). -/
def cdcClear (s : State) (who : Who) (mask : BitVec 15) : Option State :=
  if isSupervise s who then some { s with cdc := { s.cdc with ovr := s.cdc.ovr &&& ~~~mask } } else none

/-- The reader's end of a crossing is held in reset (R396, R397): a port without an image, the Verge die unpowered or
unconfigured, Spar in its own reset, a network port without a MAC, a controller that is not configured. A crossing with more
than one port or controller is held when all of them are. -/
def readerInReset (s : State) (k : Nat) : Bool :=
  match k with
  | 0 => unconfigured s
  | 2 => !s.vrg.powered
  | 4 => unconfigured s
  | 6 => s.spar.inReset
  | 8 => s.pwr.halted || (!portUsed s .netA && !portUsed s .netB)
  | 10 => s.can.toList.all (fun c => !c.configured)
  | _ => false

/-- CROSSING_WAKE_REQUEST: an item is written into a crossing whose reader's clock is gated: the clock opens, the item is
carried and the request is counted; a reader held in reset drops it (R397). In Dormant and Ship no such request is
made. -/
def execCrossingWakeRequest (k : Fin 15) (s : State) : Out :=
  if !mapUp s then .next s
  else if readerInReset s k.val then .next (crossDrop s k.val 1)
  else .next (crossWrite (crossTake { s with cdc := { s.cdc with wakes := satAdd 16 s.cdc.wakes 1 } } k.val) k.val)

end Sys2Proof.Machine
end

