-- ==== Sys2Proof/Machine/Learn.lean ====
section
/-! DEFINITION. Learning rounds (R189 to R194): Rser from the run's evidence, capacity from pairs of references held in
PSRAM. -/

namespace Sys2Proof.Machine

/-- The address of a cell's reference ring (R204). -/
def ringAddr (c : Nat) : Nat := 0xC00000 + 0x200 * c

/-- A reference's 32 octets (R192). -/
def refBytes (r : Ref) : List Byte :=
  natLe 6 r.batten ++ [0#8, 0#8] ++ natLe 4 (singleBits r.soc) ++ natLe 4 (singleBits r.sigma) ++ intLe 8 r.charge
    ++ natLe 4 r.bleed ++ natLe 4 r.gaps

/-- A reference from its 32 octets. -/
def refOf (l : List Byte) : Ref :=
  { batten := fieldLe l 0 6, soc := ofSingle (fieldLe l 8 4), sigma := ofSingle (fieldLe l 12 4), charge := fieldSe l 16 8,
    bleed := fieldLe l 24 4, gaps := fieldLe l 28 4 }

/-- The references of a cell, oldest first: entries up to the first empty one. -/
def readRing (s : State) (c : Nat) : List Ref :=
  ((List.range 16).map (fun i => refOf (memGets ramBlank s.psram (ringAddr c + 32 * i) 32))).takeWhile (fun r => r.batten != 0)

/-- A cell's ring written; its page is modified. -/
def writeRing (s : State) (c : Nat) (l : List Ref) : State :=
  let m := memErase s.psram (ringAddr c) (ringAddr c + 0x200)
  { s with
    psram := memPuts ramBlank m (ringAddr c) (l.flatMap refBytes)
    pgr := { s.pgr with cache := s.pgr.cache.map (fun p => if p.no == ringAddr c / 4096 then { p with modified := true } else p) } }

/-- A learning record of a cell changed in the pending copy. -/
def modLearn (s : State) (c : Nat) (f : LearnCell → LearnCell) : State :=
  { s with led := { s.led with cells := vmod s.led.cells c f } }

/-- I_step of R190 [A]. -/
def iStepOf (s : State) : Rat := maxR (mkRat s.cfg.plant.cellAh 20000) 5

/-- The Rser step (R191). -/
def learnRser (s : State) (c : Nat) : State :=
  let l := vget s.led.cells c
  if l.bR < 4 * sq (iStepOf s) then s
  else
    let rm := r32 (l.aR / l.bR)
    let vr := r32 (2 * mkRat 225 100000000 / l.bR + sq (rm / 50))
    let pr := r32 (l.pr + sq (l.rser / 1000))
    if 25 * (pr + vr) < sq (rm - l.rser) then
      modLearn s c (fun l => { l with aR := 0, bR := 0, pr := pr, refused := satAdd 8 l.refused 1 })
    else
      let k := r32 (pr / (pr + vr))
      let r := r32 (l.rser + k * (rm - l.rser))
      let r0 : Rat := mkRat (cellModel s c).rser 1000000
      let held := clampR (r0 / 4) (4 * r0) r
      let s := modLearn s c (fun l => { l with aR := 0, bR := 0, rser := held, pr := r32 ((1 - k) * pr) })
      if held != r then logEv s 93 1 c else s

/-- The ring takes the pending reference (R192). -/
def ringTake (l : List Ref) (r : Ref) : List Ref :=
  match l.getLast? with
  | none => [r]
  | some n =>
    if r.batten ≤ n.batten then l
    else if mkRat 1 100 ≤ absR (r.soc - n.soc) then (if 16 ≤ l.length then l.drop 1 else l) ++ [r]
    else if r.sigma < n.sigma then l.dropLast ++ [r]
    else l

/-- A pair's Q_m and r when it is eligible (R193). -/
def pairOf (s : State) (l : LearnCell) (a b : Ref) : Option (Rat × Rat) :=
  let d := a.soc - b.soc
  let bleed : Int := ((b.bleed + 2 ^ 32 - a.bleed) % 2 ^ 32 : Nat)
  let c : Rat := mkRat (b.charge - a.charge) 1000000 + mkRat bleed 1000
  if d = 0 then none
  else
    let qm := r32 (c / (3600 * d))
    let r := r32 ((sq a.sigma + sq b.sigma) / sq d + mkRat 4 1000000)
    let ah : Rat := mkRat s.cfg.plant.cellAh 1000
    let within := if l.status == .learned then decide (7 / 10 * l.q ≤ qm) && decide (qm ≤ 13 / 10 * l.q)
      else decide (ah / 2 ≤ qm) && decide (qm ≤ 3 / 2 * ah)
    if decide (1 / 10 ≤ absR d) && decide (0 < c * d) && a.gaps == b.gaps && decide (r ≤ 9 / 10000) && within then some (qm, r) else none

/-- The eligible pair with the smallest r, the older winning a tie: index of b, Q_m, r. -/
def bestPair (s : State) (l : LearnCell) (ring : List Ref) : Option (Nat × Rat × Rat) :=
  let n := ring.length
  let pairs := (List.range n).flatMap (fun i => (List.range n).filterMap (fun j =>
    if i < j then (pairOf s l (ring.getD i {}) (ring.getD j {})).map (fun q => (j, q.1, q.2)) else none))
  pairs.foldl (fun (m : Option (Nat × Rat × Rat)) x =>
    match m with
    | none => some x
    | some y => if x.2.2 < y.2.2 then some x else some y) none

/-- A cell's record falls due by a LEARN run's own work, which a restart of its partition discards (R201, R276). -/
def learnDue (s : State) (c : Nat) : State :=
  { s with led := { s.led with work := dueWith (.cell (ledgerCell s c)) s.led.work } }

/-- The capacity step (R192, R193). -/
def learnQ (s : State) (c : Nat) : State :=
  let l := vget s.led.cells c
  let ring := readRing s c
  let ring1 := match l.pend with
    | some r => ringTake ring r
    | none => ring
  let pq := r32 (l.pq + sq (l.q / 100000))
  match bestPair s l ring1 with
  | none =>
    let s := modLearn s c (fun l => { l with pq := pq })
    if ring1 != ring then writeRing s c ring1 else s
  | some (j, qm, r) =>
    let k := r32 (pq / (pq + sq qm * r))
    let q := r32 (l.q + k * (qm - l.q))
    let ah : Rat := mkRat s.cfg.plant.cellAh 1000
    let held := clampR (ah / 2) (6 / 5 * ah) q
    let s := modLearn s c (fun l => { l with
      q := held, pq := r32 ((1 - k) * pq), updates := satAdd 8 l.updates 1, lifetime := satAdd 32 l.lifetime 1 })
    let s := learnDue (writeRing s c (ring1.drop j)) c
    if held != q then logEv s 93 1 (c + 512) else s

/-- The round's end: FIRST and UNLEARNED cells that have converged become LEARNED (R194). -/
def roundEnd (s : State) : State :=
  let s := forEach (List.range (nCells s)) (fun s c =>
    let l := vget s.led.cells c
    if l.status != .learned && 1 ≤ l.updates && decide (sqrtR l.pq ≤ l.q / 50) && decide (sqrtR l.pr ≤ l.rser / 20) then
      let s := modLearn s c (fun l => { l with status := .learned })
      learnDue { s with est := { s.est with unlearned := setBit s.est.unlearned c false } } c
    else s) s
  { s with led := { s.led with work := { s.led.work with roundOn := false, next := 0, roundAge := 0 } } }

/-- The ring pages of a LEARN run's cells (R207). -/
def learnPages (n : Nat) : List Nat := (List.range 4).map (fun i => (ringAddr n) / 4096 + i)

/-- A run's share of a round: its cells, when their pages are resident; the round ends after the last cell (R189, R207). -/
def learnCells (s : State) : State :=
  let n := s.led.work.next
  let pages := learnPages n
  if s.pgr.psramOk && !pages.all (resident s) then s
  else
    let last := min (n + 32) (nCells s)
    let s := forEach ((List.range (last - n)).map (n + ·)) (fun s c =>
      let s := learnRser s c
      if s.pgr.psramOk then learnQ s c else s) s
    let s := forEach pages touchPage s
    let s := { s with
      pgr := { s.pgr with queue := s.pgr.queue.filter (fun r => !(r.cls == PageClass.learn && pages.contains r.page)) }
      led := { s.led with work := { s.led.work with next := last } } }
    if nCells s ≤ last then roundEnd s else s

/-- A LEARN run: up to 32 cells in ascending order when their four pages are resident, then the requests for the cells
its following run will process, in a round or before the next one (R189, R207). Without PSRAM only Rser is learned (R204). -/
def learnRun (s : State) : State :=
  let s := if !s.led.work.roundOn && s.led.work.roundDue then
      { s with led := { s.led with work := { s.led.work with roundOn := true, roundDue := false, next := 0 } } }
    else s
  let s := if s.led.work.roundOn then learnCells s else s
  if s.pgr.psramOk then forEach (learnPages s.led.work.next) (fun s p => (requestPage s PageClass.learn p).1) s else s

end Sys2Proof.Machine
end

