-- ==== Sys2Proof/Machine/Load.lean ====
section
/-! DEFINITION. The starts (R82, R83, R391, R398 to R401, R421, R422): what each reset leaves, the load of an image
(R73 to R75, R202, R205), Unconfigured, Ship. A start's kind is its code of R398. -/

namespace Sys2Proof.Machine

/-! ## What a start leaves -/

/-- A start that reaches the Spar/Eaves die: a power-on (R398). -/
def reachesSpar (kind : Nat) : Bool := kind ≤ 1
/-- A start that is no warm restart. -/
def coldKind (kind : Nat) : Bool := kind ≤ 3

/-- The commit in progress when the logic die resets: it has ended, or its slot is left invalid; the manual leaves open
which. -/
def cutCommit (s : State) : State :=
  match s.led.busy with
  | none => s
  | some (c, _, payload) =>
    let ended := (Config.freeWord s.fresh).getLsbD 0
    let t := { s with fresh := s.fresh + 16, led := { s.led with busy := none } }
    writeSlot t (commitRec c) (commitTarget s c) (if ended then commitBytes s c payload else failedSlot (s.fresh + 1))

/-- The commits staged at a warm restart end before the ledger is read: 62 ms pass (R82, R198). -/
def settleCommits (s : State) : State :=
  forEach (List.range 40) (fun s _ =>
    match execLedgerCommitComplete true s with
    | .next t => t
    | _ => s) s

/-- Spar at a start: in START after a power-on, else as it is, its times counted from the new batten 0. The hold of a
service order ends with the ports' new admission (R106, R110, R400). -/
def sparStart (s : State) (kind : Nat) : Spar :=
  if reachesSpar kind then {}
  else
    let n : Int := s.bat.num
    { s.spar with
      unmaskReq := 0, service := 0, dormant := false, firstSeen := false, tripAt := none, cfgDue := false
      resumeOwed := s.spar.resumeOwed && !coldKind kind
      resetFrom := s.spar.resetFrom.map (· - n), resetTo := s.spar.resetTo.map (· - n), pressLost := s.spar.resetFrom.isSome }

/-- Eaves at a start: every channel off after a power-on, else as it is (R400, R421, R422). -/
def eavStart (s : State) (kind : Nat) : Eav :=
  if reachesSpar kind then {}
  else
    let n : Int := s.bat.num
    let put := fun (c : Chan) => { c with lastClamp := c.lastClamp.map (· - n), clampLost := c.lastClamp.isSome }
    { s.eav with
      auxCmd := 0, auxDuty := Vector.replicate 8 0, expired := false, chans := s.eav.chans.map put
      word := if coldKind kind then none else s.eav.word, wordNext := if coldKind kind then none else s.eav.wordNext }

/-- The Verge die at a start: without power after a reset that reaches it, else converting on, its last insulation
result with it (R365, R367, R398). -/
def vrgStart (s : State) (kind : Nat) : Vrg :=
  if coldKind kind then {}
  else
    let v := s.vrg
    { powered := v.powered, delay := v.delay, supplyGood := v.supplyGood, refGood := v.refGood, clockGood := v.clockGood
      stopped := v.stopped, missing := v.missing, v := v.v, i := v.i, firstValid := v.firstValid, comparators := v.comparators
      rPos := v.rPos, rNeg := v.rNeg, result := v.result, busDead := v.busDead, above := v.above, below := v.below
      unsettled := v.unsettled, resMains := v.resMains, resAt := v.resAt, resFrom := v.resFrom - s.bat.num
      noResult := v.noResult, warned := v.warned }

/-- The CAN controllers at a start: in reset; the frames that a warm restart let complete were sent (R349, R400). -/
def canStart (s : State) (kind : Nat) : Vector Can 2 :=
  if coldKind kind then Vector.replicate 2 {} else s.can.map (fun k => { onBus := k.onBus })

/-- The Gutter at a start (R400). -/
def gtrStart (s : State) (kind : Nat) : Gtr :=
  if coldKind kind then {}
  else { ring := s.gtr.ring, total := s.gtr.total, routed := s.gtr.total }

/-- The pager at a start: PSRAM not tested yet at a cold start, its fault segments kept except at power-on and brown-out, their
battens counted back from the new image's batten 0 (R204, R205). -/
def pgrStart (s : State) (kind : Nat) : Pgr :=
  { psramOk := !coldKind kind && s.pgr.psramOk
    segs := if kind ≤ 2 then Vector.replicate 4 {} else s.pgr.segs.map (fun g => { g with
      start := g.start - s.bat.num, latest := g.latest - s.bat.num, frozenAt := g.frozenAt - s.bat.num }) }

/-- The power side at a start (R421, R422). -/
def pwrStart (s : State) (kind : Nat) : Pwr :=
  if coldKind kind then { startKind := kind }
  else { startKind := kind, wakeAt := s.pwr.wakeAt, sensors := s.pwr.sensors, rails := s.pwr.rails }

/-- The module right after the reset part of a start, with no image loaded. VHOLD_OK stands through a reset that leaves VHOLD
charged (R429). An image reload sets CDC_ registers to 0 (R421) and resets the crossings of what it resets, which counts what
they drop (R395, R396; DEDUCED, log entry 52). Insulation results go on counting over a
restart that leaves the Verge die alone (R229, R365; DEDUCED, log entry 71). -/
def startState (s : State) (kind : Nat) : State :=
  let cold := coldKind kind
  let led : Led := if kind ≤ 1 then {} else if kind = 2 then { vholdOk := s.led.vholdOk }
    else { vholdOk := s.led.vholdOk, pfail := s.led.pfail, finalDone := s.led.finalDone }
  let ended := (splitLost s).cpr
  let cpr : Cpr := if cold then {} else { lastPart := s.cpr.lastPart, lastKind := s.cpr.lastKind
                                          splitRes := if s.cpr.coupling == .joined then 0 else ended.splitRes
                                          job := if s.cpr.coupling == .joined then 0 else ended.job }
  let img : Img := { sealSampled := s.lands.sealPins, resultA := s.img.resultA, resultB := s.img.resultB }
  let h : Hst := if cold then { sent := s.hst.sent, netSent := s.hst.netSent }
    else { sent := s.hst.sent, netSent := s.hst.netSent, gableOut := s.hst.gableOut, gableRx := s.hst.gableRx }
  { pending := s.pending, fresh := s.fresh, lands := s.lands, nor := s.nor, mram := s.mram
    psram := if kind ≤ 2 then [] else memErase s.psram 0xC00000 0x4000000
    cdc := if cold then {} else (forEach [0, 1, 4, 5, 8, 9, 10, 11] crossReset { s with cdc := { fill := s.cdc.fill } }).cdc
    img := img, bat := { refuse := if cold then {} else s.bat.refuse }, led := led, pgr := pgrStart s kind
    spar := sparStart s kind, cpr := cpr, eav := eavStart s kind, hst := h, vrg := vrgStart s kind
    fbk := s.fbk, pwr := pwrStart s kind, gtr := gtrStart s kind, can := canStart s kind
    rdg := { insHeld := !cold && s.rdg.insHeld, insLow := if cold then 0 else s.rdg.insLow } }

/-- The PSRAM test of a cold start, after the load (R204, R391). -/
def psramTest (s : State) (kind : Nat) : State :=
  if !coldKind kind then s
  else
    let s := { s with pgr := { s.pgr with psramOk := s.lands.psramOk } }
    if s.pgr.psramOk then s else logEv s 117 1 0

/-! ## The load of an image (R74, R75) -/

/-- The channels' new configuration: at once on a die that has just powered up, else with the first word (R305). -/
def loadChans (s : State) (kind : Nat) : State :=
  let recs := s.cfg.eaves
  let chans := Vector.ofFn (fun (i : Fin 24) =>
    let c := vget s.eav.chans i.val
    if reachesSpar kind then { c with cfg := recs.getD i.val {} } else { c with next := recs.getD i.val {} })
  let duty := Vector.ofFn (fun (i : Fin 8) => (recs.getD (16 + i.val) {}).duty)
  { s with eav := { s.eav with chans := chans, auxDuty := duty, cfgWaits := !reachesSpar kind } }

/-- The sessions the image defines (R65, R313). -/
def loadSessions (s : State) : State :=
  { s with hst := { s.hst with sess := Vector.ofFn (fun (n : Fin 8) =>
      match s.cfg.sessions[n.val]? with
      | some r => { defn := r, defined := true, evtMask := r.evtMask }
      | none => {}) } }

/-- Every port of the image is in SYNCING, the others UNUSED (R110). -/
def loadPorts (s : State) : State := forEach (usedPorts s) (fun s p => portSync s p 0) s

/-- A subscription waits for its first frame (R337). -/
def loadGoose (s : State) : State :=
  forEach (List.range s.cfg.goose.length) (fun s k =>
    let d := (gooseRec s k).dir
    modGoose s k (fun g => { g with
      st := if d = 2 then .waiting else .none })) s

/-- One gratuitous ARP at the image load: on each port with an IP, or on the PRP pair (R330). -/
def loadArp (s : State) : State := forEach (if prpMode s then [.netA] else [.netA, .netB]) sendArp s

/-- The core pair's restart within a load (R279, R391): the cores run once it has ended, before the image's first edge. What
the journal gives back stands from the load on (R202, R276). -/
def restartPair (s : State) : State :=
  { s with cpr := { s.cpr with run := .inReset 0, loading := true, saved := partSave s } }

/-- An image of slot `b` comes into force (R74, R75, R202). Every string enters Open at batten 0, and the battens of
R231 count from there (DEDUCED, log entry 32). The load's own entries pass no gate: no partition has run. -/
def loadImage (s : State) (kind : Nat) (b : Bool) (im : Image) : State :=
  let s := moduleLoad (ledgerLoad { s with cfg := im, img := { s.img with module := .operating, activeB := b } }) kind
  let changed := im.digest != s.led.modDigest
  let s := { s with
    img := { s.img with changed := changed }
    led := { s.led with
      modDigest := if changed then s.led.modDigest else im.digest
      modSeq := if changed then s.led.modSeq else im.sequence }
    rdg := { s.rdg with
      localSel := maskOf 4 (fun k => k < im.strings.length)
      insHeld := s.rdg.insHeld && im.verge.insOpen != 0
      strs := Vector.replicate 4 { openAt := some 0 } }
    est := { s.est with
      bleedAt := Vector.ofFn (fun (k : Fin 4) =>
        if k.val < im.strings.length && im.impedance.any (fun r => r.source == 1) then some 0 else none) }
    vrg := { s.vrg with configured := s.vrg.powered, cfg := im.verge, strings := im.strings.length }
    spar := { s.spar with cfgDue := true } }
  let s := ledgerDue s .module
  let s := forEach (List.range 12) (fun s k =>
    if (contactorOf s (k / 3) (k % 3)).isSome && (readRec s (.contactor k)).isNone then ledgerDue s (.contactor k) else s) s
  let s := fbkConfigure (canConfigure (loadSessions (loadChans s kind)) im.can) im.feedback
  let s := loadArp (loadGoose s)
  let s := loadPorts s
  let s := logEv s 108 4 kind
  let s := psramTest (logEv s 120 1 (b2n b + 2 * b2n changed + 65536 * (im.sequence % 65536))) kind
  restartPair (releaseHeld (if s.pgr.psramOk && (liveSeg s).isNone then nextLive s else s))

/-- Nothing is loaded: the module is in Unconfigured, where the Verge registers read their reset values, but for what
the powered die's status shows (R73, R76), and the die holds every comparator inactive (R361). A cold start or a
brown-out that ends here counts in the MODULE record as well, which is committed at once (R401; DEDUCED, log entry 53).
-/
def loadNothing (s : State) (kind : Nat) : State :=
  let s := sparUnconfigured { s with
    cfg := {}, img := { s.img with module := .unconfigured, activeB := false }
    vrg := { powered := s.vrg.powered, delay := s.vrg.delay, supplyGood := s.vrg.supplyGood, refGood := s.vrg.refGood
             clockGood := s.vrg.clockGood, stopped := s.vrg.stopped } }
  let s := fbkConfigure (loadChans s kind) []
  let s := logEv s 108 4 kind
  let s := logEv s 120 2 (s.img.resultA.reason + 256 * s.img.resultB.reason)
  if kind ≤ 2 then startCommit (stage (moduleLoad s kind) (.write .module)) else s

/-! ## Cold starts (R73, R391) -/

/-- Both slots are checked and one is loaded: the higher SEQUENCE, slot A if equal (R44, R73). -/
def coldLoad (s : State) (kind : Nat) : State :=
  let a := checkSlot s false
  let b := checkSlot s true
  let s := { s with img := { s.img with resultA := a.result, resultB := b.result } }
  let refuse := fun (r : Option Refuse) => { s with bat := { s.bat with refuse := r.getD s.bat.refuse } }
  match a.image, b.image with
  | some x, some y =>
    if x.sequence < y.sequence then loadImage (refuse b.refuse) kind true y else loadImage (refuse a.refuse) kind false x
  | some x, none => loadImage (refuse a.refuse) kind false x
  | none, some y => loadImage (refuse b.refuse) kind true y
  | none, none => loadNothing (refuse (b.refuse.or a.refuse)) kind

/-- A cold start of a kind. Eaves enters its hold window unless it has just powered up (R237, R400). -/
def coldStart (s : State) (kind : Nat) : State :=
  let s := cutCommit s
  let s := if reachesSpar kind then s else startHold s
  coldLoad (startState s kind) kind

/-- POWER_ON (R391, R398). -/
def execPowerOn (s : State) : Out := .next (coldStart s 0)

/-- POWER_ON_BY_WAKE: the WAKE land held in Ship (R390). -/
def execPowerOnByWake (s : State) : Out := if s.pwr.power == .ship then .next (coldStart s 1) else .next s

/-- START_THRESHOLD_DIP: the power-on delay begins again; the state holds no count of it (R391). -/
def execStartThresholdDip (s : State) : Out := .next s

/-- BROWN_OUT_RESET (R381, R398). In Ship there is no supply to lose. -/
def execBrownOutReset (s : State) : Out := if s.pwr.power == .ship then .next s else .next (coldStart s 2)

/-! ## Warm restart (R82, R83) -/

/-- The warm restart's load waits for its edge of batten 0 (R21, R80); with both cores halted for good none comes (R280), and
none in the thermal halt (R407). -/
def restartArmed (s : State) : Bool := s.cpr.run != .halted && !s.pwr.halted && s.img.armed && (s.img.stage == .reloadPending || s.img.benchExit)

/-- The restart edge: the old schedule stops, Eaves holds, CAN frames are cancelled, every session ends with its
pending requests and orders refused with IMAGE RELOAD (R82, R327, R349). -/
def restartEdge (s : State) : State :=
  let s := dropEvents (dropOrders (dropQueue s stIMAGERELOAD) stIMAGERELOAD)
  let held := s.hst.release
  let s := { s with hst := { s.hst with release := [] } }
  let s := forEach held (fun s h => refuse s h.1.who h.1.seq stIMAGERELOAD) s
  let owed := s.hst.results
  let s := { s with hst := { s.hst with results := [] } }
  let s := forEach owed (fun s r => refuse s (.session r.n) r.seq stIMAGERELOAD) s
  let s := forEach (List.range 8) (fun s n => stopDelivery s n 3) s
  let s := startHold (canRestart s)
  { s with
    bat := { s.bat with todo := [], running := none, pausing := false }
    owl := { s.owl with bulkOpen := false }
    img := { s.img with restarting := true } }

/-- The load of a warm restart: the slot to read, then the slot active before, then nothing (R80, R83, R422). -/
def warmLoad (s : State) (kind : Nat) (target was : Bool) : State :=
  let put := fun (s : State) (b : Bool) (r : ImgResult) =>
    { s with img := { s.img with resultA := if b then s.img.resultA else r, resultB := if b then r else s.img.resultB } }
  let judge := fun (s : State) (b : Bool) (c : SlotCheck) =>
    put { s with bat := { s.bat with refuse := c.refuse.getD s.bat.refuse } } b c.result
  let c := checkSlot s target
  let s := judge s target c
  match c.image with
  | some im => loadImage s kind target im
  | none =>
    let c := checkSlot s was
    let s := judge s was c
    match c.image with
    | some im => loadImage s kind was im
    | none => loadNothing s kind

/-- The state changes that a warm restart itself brings, logged (R412): the sync state FREE, the stage IDLE, a string that was
not Open. -/
def restartEvents (old s : State) : State :=
  let s := if old.bat.sync == .free then s else logEv s 125 1 0
  let s := if old.img.stage == .idle then s else logEv s 122 1 0
  forEach (strs old) (fun s k => if strState old k == .opened then s else logEv s (96 + k) 1 0) s

/-- The restart of kind 4 or 5, from its edge on (R82, R407). -/
def warmStart (s : State) (kind : Nat) : State :=
  let was := s.img.activeB
  let target := if s.img.stage == .reloadPending && s.img.byCommit then s.img.targetB else was
  let none_ := unconfigured s
  let s := restartEvents s (startState (canSettle (settleCommits s)) kind)
  if none_ then loadNothing s kind else warmLoad s kind target was

/-- WARM_RESTART: at the restart edge, which this batten's end is, the image is loaded again; never with both cores halted for
good (R280). -/
def execWarmRestart (s : State) : Out :=
  if s.img.restarting && s.cpr.run != .halted then .next (warmStart s 4)
  else if restartArmed s && (phaseOf s = 9 || s.img.benchExit) then .next (warmStart (restartEdge s) 4)
  else .next s

/-- THERMAL_HALT_EXIT: one round of the halt; the tenth in a row with every sensor below 120.0 °C reloads the image with
start kind 5 (R407), but with both cores halted for good (R280). -/
def execThermalHaltExit (sensors : Vector AdcSample 6) (s : State) : Out :=
  if !s.pwr.halted then .next s
  else
    let s := hardRound s sensors
    let cool := (List.range 6).all (fun n => decide ((vget s.pwr.sensors n).temp < 1200))
    let s := { s with pwr := { s.pwr with coolRounds := if cool then s.pwr.coolRounds + 1 else 0 } }
    .next (if 10 ≤ s.pwr.coolRounds && s.cpr.run != .halted then warmStart (restartEdge s) 5 else s)

/-! ## PWR_CMD (R390, R399, R408) -/

/-- A result of PWR_CMD. -/
def cmdResult (s : State) (n : Nat) : State := { s with pwr := { s.pwr with cmdRes := n } }

/-- A SHIP order: accepted or not, and the state with its result (R390). -/
def orderShip (s : State) (who : Who) : Bool × State :=
  if !isMaintain s who || unconfigured s then (false, cmdResult s 2)
  else if !operating s || !allOpen s then (false, cmdResult s 3)
  else if (s.cfg.power.map (·.shipOk)).getD 0 ≠ 1 then (false, cmdResult s 4)
  else
    let s := forEach (usedPorts s) (fun s p => queueCmd s p 7 []) s
    (true, beginStop (cmdResult { s with pwr := { s.pwr with shipOrdered := true, entering := none, last := false } } 1))

/-- SHIP_ENTRY: after the stop commits and the entry steps the bucks and the Spar regulator switch off (R390). What
keeps its content without power stays: the NOR and the ledger. -/
def execShipEntry (s : State) : Out :=
  if s.pwr.shipOrdered && s.pwr.asleep && entryHolds s then
    .next { pending := s.pending, fresh := s.fresh, lands := s.lands, nor := s.nor, mram := s.mram
            fbk := s.fbk.map (fun f => { a := f.a, b := f.b, c := f.c }), pwr := { power := .ship } }
  else .next s

/-- A SOFT RESET order: accepted or not, and the state with its result or after the start (R280, R399). The thermal halt is
not left by it, and serves no write (R407). -/
def orderSoftReset (s : State) (who : Who) : Bool × State :=
  let halted := s.cpr.run == .halted
  let may := isMaintain s who || (halted && mapUp s && who == .gable)
  let okState := if halted then !anyLockout s else unconfigured s || inBench s || allOpen s
  if s.pwr.halted then (false, s)
  else if !may then (false, cmdResult s 2)
  else if !okState then (false, cmdResult s 3)
  else (true, coldStart s 3)

/-- PWR_CMD written (R408). -/
def pwrCommand (s : State) (who : Who) (code : Nat) : Bool × State :=
  match code with
  | 1 => orderShip s who
  | 2 => orderSoftReset s who
  | _ => if isMaintain s who then (false, cmdResult s 5) else (false, cmdResult s 2)

/-- PWR_WAKEAT_LO or HI written: LO arms the appointment with HI as it stands, and a number not above the current
batten is refused, but for 0 (R408). -/
def writeWakeAt (s : State) (who : Who) (hi : Bool) (v : Nat) : Option State :=
  let n := if hi then s.pwr.wakeAt % 2 ^ 32 + 2 ^ 32 * (v % 65536) else v % 2 ^ 32 + 2 ^ 32 * (s.pwr.wakeAt / 2 ^ 32)
  if writesServed s && isSupervise s who && !unconfigured s && (hi || n = 0 || s.bat.num < n) then
    some { s with pwr := { s.pwr with wakeAt := n } }
  else none

/-- PWR_WAKEAT_WRITE: the low word. -/
def execPwrWakeatWrite (who : Who) (value : Word) (s : State) : Out :=
  .next (orSame s (writeWakeAt s who false value.toNat))

end Sys2Proof.Machine
end

