-- ==== Sys2Proof/Machine/Registers.lean ====
section
/-! DEFINITION. The register map (R419, R420): what each register reads as, by the register tables of the blocks
(R44, R84, R116, R117, R143, R164, R166, R188, R208, R212, R213, R239, R262, R288, R307, R341, R352, R367, R379, R408,
R409, R418), who may read it (R310), and what a read changes (R7, R311, R418). -/

namespace Sys2Proof.Machine

/-- Access of a register as a whole (R7, R310): `mixed` holds RC fields beside RO fields. -/
inductive Acc where
  | ro | rw | wo | rc | lk | w1c | mixed
deriving DecidableEq, Repr

/-- A register of the map: its access and what it reads as. -/
abbrev RegVal := Option (Acc × Nat)

/-- A word from its fields: each the lowest bit and a value that fits. -/
def pack (l : List (Nat × Nat)) : Nat := sumN (l.map (fun f => f.2 * 2 ^ f.1))

/-- A signed value as a saturating field of 16 bits. -/
def sat16 (i : Int) : Nat := twos 16 (satInt 16 i)

/-- The element of an array of `n` registers at `base` with a step, that an offset names. -/
def at? (off base n step : Nat) : Option Nat :=
  if base ≤ off && (off - base) % step = 0 && (off - base) / step < n then some ((off - base) / step) else none

/-! ## The blocks -/

/-- BAT_ (R44); BAT_COUNT_HI is the reader's copy (R311). -/
def batReg (s : State) (copy off : Nat) : RegVal :=
  match off with
  | 0x00 => some (.ro, s.bat.num % 2 ^ 32)
  | 0x04 => some (.ro, (vget s.hst.latches copy).batHi)
  | 0x08 => some (.ro, phaseOf s)
  | 0x0C => some (.ro, pack [(0, syncCode s), (16, if s.bat.sync == .holdover then min (s.bat.holdMs / 1000) 65535 else 0)])
  | 0x10 => some (.ro, if s.bat.sync == .free then 0 else twos 32 s.bat.offset)
  | 0x14 => some (.ro, twos 32 s.bat.trim)
  | 0x18 => some (.rc, satTo 18 s.bat.peak)
  | 0x1C => some (.rc, s.bat.deferCnt)
  | 0x20 => some (.rc, s.bat.dropCnt)
  | 0x24 => some (.rc, s.bat.overrunCnt)
  | 0x28 => some (.lk, pack [(0, s.bat.refuse.batten), (8, s.bat.refuse.slot), (16, s.bat.refuse.reason)])
  | _ => none

/-- IMG_RESULT of a slot (R84). -/
def imgResult (r : ImgResult) : Nat := pack [(0, r.reason), (8, r.sect), (16, r.record)]

/-- IMG_ (R84). -/
def imgReg (s : State) (off : Nat) : RegVal :=
  let i := s.img
  match off with
  | 0x00 => some (.ro, pack [(0, match i.module with | .unconfigured => 0 | .operating => 1 | .bench => 2),
      (2, b2n (i.activeB && !unconfigured s)), (3, b2n s.lands.sealOpen), (4, i.sealSampled.toNat)])
  | 0x04 => some (.ro, s.cfg.sequence)
  | 0x08 => some (.ro, imgResult i.resultA)
  | 0x0C => some (.ro, imgResult i.resultB)
  | 0x30 => some (.ro, pack [(0, stageCode i.stage), (3, b2n i.targetB),
      (4, match i.owner with | some (.session n) => n.val | _ => 0), (7, b2n (i.owner == some .gable)), (8, i.stageReason)])
  | 0x34 => some (.rw, i.addr)
  | 0x38 => some (.wo, 0)
  | 0x3C => some (.wo, 0)
  | 0x40 => some (.ro, b2n i.changed)
  | _ => (at? off 0x10 8 4).map (fun k => (.ro, fieldLe s.cfg.digest (4 * k) 4))

/-- An IDENT as the four words of OWL_ID (R116). -/
def identWord (i : Ident) (w : Nat) : Nat :=
  match w with
  | 0 => i.serial % 2 ^ 32
  | 1 => i.serial / 2 ^ 32
  | 2 => pack [(0, i.chem), (8, i.week)]
  | _ => pack [(0, i.cells), (8, i.proto), (16, i.fwRev)]

/-- OWL_STATE of a port (R116). -/
def owlState (s : State) (p : Nat) : Nat :=
  let q := portOf s p
  pack [(0, portStateCode q.st), (4, portCauseCode q.cause), (8, min q.clean 3), (16, satTo 8 q.missed), (24, q.identResult),
    (27, b2n (q.st == .syncing && s.spar.toneMask.getLsbD p))]

/-- OWL_ (R116). -/
def owlReg (s : State) (off : Nat) : RegVal :=
  match off with
  | 0x00 => some (.ro, (maskOf 32 (inService s)).toNat)
  | 0x04 => some (.wo, 0)
  | 0x08 => some (.ro, s.spar.toneMask.toNat)
  | _ =>
    match at? off 0x100 32 4, at? off 0x200 32 4, at? off 0x280 32 4, at? off 0x400 128 4 with
    | some p, _, _, _ => some (.ro, owlState s p)
    | _, some p, _, _ => some (.rc, pack [(0, (portOf s p).errFrames), (16, (portOf s p).errMisses)])
    | _, _, some p, _ => some (.rc, pack [(0, (portOf s p).recoveredCnt), (16, (portOf s p).missedCnt)])
    | _, _, _, some w => some (.ro, ((portOf s (w / 4)).id.map (identWord · (w % 4))).getD 0)
    | _, _, _, _ => none

/-- THA_EST1 of a cell (R164): T_c, the reference age and the learned capacity of the set in force; a cell without a
state has no T_c the manual states (log entry 6). -/
def estWord1 (s : State) (c : Nat) : Nat :=
  let e := estCell s c
  let at_ := (s.est.force.map (·.batten)).getD 0
  let tc := if e.init then twos 16 (satInt 16 (rndEven (e.tc * 10))) else (Config.freeWord s.fresh).toNat % 65536
  let ah := s.cfg.plant.cellAh
  let q := if e.init then e.q else (vget s.led.active c).q
  let cap := if ah = 0 then 0 else satTo 8 (rndEven (q * 200000 / (ah : Rat))).toNat
  pack [(0, tc), (16, satTo 8 ((at_ - e.refAt) / 3600000)), (24, cap)]

/-- A temperature half-word of THA_TEMP (R117); a cell whose thermistor has not been read yet reads as one without. -/
def tempHalf (t : Option Int) : Nat := match t with
  | some v => sat16 v
  | none => 0x8000

/-- A word of a cell's Thatch record (R117). -/
def cellWord (s : State) (c w : Nat) : Nat :=
  let r := vget s.tha.cells c
  let (p, i) := (portOfCell s c).getD (0, 0)
  let q := portOf s p
  let wire := fun (k : Nat) => ((vget q.wires k).r.map (satTo 16)).getD 0xFFFF
  match w with
  | 0 => pack [(0, satTo 16 r.vavg), (16, satTo 16 r.vlast)]
  | 1 => pack [(0, tempHalf r.tmeas), (16, tempHalf r.tcore)]
  | 2 => r.flags.toNat
  | 3 => pack [(0, r.vlastAt.getD 0 % 65536), (16, cellAge s c)]
  | 4 => pack [(0, vget (if (portRec s p).kind = 2 then q.target else q.written) i), (16, satTo 16 r.iBleed)]
  | 5 => pack [(0, wire i), (16, wire (i + 1))]
  | 6 => estWord0 s c
  | _ => estWord1 s c

/-- THA_ (R117, R143, R164). -/
def thaReg (s : State) (off : Nat) : RegVal :=
  if off = 0x4110 then some (.rw, s.tha.balHold.toNat)
  else match at? off 0 4096 4, at? off 0x4000 32 4, at? off 0x4080 32 4, at? off 0x4100 4 4 with
  | some w, _, _, _ => some (.ro, if w / 8 < nCells s then cellWord s (w / 8) (w % 8) else 0)
  | _, some p, _, _ =>
    let q := portOf s p
    some (.ro, pack [(0, q.owOpen.toNat), (17, b2n q.owIntact), (18, min q.abandoned 3), (24, satTo 8 q.owCourses)])
  | _, _, some p, _ => some (.ro, pack [(0, sat16 (portOf s p).satDiff), (16, satTo 8 (portOf s p).satFails)])
  | _, _, _, some k => some (.ro, pack [(0, sat16 (vget s.tha.strChk k).diff), (16, satTo 16 (vget s.tha.strChk k).fails)])
  | _, _, _, _ => none

/-- Six limits as the three words of EST_SLIM, EST_PPUB and EST_SPUB (R188). -/
def limWord (l : List Nat) (w : Nat) : Nat := pack [(0, satTo 16 (l.getD (2 * w) 0)), (16, satTo 16 (l.getD (2 * w + 1) 0))]

/-- EST_ZMODE of a string (R188). -/
def zMode (s : State) (k : Nat) : Nat :=
  if s.cfg.impedance.isNone || !hasStr s k then 0
  else if bleedOn s k s.bat.num then 2
  else if (impRec s).source = 1 then 0 else 1

/-- EST_TCHK of a cell (R188). -/
def tchkWord (s : State) (c : Nat) : Nat :=
  let i := vget s.est.imp c
  pack [(0, sat16 i.chkDiff), (16, b2n i.disagree), (17, b2n i.noRef), (18, min i.disRun 3)]

/-- EST_ (R166, R188); the selected values are the reader's copy (R311). -/
def estReg (s : State) (copy off : Nat) : RegVal :=
  let l := vget s.hst.latches copy
  let e := s.est
  match off with
  | 0x00 => some (.ro, sumN ((List.range 4).map (fun k =>
      (b2n (e.quiet.getLsbD k) + 2 * b2n (decide (2 ≤ s.pwr.level))) * 4 ^ k * b2n (hasStr s k))) + 256 * b2n e.snap.isSome)
  | 0x04 => some (.ro, setCourse s)
  | 0x08 => some (.ro, e.runtime)
  | 0x0C => some (.rc, pack [(0, e.discarded), (16, e.gatedCnt)])
  | 0x20 => some (.rw, l.estSel)
  | 0x6C => some (.wo, 0)
  | 0x100 => some (.rw, pack [(0, l.zSel), (9, l.zIdx)])
  | 0x11C => some (.ro, sumN ((List.range 4).map (fun k => zMode s k * 4 ^ k)))
  | 0x120 => some (.rc, pack [(0, e.zAbandon), (16, e.mapRange)])
  | 0x280 => some (.ro, e.pubFlag)
  | 0x284 => some (.rc, pack [(0, e.pubCnt), (16, e.canDrop)])
  | _ =>
    match at? off 0x10 4 4, at? off 0x24 18 4, at? off 0x104 6 4, at? off 0x200 12 4, at? off 0x240 3 4, at? off 0x250 12 4,
      at? off 0x1000 512 4 with
    | some k, _, _, _, _, _, _ => some (.ro, min (vget e.quietRun k / 1000) 65535)
    | _, some i, _, _, _, _, _ => some (.ro, (l.est.getD i 0).toNat)
    | _, _, some i, _, _, _, _ => some (.ro, (l.z.getD i 0).toNat)
    | _, _, _, some i, _, _, _ =>
      some (.ro, limWord (((e.force.map (fun f => vget f.slim (i / 3))).getD []).map (· / 10)) (i % 3))
    | _, _, _, _, some i, _, _ => some (.ro, limWord e.pPub i)
    | _, _, _, _, _, some i, _ => some (.ro, limWord (vget e.sPub (i / 3)) (i % 3))
    | _, _, _, _, _, _, some c => some (.ro, tchkWord s c)
    | _, _, _, _, _, _, _ => none

/-- The words a write of EST_SEL latches (R166): zeros for a cell above the plant's and for one without a state
(R159). -/
def estLatch (s : State) (c : Nat) : List Word :=
  let e := estCell s c
  if nCells s ≤ c || !e.init then []
  else
    let f := fun (x : Rat) => BitVec.ofNat 32 (singleBits x)
    [f e.soc, f e.vf, f e.vs, f e.h] ++ (List.range 10).map (fun i => f (e.p.getD i 0)) ++ [f e.rser, f e.q,
      BitVec.ofNat 32 (pack [(0, sat16 (rndEven (e.tb * 10))), (16, satTo 16 e.gated)]), f e.nis]

/-- The words a write of EST_ZSEL latches (R188). -/
def zLatch (s : State) (c j : Nat) : List Word :=
  if nCells s ≤ c || 3 ≤ j then []
  else
    let r := vget (vget s.est.imp c).res j
    let f := fun (x : Rat) => BitVec.ofNat 32 (singleBits x)
    let age := match r.at_ with
      | some b => min ((s.bat.num - b) / 1000) 65534
      | none => 0xFFFF
    let lims := (estCell s c).lims
    let n := fun (v : Nat) => BitVec.ofNat 32 v
    [f r.re, f r.im, n (pack [(0, age), (16, r.code), (20, b2n r.bleed)]), n (limWord lims 0), n (limWord lims 1),
      n (limWord lims 2)]

/-- RDG_STR of a string (R239). -/
def strWord (s : State) (k : Nat) : Nat :=
  let t := strOf s k
  pack [(0, strCode s k), (4, phaseCode t.phase), (8, causeCode t.cause), (16, t.lastRefused), (24, b2n t.ramp),
    (25, b2n t.rampAck), (26, b2n t.overrideTo.isSome), (27, min t.preFails 2), (29, b2n t.joinMode)]

/-- A ceiling as RDG_CEIL holds it (R239). -/
def ceilHalf (c : Option Nat) : Nat := (c.map (satTo 16)).getD 0xFFFF

/-- RDG_WEAR of a contactor (R239). -/
def wearWord (s : State) (k : Nat) : Nat :=
  let w := vget s.led.wear k
  pack [(0, satTo 20 w.consumed), (20, b2n (decide (800000 ≤ w.consumed))), (21, b2n (decide (1000000 ≤ w.consumed))),
    (22, b2n w.differs)]

/-- RDG_LOCKRST (R233, R239): the time left rounds up, so that an open window never reads closed. DESIGN CHOICE, log
entry 20. -/
def lockRst (s : State) : Nat :=
  match s.rdg.resetAt with
  | some t => if s.bat.num ≤ t + 10000 then pack [(0, 1), (16, max 1 (ceilDiv (t + 10000 - s.bat.num) 10))] else 0
  | none => 0

/-- Result codes of four strings as a word. -/
def resWord (l : List OrderResult) : Nat :=
  if l.isEmpty then 0 else pack ((List.range 4).map (fun k => (8 * k, resultCode (l.getD k .notAddressed))))

/-- A string's register of an array of four in the Ridge block. -/
def rdgStr (s : State) (row k : Nat) : Nat :=
  let t := strOf s k
  match row with
  | 0 => strWord s k
  | 1 => if hasStr s k then pack [(0, satTo 16 (s.bat.num - t.began)), (16, satTo 16 t.deadline)] else 0
  | 2 => pack [(0, b2n t.stale), (1, b2n t.mismatch), (2, b2n t.thermal), (8, satTo 8 t.cntV), (16, satTo 8 t.cntT),
      (24, satTo 8 t.cntI)]
  | 3 => pack [(0, sat16 (rndEven (t.dV * 100))), (16, satTo 16 ((t.dVj.map (fun v => (v * 100).floor.toNat)).getD 0))]
  | 4 => satTo 32 (rndEven (rStr s k * 1000000)).toNat
  | _ => pack [(0, ceilHalf t.ceilChg), (16, ceilHalf t.ceilDis)]

/-- RDG_ (R239). -/
def rdgReg (s : State) (off : Nat) : RegVal :=
  let r := s.rdg
  match off with
  | 0x00 => some (.ro, plantState s)
  | 0x70 => some (.wo, 0)
  | 0x74 => some (.rw, r.localSel.toNat)
  | 0x78 => some (.ro, resWord r.localRes)
  | 0x7C => some (.ro, lockRst s)
  | 0x130 => some (.rc, pack [(0, r.notDone), (16, r.rampTimeouts)])
  | _ =>
    match at? off 0x10 24 4, at? off 0x80 16 4, at? off 0x100 12 4 with
    | some i, _, _ => some (.ro, rdgStr s (i / 4) (i % 4))
    | _, some i, _ =>
      let x := vget r.resA (i / 2)
      some (.ro, if i % 2 = 0 then resWord x.res else pack [(0, x.code), (4, x.winner), (8, x.batten % 2 ^ 24)])
    | _, _, some k => some (.ro, wearWord s k)
    | _, _, _ => none

/-- SPR_ (R262). -/
def sprReg (s : State) (off : Nat) : RegVal :=
  let p := s.spar
  let u := unconfigured s
  match off with
  | 0x00 => some (.ro, p.presented.toNat)
  | 0x04 => some (.ro, pack [(0, p.firstCause), (4, b2n p.firstSeen), (8, p.firstBatten)])
  | 0x08 => some (.ro, p.inputs.toNat)
  | 0x0C => some (.ro, pack [(0, (maskOf 11 (fun i => vget p.pairTest i == .passed)).toNat), (16, p.pairFaults.toNat)])
  | 0x10 => some (.ro, p.tonePresent.toNat)
  | 0x14 => some (.ro, p.toneTrip.toNat)
  | 0x18 => some (.ro, pack [(0, p.lanePresent.toNat), (8, p.laneTrip.toNat), (16, p.laneMask.toNat)])
  | 0x1C => some (.ro, pack [(0, p.gateCmd.toNat), (16, p.gateOn.toNat)])
  | 0x20 => some (.ro, (maskOf 4 (fun k => sparHeld p k)).toNat)
  | 0x24 => some (.lk, if u then 0 else pack [(0, p.sealPins), (4, p.doors), (8, p.fireGas), (10, b2n p.twoHand)])
  | 0x28 => some (.lk, if u then 0 else pack ((List.range 16).map (fun i => (2 * i, vget p.gateMap i % 4))))
  | 0x2C => some (.lk, if u then 0 else p.gateUse.toNat)
  | 0x30 => some (.ro, (Config.sparFrequency s.fresh).toNat % 65536)
  | 0x34 => some (.ro, pack [(0, satTo 24 p.handSkew), (24, b2n p.handOver)])
  | 0x38 => some (.ro, pack [(0, p.latches % 65536), (16, p.ignored % 65536)])
  | _ => none

/-- EAV_CH of a channel (R307): the mean current is a free reading (log entry 5). -/
def chanWord (s : State) (n : Nat) : Nat :=
  let c := chanOf s n
  pack [(0, if unconfigured s then 0 else (Config.channelCurrent s.fresh).toNat), (14, b2n c.short), (15, b2n c.overTemp),
    (16, b2n c.openOn), (17, b2n c.openOff), (18, b2n c.toSupply), (19, b2n c.latched), (20, min c.retries 3),
    (22, b2n c.retryPending), (23, b2n c.deferredRetry), (24, b2n c.pullIn)]

/-- The duty of a pulsed channel [%]: that of the last word for an auxiliary one, else of its record (R291, R295). -/
def dutyNow (s : State) (n : Nat) : Nat := if n < 16 then (chanOf s n).cfg.duty else vget s.eav.duty (n - 16)

/-- A pulsed channel's interval holds the cycle at which its frequency's timebase stands (R296): from O for T cycles of each
period P, wrapping past its end. -/
def inInterval (s : State) (n : Nat) : Bool :=
  let c := (chanOf s n).cfg
  let p := (16000000 + c.pgFreq) / (2 * c.pgFreq)
  let o := c.phase * p / 16
  let t := (2 * dutyNow s n * p + 100) / 200
  (Config.timebaseCycle s.fresh c.pgFreq % p + p - o) % p < t

/-- EAV_OUT (R307): a channel past its pull-in that has a pulse generator conducts in its interval alone. -/
def eavOut (s : State) : BitVec 24 :=
  maskOf 24 (fun n =>
    let c := chanOf s n
    c.conducting && (c.pullIn || c.cfg.pgFreq == 0 || inInterval s n))

/-- EAV_ (R307). -/
def eavReg (s : State) (off : Nat) : RegVal :=
  let e := s.eav
  match off with
  | 0x00 => some (.ro, pack [(0, e.on.toNat), (24, e.seqNo.toNat)])
  | 0x04 => some (.ro, (eavOut s).toNat)
  | 0x08 => some (.rc, pack [(0, e.refused), (16, e.windows)])
  | 0x0C => some (.ro, pack [(0, b2n e.hold), (1, b2n e.expired)])
  | 0x10 => some (.ro, pack [(0, (Config.vsupReading s.fresh).toNat), (16, b2n e.vsupLow)])
  | 0x14 => some (.rw, e.auxCmd.toNat)
  | 0x18 => some (.rw, pack ((List.range 4).map (fun i => (8 * i, vget e.auxDuty i))))
  | 0x1C => some (.rw, pack ((List.range 4).map (fun i => (8 * i, vget e.auxDuty (4 + i)))))
  | 0x20 => some (.w1c, (maskOf 24 (fun n => (chanOf s n).latched)).toNat)
  | _ =>
    match at? off 0x100 24 4, at? off 0x200 24 4, at? off 0x300 48 4 with
    | some n, _, _ => some (.ro, chanWord s n)
    | _, some n, _ => some (.rc, pack [(0, (chanOf s n).fails), (16, (chanOf s n).clamps)])
    | _, _, some i =>
      let r := eavRec s (i / 2)
      some (.lk, if i % 2 = 0 then pack [(0, r.use), (8, r.pullIn), (16, r.pgFreq)] else pack [(0, r.duty), (8, r.phase)])
    | _, _, _ => none

/-- VRG_INSINFO (R367). -/
def insInfo (s : State) : Nat :=
  let v := s.vrg
  pack [(0, satTo 16 v.result), (16, b2n (v.resAt.isSome && decide (v.result < v.cfg.insWarn))),
    (17, b2n (v.resAt.isSome && decide (v.result < v.cfg.insOpen))), (18, b2n v.busDead), (19, b2n v.above), (20, b2n v.below),
    (21, b2n v.unsettled), (22, v.resMains.toNat)]

/-- VRG_ (R367); the age before a first result is a value the manual does not state (log entry 6). -/
def vrgReg (s : State) (off : Nat) : RegVal :=
  let v := s.vrg
  let c := s.cfg.verge
  match off with
  | 0x00 => some (.ro, pack [(0, b2n (v.powered && v.configured)), (1, b2n v.supplyGood), (2, b2n v.refGood),
      (3, b2n v.clockGood), (8, satTo 8 v.missing), (16, satTo 16 v.delay)])
  | 0x04 => some (.ro, pack [(0, v.valid.toNat), (4, (if v.seen.getLsbD 0 then v.vOk else v.lastVolts).toNat), (12, v.shuntValid.toNat)])
  | 0x50 => some (.rc, pack ((List.range 4).map (fun k => (8 * k, satTo 8 (vget v.inv k)))))
  | 0x60 => some (.ro, pack [(0, satTo 16 v.rPos), (16, satTo 16 v.rNeg)])
  | 0x64 => some (.ro, insInfo s)
  | 0x68 => some (.ro, pack [(0, match v.resAt with
      | some _ => min (((s.bat.num : Int) - v.resFrom) / 1000).toNat 65535
      | none => (Config.freeWord s.fresh).toNat % 65536), (16, satTo 16 v.noResult)])
  | 0x6C => some (.ro, v.resAt.getD 0 % 2 ^ 32)
  | 0xC0 => some (.lk, c.ovLevel)
  | 0xC4 => some (.lk, pack [(0, c.insWarn), (16, c.insOpen)])
  | _ =>
    match at? off 0x10 8 4, at? off 0x30 4 4, at? off 0x40 4 4, at? off 0x80 8 4, at? off 0xA0 4 4, at? off 0xB0 4 4 with
    | some n, _, _, _, _, _ => some (.ro, if c.div.getD n 0 = 0 then 0 else twos 32 (rndEven (vget v.v n * 1000)))
    | _, some k, _, _, _, _ => some (.ro, twos 32 (rndEven (vget v.i k * 1000)))
    | _, _, some k, _, _, _ => some (.ro, twos 32 (rndEven (vget v.iMean k * 1000)))
    | _, _, _, some n, _, _ => some (.lk, c.div.getD n 0)
    | _, _, _, _, some k, _ => some (.lk, c.shunt.getD k 0)
    | _, _, _, _, _, some k => some (.lk, c.ocLevel.getD k 0)
    | _, _, _, _, _, _ => none

/-- FBK_ (R379). -/
def fbkReg (s : State) (off : Nat) : RegVal :=
  if 0x100 ≤ off then none
  else
    let f := fbkOf s (off / 0x40)
    let c := s.cfg.feedback.getD (off / 0x40) {}
    match off % 0x40 with
    | 0x00 => some (.lk, pack [(0, c.mode), (8, c.pass), (16, c.lines)])
    | 0x04 => some (.lk, c.standstill)
    | 0x08 => some (.ro, pack [(0, b2n f.a), (1, b2n f.b), (2, b2n f.c), (4, dirCode f.dir), (6, b2n f.still), (7, b2n f.indexSeen)])
    | 0x0C => some (.ro, twos 32 f.pos)
    | 0x10 => some (.ro, satTo 32 f.period)
    | 0x14 => some (.ro, twos 32 f.speed)
    | 0x18 => some (.ro, pack [(0, sat16 f.deviation), (16, satTo 16 f.edges)])
    | 0x1C => some (.rc, pack [(0, f.errs), (16, f.mismatches)])
    | 0x20 => some (.rc, f.dirs)
    | _ => none

/-- Speed code of HST_LINK (R341), with the link bit below it. -/
def linkBits : LinkState → Nat
  | .down => 0
  | .up100 => 1 + 2 * 1
  | .up1000 => 1 + 2 * 2

/-- The state of a GOOSE record: a publishing one by its port's link (R341). -/
def gooseShown (s : State) (k : Nat) : GooseState :=
  if (gooseRec s k).dir = 1 then (if goosePortUp s (gooseRec s k).port then .publishing else .portDown)
  else (vget s.hst.goose k).st

/-- GOOSE state code of HST_GOOSE (R341). -/
def gooseCode : GooseState → Nat
  | .none => 0
  | .publishing => 1
  | .portDown => 2
  | .waiting => 1
  | .valid => 2
  | .lost => 3

/-- The GOOSE record of the k-th subscription (R341). -/
def subscription (s : State) (k : Nat) : Option Nat :=
  ((List.range s.cfg.goose.length).filter (fun i => (gooseRec s i).dir == 2))[k]?

/-- Requests that wait for the next pool run (R324). -/
def poolWaiting (s : State) : Nat := (s.hst.queue.filter (·.pool)).length

/-- HST_SESS of a session (R341). -/
def sessWord (s : State) (n : Nat) : Nat :=
  let r := sessOf s n
  if !r.defined then 0
  else pack [(0, r.defn.role), (3, b2n r.delivering), (4, r.defn.port), (8, resHeld s n),
    (16, poolHeld s (.session (Fin.ofNat 8 n))), (24, b2n r.outstanding.isSome)]

/-- HST_ (R341). -/
def hstReg (s : State) (off : Nat) : RegVal :=
  let h := s.hst
  match off with
  | 0x100 => some (.ro, pack [(0, poolFree s), (16, satTo 8 (poolWaiting s))])
  | 0x104 => some (.rc, pack [(0, h.refused), (16, h.discarded)])
  | 0x108 => some (.wo, 0)
  | 0x110 => some (.ro, pack [(0, linkBits h.linkA), (16, satTo 16 h.lossA)])
  | 0x114 => some (.ro, pack [(0, linkBits h.linkB), (16, satTo 16 h.lossB)])
  | 0x120 => some (.rc, satTo 32 h.prpA)
  | 0x124 => some (.rc, satTo 32 h.prpB)
  | 0x128 => some (.rc, pack [(0, h.prpDup), (16, h.prpWrong)])
  | 0x130 => some (.ro, pack [(0, h.ptpPort), (8, (h.gm.map (·.clockClass.toNat)).getD 0),
      (16, b2n ((h.gm.map (·.utcValid)).getD false))])
  | 0x134 => some (.ro, (h.gm.map (·.gmId.toNat % 2 ^ 32)).getD 0)
  | 0x138 => some (.ro, (h.gm.map (·.gmId.toNat / 2 ^ 32)).getD 0)
  | 0x13C => some (.ro, satTo 32 (if h.ptpPort = 1 then h.pdelayA else if h.ptpPort = 2 then h.pdelayB else 0))
  | 0x300 => some (.rc, pack [(0, h.notActed), (16, h.openLatches)])
  | _ =>
    match at? off 0x00 8 4, at? off 0x40 32 4, at? off 0x200 24 4, at? off 0x400 128 4 with
    | some n, _, _, _ => some (.ro, sessWord s n)
    | _, some i, _, _ => some (.rw, ((sessOf s (i / 4)).evtMask >>> (32 * (i % 4))).toNat % 2 ^ 32)
    | _, _, some k, _ => some (.ro, pack [(0, gooseCode (gooseShown s k)), (16, (vget h.goose k).stNum % 65536)])
    | _, _, _, some i => some (.ro, ((subscription s (i / 8)).map (fun k => (vget (vget h.goose k).vals (i % 8)).toNat)).getD 0)
    | _, _, _, _ => none

/-- Bit timing of a phase (R343): the prescaler, TSEG1 and TSEG2. -/
def bitTiming (rate sp lo hi : Nat) : Nat × Nat × Nat :=
  match canQuanta rate lo hi with
  | some (p, n) =>
    let t1 := (sp * n + 50) / 100 - 1
    (p, t1, n - 1 - t1)
  | none => (1, 1, 1)

/-- CAN_BTNOM or CAN_BTDATA (R352). -/
def timingWord (t : Nat × Nat × Nat) : Nat := pack [(0, t.1 - 1), (8, t.2.1 - 1), (16, t.2.2 - 1), (24, t.2.2 - 1)]

/-- CAN_TDC (R344, R352): the offset is formed of the last measured delay also while that is 0, not measured. DESIGN
CHOICE, log entry 21. -/
def canTdc (k : Can) : Nat :=
  if k.cfg.dataRate ≤ 1000 then 0
  else
    let t := bitTiming k.cfg.dataRate k.cfg.spData 5 49
    pack [(0, satTo 7 k.loopDelay), (8, satTo 8 (k.loopDelay + (1 + t.2.1) * t.1))]

/-- The registers of a controller (R352); an unused one reads 0. -/
def canReg1 (k : Can) (mailbox off : Nat) : RegVal :=
  let g := fun (v : Nat) => if k.configured then v else 0
  match off with
  | 0x00 => some (.ro, g (pack [(0, b2n k.configured), (1, b2n k.integrated),
      (2, match k.err with | .active => 0 | .passive => 1 | .busOff => 2), (4, b2n k.alone), (5, b2n (decide (k.cfg.nomRate ≤ 125))),
      (6, b2n (decide (1000 < k.cfg.dataRate))), (8, satTo 8 k.tecCnt), (16, satTo 8 k.recCnt), (24, satTo 8 k.ackErrs)]))
  | 0x04 => some (.lk, g (timingWord (bitTiming k.cfg.nomRate k.cfg.spNom 8 256)))
  | 0x08 => some (.lk, g (if k.cfg.dataRate = 0 then 0 else timingWord (bitTiming k.cfg.dataRate k.cfg.spData 5 49)))
  | 0x0C => some (.ro, g (canTdc k))
  | 0x10 => some (.lk, g k.cfg.limitId)
  | 0x14 => some (.ro, g (pack [(0, mailbox), (2, b2n k.cancel), (16, k.frameBatten % 65536)]))
  | 0x18 => some (.ro, g (pack [(0, k.txRes), (8, k.txBatten % 2 ^ 24)]))
  | 0x1C => some (.rc, g (pack [(0, k.sent), (16, k.lateSent)]))
  | 0x20 => some (.rc, g k.dropped)
  | 0x24 => some (.rc, g (pack [(0, satTo 8 k.busOffs), (8, satTo 8 k.passives), (16, satTo 8 k.alones)]))
  | 0x28 => some (.rc, g (pack [(0, k.received), (16, k.matched)]))
  | _ => none

/-- CAN_ (R352). -/
def canReg (s : State) (off : Nat) : RegVal := if 0x200 ≤ off then none else canReg1 (canOf s (off / 0x100)) (canMailbox s (off / 0x100)) (off % 0x100)

/-- PWR_TEMP of a sensor (R408). -/
def tempWord (s : State) (n : Nat) : Nat :=
  let x := vget s.pwr.sensors n
  pack [(0, sat16 (if x.broken then 1500 else x.temp)), (16, b2n x.broken), (17, b2n x.rise)]

/-- PWR_ (R408). -/
def pwrReg (s : State) (off : Nat) : RegVal :=
  let p := s.pwr
  match off with
  | 0x00 => some (.ro, pack [(0, p.level), (2, p.stop), (8, p.startKind), (11, b2n (dormantReady s))])
  | 0x04 => some (.ro, pack [(0, p.wake.toNat), (16, satTo 16 p.dormantLen)])
  | 0x08 => some (.ro, satTo 32 (p.quietMs / 1000))
  | 0x0C => some (.ro, if unconfigured s then 0 else pack [(0, satTo 24 (nextSeconds s)), (24, nextCode s)])
  | 0x10 => some (.rw, p.wakeAt % 2 ^ 32)
  | 0x14 => some (.rw, p.wakeAt / 2 ^ 32 % 65536)
  | 0x18 => some (.wo, 0)
  | 0x1C => some (.ro, p.cmdRes)
  | 0x38 => some (.ro, pack [(0, sat16 (moduleTemp s).1), (16, (moduleTemp s).2)])
  | 0x3C => some (.ro, pack [(0, satTo 16 (vget p.rails 0)), (16, satTo 16 (vget p.rails 1))])
  | 0x40 => some (.ro, pack [(0, satTo 16 (vget p.rails 2)), (16, satTo 16 (vget p.rails 3))])
  | 0x44 => some (.rc, pack [(0, satTo 8 p.entries), (8, satTo 8 p.abandons), (16, satTo 8 p.throttles), (24, satTo 8 p.warnings)])
  | _ => (at? off 0x20 6 4).map (fun n => (.ro, tempWord s n))

/-- CDC_ (R409). -/
def cdcReg (s : State) (off : Nat) : RegVal :=
  match off with
  | 0x00 => some (.w1c, s.cdc.ovr.toNat)
  | 0x80 => some (.rc, satTo 16 s.cdc.wakes)
  | _ => (at? off 0x40 15 4).map (fun k => (.rc, pack [(0, satTo 16 (vget s.cdc.full k)), (16, satTo 16 (vget s.cdc.dropped k))]))

/-- LED_ (R212); the selected values are the reader's copy (R311). -/
def ledReg (s : State) (copy off : Nat) : RegVal :=
  let l := s.led
  match off with
  | 0x00 => some (.ro, pack [(0, b2n l.vholdOk), (1, b2n l.pfail), (2, b2n l.busy.isSome), (8, min l.staged.length 16)])
  | 0x04 => some (.rc, pack [(0, l.commits), (16, l.failed)])
  | 0x08 => some (.ro, l.load)
  | 0x0C => some (.wo, 0)
  | 0x10 => some (.ro, l.cmdResult)
  | 0x14 => some (.ro, satTo 16 l.work.roundAge)
  | 0x20 => some (.rw, (vget s.hst.latches copy).ledSel)
  | _ => (at? off 0x24 5 4).map (fun i => (.ro, ((vget s.hst.latches copy).led.getD i 0).toNat))

/-- The words a write of LED_CSEL latches (R212): learning's own values of the cell. -/
def ledLatch (s : State) (c : Nat) : List Word :=
  if nCells s ≤ c then []
  else
    let l := vget s.led.cells c
    let f := fun (x : Rat) => BitVec.ofNat 32 (singleBits x)
    [f l.q, f l.pq, f l.rser, f l.pr, BitVec.ofNat 32 (pack [(0, learnCode l.status), (2, (readRing s c).length),
      (8, satTo 8 l.refused), (16, satTo 8 l.updates)])]

/-- The Gutter entry at a ring index, as octets of R413; an index not yet written reads 0. -/
def entryAt (s : State) (i : Nat) : Option Entry :=
  let g := s.gtr
  let age := ((g.total - 1) % 1024 + 1024 - i) % 1024
  if g.total = 0 then none else g.ring[age]?

/-- The layout of R413. -/
def entryOctets (e : Entry) : List Byte :=
  natLe 6 e.batten ++ natLe 3 e.cycle.toNat ++ natLe 1 e.source ++ natLe 1 e.code ++ natLe 1 e.cls ++ natLe 4 e.detail.toNat

/-- A word of the entry at a ring index. -/
def entryWord (s : State) (i w : Nat) : Nat := ((entryAt s i).map (fun e => fieldLe (entryOctets e) (4 * w) 4)).getD 0

/-- Words 1 to 3 of an entry are the reader's latched ones where its word 0 was the last read, else the ring's. DEDUCED,
log entry 22. -/
def gtrWord (s : State) (copy i w : Nat) : Nat :=
  let l := vget s.hst.latches copy
  if w != 0 && l.gtrIdx == i && !l.gtr.isEmpty then (l.gtr.getD (w - 1) 0).toNat else entryWord s i w

/-- GTR_ (R418). -/
def gtrReg (s : State) (copy off : Nat) : RegVal :=
  let g := s.gtr
  match off with
  | 0x00 => some (.ro, pack [(0, g.ring.length), (16, (g.total + 1023) % 1024)])
  | 0x04 => some (.ro, g.total % 2 ^ 32)
  | 0x08 => some (.rc, pack [(0, g.overwritten), (16, g.suppressed)])
  | _ => (at? off 0x4000 4096 4).map (fun i => (.ro, gtrWord s copy (i / 4) (i % 4)))

/-- CPR_STATUS (R288). -/
def cprStatus (s : State) : Nat :=
  let c := s.cpr
  pack [(0, match c.coupling with | .joined => 0 | .split => 1 | .copy => 2 | .shadow => 3), (2, b2n c.dbgHalted),
    (3, b2n c.selfTest), (8, c.lastPart), (16, c.lastKind), (20, b2n (c.lead.full || c.check.full))]

/-- CPR_ (R288). -/
def cprReg (s : State) (off : Nat) : RegVal :=
  let c := s.cpr
  match off with
  | 0x00 => some (.ro, cprStatus s)
  | 0x04 => some (.mixed, pack [(0, satTo 12 c.lag), (16, satTo 12 c.lagMax)])
  | 0x08 => some (.rc, pack [(0, c.restartable), (16, c.protective)])
  | 0x0C => some (.rc, c.agree)
  | 0x10 => some (.ro, pack [(0, c.cleanBatten % 2 ^ 24), (24, b2n c.cleanClosing)])
  | 0x14 => some (.rc, pack [(0, satTo 8 c.byMismatch), (8, satTo 8 c.byWatchdog), (16, satTo 8 c.selfFails)])
  | 0x60 => some (.wo, 0)
  | 0x64 => some (.ro, pack [(0, c.splitRes), (8, min c.shadows 3), (16, satTo 16 c.coursesLeft)])
  | 0x68 => some (.ro, c.job)
  | 0x70 => some (.mixed, pack [(0, min c.dbgWaiting.length 256), (9, b2n c.dbgOn), (16, satTo 16 c.dbgReplayed)])
  | _ =>
    match at? off 0x20 8 4, at? off 0x40 8 4, at? off 0x1000 4096 4 with
    | some i, _, _ => some (.ro, (vget c.sigL i).toNat)
    | _, some i, _ => some (.ro, (vget c.sigC i).toNat)
    | _, _, some i => some (.ro, if c.job = 2 then (c.jobRes.getD i 0).toNat else 0)
    | _, _, _ => none

/-- Segment state code (R211). -/
def segCode : SegState → Nat
  | .free => 0
  | .live => 1
  | .collecting => 2
  | .frozen => 3

/-- PGR_ without the PSRAM window (R213). -/
def pgrReg (s : State) (off : Nat) : RegVal :=
  let p := s.pgr
  match off with
  | 0x00 => some (.ro, pack [(0, b2n p.psramOk), (1, b2n (histDepth s != 0)), (2, p.cache.length)])
  | 0x04 => some (.ro, histDepth s)
  | 0x08 => some (.ro, p.newest.getD 0 % 2 ^ 32)
  | 0x0C => some (.rc, pack [(0, p.gapSec), (16, p.gapBat)])
  | 0x30 => some (.wo, 0)
  | 0x34 => some (.rc, p.flost)
  | 0x38 => some (.rc, pack [(0, p.missRes), (16, p.missFull)])
  | _ =>
    match at? off 0x10 4 4, at? off 0x20 4 4 with
    | some i, _ =>
      let g := vget p.segs i
      some (.ro, pack [(0, segCode g.st), (2, g.mask.toNat), (8, satTo 8 g.joined)])
    | _, some i => some (.ro, (vget p.segs i).first % 2 ^ 32)
    | _, _ => none

/-! ## The map (R419, R420) -/

/-- The register an address names, for a reader's copy of the selected values; none where it names none, or lies in the
PSRAM window. -/
def regAt (s : State) (copy a : Nat) : RegVal :=
  if a % 4 ≠ 0 then none
  else
    let off := a % 0x1000
    match a / 0x1000 with
    | 0x40000 => batReg s copy off
    | 0x40001 => imgReg s off
    | 0x40002 => owlReg s off
    | 0x40022 => rdgReg s off
    | 0x40023 => sprReg s off
    | 0x40024 => eavReg s off
    | 0x40025 => vrgReg s off
    | 0x40026 => fbkReg s off
    | 0x40027 => hstReg s off
    | 0x40028 => canReg s off
    | 0x40029 => pwrReg s off
    | 0x4002A => cdcReg s off
    | 0x4002B => ledReg s copy off
    | 0x50000 => pgrReg s off
    | b =>
      if 0x40010 ≤ b && b < 0x40020 then thaReg s (a - 0x40010000)
      else if 0x40020 ≤ b && b < 0x40022 then estReg s copy (a - 0x40020000)
      else if 0x40030 ≤ b && b < 0x40038 then gtrReg s copy (a - 0x40030000)
      else if 0x40040 ≤ b && b < 0x40048 then cprReg s (a - 0x40040000)
      else none

/-- Every word of a request names a register or the window (R420). -/
def mapped (s : State) (a : Nat) : Bool := inWindow a || (regAt s 8 a).isSome

/-- An address of CPR_JOBRES (R288). -/
def isJobRes (a : Nat) : Bool := 0x40041000 ≤ a && a < 0x40045000

/-- What a CONVERTER session may read (R310). -/
def converterReads (n : Nat) (acc : Acc) (a : Nat) : Bool :=
  if a / 0x1000 = 0x40000 then acc != .rc
  else a = 0x40022000 || (0x40022010 ≤ a && a ≤ 0x4002201C) || (0x40022060 ≤ a && a ≤ 0x4002206C)
    || (0x40020200 ≤ a && a ≤ 0x40020280) || a = 0x40027000 + 4 * n
    || (0x40027040 + 16 * n ≤ a && a < 0x40027050 + 16 * n)

/-- A reader may read a register (R310, R312). -/
def mayRead (s : State) (who : Who) (a : Nat) : Bool :=
  let role := readRole s who
  if role = roleSUPERVISE || role = roleMAINTAIN then true
  else match regAt s (copyOf s who) a with
  | none => false
  | some (acc, _) =>
    if role = rolePROTECT || role = roleDISPATCH then acc != .rc && !isJobRes a
    else if role = roleCONVERTER then converterReads (copyOf s who) acc a
    else false

/-- A reader whose read clears RC fields (R310). -/
def clears (s : State) (who : Who) : Bool := readRole s who == roleSUPERVISE || readRole s who == roleMAINTAIN

/-- The RC fields of the registers of the batten, the estimator and Ridge cleared (R7). -/
def rcClearTable (s : State) (a : Nat) : State :=
  if a = 0x40000018 then { s with bat := { s.bat with peak := 0 } }
  else if a = 0x4000001C then { s with bat := { s.bat with deferCnt := 0 } }
  else if a = 0x40000020 then { s with bat := { s.bat with dropCnt := 0 } }
  else if a = 0x40000024 then { s with bat := { s.bat with overrunCnt := 0 } }
  else if a = 0x4002000C then { s with est := { s.est with discarded := 0, gatedCnt := 0 } }
  else if a = 0x40020120 then { s with est := { s.est with zAbandon := 0, mapRange := 0 } }
  else if a = 0x40020284 then { s with est := { s.est with pubCnt := 0, canDrop := 0 } }
  else if a = 0x40022130 then { s with rdg := { s.rdg with notDone := 0, rampTimeouts := 0 } }
  else s

/-- The RC fields of the registers of Eaves, Verge and the host interface cleared (R7). -/
def rcClearHost (s : State) (a : Nat) : State :=
  if a = 0x40024008 then { s with eav := { s.eav with refused := 0, windows := 0 } }
  else if a = 0x40025050 then { s with vrg := { s.vrg with inv := Vector.replicate 4 0 } }
  else if a = 0x40027104 then { s with hst := { s.hst with refused := 0, discarded := 0 } }
  else if a = 0x40027120 then { s with hst := { s.hst with prpA := 0 } }
  else if a = 0x40027124 then { s with hst := { s.hst with prpB := 0 } }
  else if a = 0x40027128 then { s with hst := { s.hst with prpDup := 0, prpWrong := 0 } }
  else if a = 0x40027300 then { s with hst := { s.hst with notActed := 0, openLatches := 0 } }
  else s

/-- The RC fields of the registers of power, crossings, ledger, Gutter, the core pair and the pager cleared (R7). -/
def rcClearPair (s : State) (a : Nat) : State :=
  if a = 0x40029044 then { s with pwr := { s.pwr with entries := 0, abandons := 0, throttles := 0, warnings := 0 } }
  else if a = 0x4002A080 then { s with cdc := { s.cdc with wakes := 0 } }
  else if a = 0x4002B004 then { s with led := { s.led with commits := 0, failed := 0 } }
  else if a = 0x40030008 then { s with gtr := { s.gtr with overwritten := 0, suppressed := 0 } }
  else if a = 0x40040004 then { s with cpr := { s.cpr with lagMax := 0 } }
  else if a = 0x40040008 then { s with cpr := { s.cpr with restartable := 0, protective := 0 } }
  else if a = 0x4004000C then { s with cpr := { s.cpr with agree := 0 } }
  else if a = 0x40040014 then { s with cpr := { s.cpr with byMismatch := 0, byWatchdog := 0, selfFails := 0 } }
  else if a = 0x40040070 then { s with cpr := { s.cpr with dbgReplayed := 0 } }
  else if a = 0x5000000C then { s with pgr := { s.pgr with gapSec := 0, gapBat := 0 } }
  else if a = 0x50000034 then { s with pgr := { s.pgr with flost := 0 } }
  else if a = 0x50000038 then { s with pgr := { s.pgr with missRes := 0, missFull := 0 } }
  else s

/-- The RC fields of the registers of the ports, channels, feedback inputs, CAN controllers and crossings cleared (R7). -/
def rcClearRows (s : State) (a : Nat) : State :=
  let port := fun (base : Nat) => (a - base) / 4
  if 0x40002200 ≤ a && a < 0x40002280 then modPort s (port 0x40002200) (fun q => { q with errFrames := 0, errMisses := 0 })
  else if 0x40002280 ≤ a && a < 0x40002300 then modPort s (port 0x40002280) (fun q => { q with recoveredCnt := 0, missedCnt := 0 })
  else if 0x40024200 ≤ a && a < 0x40024260 then modChan s (port 0x40024200) (fun c => { c with fails := 0, clamps := 0 })
  else if 0x40026000 ≤ a && a < 0x40026100 then
    modFbk s ((a - 0x40026000) / 0x40) (fun f =>
      if a % 0x40 = 0x1C then { f with errs := 0, mismatches := 0 } else { f with dirs := 0 })
  else if 0x40028000 ≤ a && a < 0x40028200 then
    modCan s ((a - 0x40028000) / 0x100) (fun k =>
      if a % 0x100 = 0x1C then { k with sent := 0, lateSent := 0 }
      else if a % 0x100 = 0x20 then { k with dropped := 0 }
      else if a % 0x100 = 0x24 then { k with busOffs := 0, passives := 0, alones := 0 }
      else { k with received := 0, matched := 0 })
  else if 0x4002A040 ≤ a && a < 0x4002A07C then
    let c : Cdc := { s.cdc with full := vset s.cdc.full (port 0x4002A040) 0, dropped := vset s.cdc.dropped (port 0x4002A040) 0 }
    { s with cdc := c }
  else s

/-- The RC fields of a register cleared (R7): a register is a row of one of the four groups. -/
def rcClear (s : State) (a : Nat) : State := rcClearRows (rcClearPair (rcClearHost (rcClearTable s a) a) a) a

/-- The RO fields of a register that holds RC fields beside them: CPR_LAG and CPR_DEBUG (R310). -/
def roFields (a v : Nat) : Nat := if a = 0x40040004 then v % 4096 else v % 65536

/-- What a read latches in the reader's copy: BAT_COUNT_HI by BAT_COUNT_LO (R44), words 1 to 3 of a Gutter entry by its
word 0 (R418). -/
def readLatch (s : State) (who : Who) (a : Nat) : State :=
  if a = 0x40000000 then modCopy s who (fun l => { l with batHi := s.bat.num / 2 ^ 32 % 65536 })
  else if 0x40034000 ≤ a && a < 0x40038000 && a % 16 = 0 then
    let i := (a - 0x40034000) / 16
    modCopy s who (fun l => { l with
      gtrIdx := i, gtr := [1, 2, 3].map (fun w => BitVec.ofNat 32 (entryWord s i w)) })
  else s

/-- One word read from a register its reader may read: the value, and the state after (R7). Every read takes a fresh
value for what the manual leaves open. -/
def readReg (s : State) (who : Who) (a : Nat) : State × Word :=
  match regAt s (copyOf s who) a with
  | none => (s, 0)
  | some (acc, v) =>
    let s := { readLatch s who a with fresh := s.fresh + 1 }
    match acc with
    | .wo => (s, 0)
    | .rc => if clears s who then (rcClear s a, BitVec.ofNat 32 v) else (s, BitVec.ofNat 32 v)
    | .mixed => if clears s who then (rcClear s a, BitVec.ofNat 32 v) else (s, BitVec.ofNat 32 (roFields a v))
    | _ => (s, BitVec.ofNat 32 v)

/-- Words read in ascending order. -/
def readWords (s : State) (who : Who) : Nat → Nat → State × List Word
  | _, 0 => (s, [])
  | a, n + 1 =>
    let (t, w) := readReg s who a
    let (u, l) := readWords t who (a + 4) n
    (u, w :: l)

/-! ## The read commands -/

/-- A read of one register by a host, where the map answers and its rights allow it (log entry 18). -/
def readRow (s : State) (who : Who) (a : Nat) : State :=
  if mayRead s who a then (readReg s who a).1 else s

/-- BAT_COUNT_LO_READ. -/
def execBatCountLoRead (who : Who) (s : State) : Out := .next (readRow s who 0x40000000)

/-- GTR_ENTRY_READ: word 0 of the entry at a ring index. -/
def execGtrEntryRead (who : Who) (index : Fin 1024) (s : State) : Out := .next (readRow s who (0x40034000 + 16 * index.val))

/-- READ_CLEAR_REGISTER. -/
def execReadClearRegister (who : Who) (addr : Word) (s : State) : Out := .next (readRow s who addr.toNat)

end Sys2Proof.Machine
end

