-- ==== Sys2Proof/Machine/RegWrites.lean ====
section
/-! DEFINITION. Writes to the register map (R7, R309, R312): who may write which register, and what a write does. Bits
the register's table reserves are ignored (R6). DESIGN CHOICE, log entry 23. -/

namespace Sys2Proof.Machine

/-- The writer is the Gable port, by itself or by the session it carries (R312). -/
def onGable (s : State) (who : Who) : Bool :=
  match normWho s who with
  | .gable => true
  | .session n => (sessOf s n.val).defn.port == 3

/-- A session, as opposed to the built-in one of the Gable port. -/
def isSession (s : State) (who : Who) : Bool := writeRole s who != 0 && normWho s who != .gable

/-- The session and word an address of HST_EVTMASK names. -/
def evtMaskAt (a : Nat) : Option (Nat × Nat) := (at? a 0x40027040 32 4).map (fun i => (i / 4, i % 4))

/-- The role may write the register: Purlin's test of R309 and of the registers' own tables. For the registers marked
"block" in R309 every role passes. -/
def mayWrite (s : State) (who : Who) (a : Nat) : Bool :=
  let any := writeRole s who != 0
  if unconfigured s then any && [0x40001034, 0x40001038, 0x4000103C, 0x40029018, 0x40027108].contains a
  else match a with
  | 0x40022070 | 0x4002B00C | 0x40040060 | 0x40029018 => any
  | 0x40024014 | 0x40024018 | 0x4002401C => if inBench s then isMaintain s who || onGable s who else isSupervise s who
  | 0x40022074 | 0x40024020 | 0x50000030 | 0x40029010 | 0x40029014
  | 0x4002A000 => isSupervise s who
  | 0x40002004 | 0x40014110 | 0x4002006C | 0x40001034 | 0x40001038 | 0x4000103C => isMaintain s who
  | 0x40020020 | 0x40020100 | 0x4002B020 => any && writeRole s who != roleCONVERTER
  | 0x40027108 => mapUp s && (isMaintain s who || onGable s who)
  | _ =>
    match evtMaskAt a with
    | some (n, _) => any && normWho s who == .session (Fin.ofNat 8 n)
    | none => false

/-! ## What each write does -/

/-- An answer of a block: the state after, and whether it took the word. -/
def tookOr (s : State) (r : Option State) : Bool × State :=
  match r with
  | some t => (true, t)
  | none => (false, s)

/-- The order that a word written to RDG_ORDER spells (R218, R239). -/
def orderOf (n : Fin 8) (v seq : Nat) (result pool : Bool) : Order :=
  let kind := match v % 16 with
    | 1 => OrderKind.close
    | 2 => .opening
    | 3 => .limit
    | 4 => .limitClear
    | 5 => .rampAck
    | 6 => .lockoutAck
    | 7 => .wearOverride
    | c => .other (BitVec.ofNat 4 c)
  ⟨some n, kind, BitVec.ofNat 4 (v / 16), v.testBit 8, v / 65536, seq, result, pool⟩

/-- EST_SEL written (R166). -/
def writeEstSel (s : State) (who : Who) (c : Nat) : State :=
  modCopy s who (fun l => { l with estSel := c, est := estLatch s c })

/-- EST_ZSEL written (R188). -/
def writeZSel (s : State) (who : Who) (c j : Nat) : State :=
  modCopy s who (fun l => { l with zSel := c, zIdx := j, z := zLatch s c j })

/-- LED_CSEL written (R212). -/
def writeLedSel (s : State) (who : Who) (c : Nat) : State :=
  modCopy s who (fun l => { l with ledSel := c, led := ledLatch s c })

/-- EST_REINIT written (R166): the cell, or every cell of its string. The name of a cell that is not there is taken without
effect (DESIGN CHOICE, log entry 72). -/
def writeReinit (s : State) (c : Nat) (whole : Bool) : State :=
  if nCells s ≤ c then s
  else
    let cs := if whole then cellsOfStr s (cellStr s c) else [c]
    { s with est := { s.est with reinit := cs.foldl (fun m i => setBit m i true) s.est.reinit } }

/-- A word of a session's event mask written (R328). -/
def writeEvtMask (s : State) (n w : Nat) (v : Word) : State :=
  modSess s n (fun r => { r with
    evtMask := (r.evtMask &&& ~~~((0xFFFFFFFF#128) <<< (32 * w))) ||| (v.setWidth 128 <<< (32 * w)) })

/-- IMG_CMD written (R79). [4] counts for ERASE alone: set with another command it is ignored (DESIGN CHOICE, log entry 66). -/
def imgCommand (s : State) (who : Who) (v : Nat) : Option State :=
  match v % 16 with
  | 1 => stageErase s who (v.testBit 4)
  | 2 => stageVerify s who
  | 3 => stageCommit s who
  | 4 => stageReload s who
  | 5 => stageAbandon s who
  | _ => none

/-- HST_BENCH written (R312). -/
def benchCommand (s : State) (who : Who) (v : Nat) : Option State :=
  let w := if onGable s who then .gable else who
  match v % 4 with
  | 1 => benchEnter s w
  | 2 => benchLeave s w
  | _ => none

/-- LED_CMD written (R203). -/
def ledCommand (s : State) (who : Who) (v : Nat) : Bool × State :=
  let m := isMaintain s who
  let t := match v % 16 with
    | 1 => ledResetPort s m (bits v 8 4)
    | 2 => ledResetContactor s m (bits v 10 9) (bits v 12 11)
    | _ => ledResult s (if m then 3 else 2)
  (t.led.cmdResult == 4, t)

/-- CPR_SPLIT written (R281, R283, R288). -/
def splitCommand (s : State) (who : Who) (v : Nat) : Bool × State :=
  match v % 16 with
  | 1 => orderSplit s who (bits v 7 4) (bits v 31 16)
  | 2 => orderRejoin s who
  | _ => (false, splitAnswer s (if isMaintain s who then 4 else 2))

/-- What a permitted write does: whether its block took it, and the state after. -/
def applyWrite (s : State) (who : Who) (a : Nat) (v : Word) : Bool × State :=
  let n := v.toNat
  match a with
  | 0x40022070 =>
    match normWho s who with
    | .session k => tookOr s (latchOrder s (orderOf k n 0 false false))
    | .gable => (false, s)
  | 0x40022074 => (true, { s with rdg := { s.rdg with localSel := v.setWidth 4 } })
  | 0x40002004 => tookOr s (serviceOrder s (n % 4) (n.testBit 8))
  | 0x40014110 => (true, { s with tha := { s.tha with balHold := v.setWidth 4 } })
  | 0x4002006C => (true, writeReinit s (n % 512) (n.testBit 9))
  | 0x4002B00C => ledCommand s who n
  | 0x40040060 => splitCommand s who n
  | 0x40020020 => (true, writeEstSel s who (n % 512))
  | 0x40020100 => (true, writeZSel s who (n % 512) (bits n 10 9))
  | 0x4002B020 => (true, writeLedSel s who (n % 512))
  | 0x40024014 => tookOr s (eavAuxcmd s who (v.setWidth 8))
  | 0x40024018 => tookOr s (eavAuxduty s who false v)
  | 0x4002401C => tookOr s (eavAuxduty s who true v)
  | 0x40024020 => tookOr s (eavLatchClear s who (v.setWidth 24))
  | 0x50000030 => (true, freeSegments s (n % 16))
  | 0x40001034 => tookOr s (stageAddr s who n)
  | 0x40001038 => tookOr s (stageData s who v)
  | 0x4000103C => tookOr s (imgCommand s who n)
  | 0x40027108 => tookOr s (benchCommand s who n)
  | 0x40029010 => tookOr s (writeWakeAt s who false n)
  | 0x40029014 => tookOr s (writeWakeAt s who true n)
  | 0x40029018 => pwrCommand s who (n % 16)
  | 0x4002A000 => tookOr s (cdcClear s who (v.setWidth 15))
  | _ =>
    match evtMaskAt a with
    | some (k, w) => (true, writeEvtMask s k w v)
    | none => (false, s)

/-- A register written by a host, where Purlin lets the write through; with both cores halted for good only a soft reset
(R280). -/
def writeRow (s : State) (who : Who) (a : Nat) (v : Word) : State :=
  if !writesServed s && !(a = 0x40029018 && v.toNat % 16 = 2) then s
  else if mayWrite s who a then (applyWrite s who a v).2 else s

/-! ## The write commands -/

/-- REGISTER_WRITE. -/
def execRegisterWrite (who : Who) (addr value : Word) (s : State) : Out := .next (writeRow s who addr.toNat value)

/-- SERVICE_OUT: OWL_SERVICE with [8] at 1. -/
def execServiceOut (who : Who) (k : Fin 4) (s : State) : Out := .next (writeRow s who 0x40002004 (BitVec.ofNat 32 (256 + k.val)))

/-- SERVICE_IN: OWL_SERVICE with [8] at 0. -/
def execServiceIn (who : Who) (k : Fin 4) (s : State) : Out := .next (writeRow s who 0x40002004 (BitVec.ofNat 32 k.val))

/-- RESET_PORT: LED_CMD 0x1. -/
def execResetPort (who : Who) (p : Fin 32) (s : State) : Out :=
  .next (writeRow s who 0x4002B00C (BitVec.ofNat 32 (1 + 16 * p.val)))

/-- RESET_CONTACTOR: LED_CMD 0x2. -/
def execResetContactor (who : Who) (k : Fin 4) (role : BitVec 2) (s : State) : Out :=
  .next (writeRow s who 0x4002B00C (BitVec.ofNat 32 (2 + 512 * k.val + 2048 * role.toNat)))

/-- PGR_FCLEAR_WRITE. -/
def execPgrFclearWrite (who : Who) (mask : BitVec 4) (s : State) : Out := .next (writeRow s who 0x50000030 (mask.setWidth 32))

/-- EST_SEL_WRITE. -/
def execEstSelWrite (who : Who) (cell : BitVec 9) (s : State) : Out := .next (writeRow s who 0x40020020 (cell.setWidth 32))

/-- EST_REINIT_WRITE. -/
def execEstReinitWrite (who : Who) (cell : BitVec 9) (whole : Bool) (s : State) : Out :=
  .next (writeRow s who 0x4002006C (BitVec.ofNat 32 (cell.toNat + 512 * b2n whole)))

/-- EST_ZSEL_WRITE. -/
def execEstZselWrite (who : Who) (cell : BitVec 9) (index : BitVec 2) (s : State) : Out :=
  .next (writeRow s who 0x40020100 (BitVec.ofNat 32 (cell.toNat + 512 * index.toNat)))

/-- LED_CSEL_WRITE. -/
def execLedCselWrite (who : Who) (cell : BitVec 9) (s : State) : Out := .next (writeRow s who 0x4002B020 (cell.setWidth 32))

/-- HST_EVTMASK_WRITE. -/
def execHstEvtmaskWrite (who : Who) (n : Fin 8) (w : Fin 4) (value : Word) (s : State) : Out :=
  .next (writeRow s who (0x40027040 + 16 * n.val + 4 * w.val) value)

/-- EAV_LATCH_CLEAR. -/
def execEavLatchClear (who : Who) (mask : BitVec 24) (s : State) : Out := .next (writeRow s who 0x40024020 (mask.setWidth 32))

/-- EAV_AUXCMD_WRITE. -/
def execEavAuxcmdWrite (who : Who) (mask : Byte) (s : State) : Out := .next (writeRow s who 0x40024014 (mask.setWidth 32))

/-- CDC_OVR_CLEAR. -/
def execCdcOvrClear (who : Who) (mask : BitVec 15) (s : State) : Out := .next (writeRow s who 0x4002A000 (mask.setWidth 32))

/-- SPLIT: CPR_SPLIT 0x1. -/
def execSplit (who : Who) (job : BitVec 4) (duration : BitVec 16) (s : State) : Out :=
  .next (writeRow s who 0x40040060 (BitVec.ofNat 32 (1 + 16 * job.toNat + 65536 * duration.toNat)))

/-- REJOIN: CPR_SPLIT 0x2. -/
def execRejoin (who : Who) (s : State) : Out := .next (writeRow s who 0x40040060 2)

/-- SHIP: PWR_CMD 0x1. -/
def execShip (who : Who) (s : State) : Out := .next (writeRow s who 0x40029018 1)

/-- SOFT_RESET: PWR_CMD 0x2. With both cores halted the Gable port takes it from any session (R280, R399). -/
def execSoftReset (who : Who) (s : State) : Out :=
  .next (if s.cpr.run == .halted && mapUp s && who == .gable then (orderSoftReset s who).2 else writeRow s who 0x40029018 2)

end Sys2Proof.Machine
end

