-- ==== Sys2Proof/Machine/Hosts.lean ====
section
/-! DEFINITION. The host messages (R308, R314 to R329), the Gable port (R339, R340) and event delivery (R328, R329):
reception, Purlin's tests, acceptance, the service of requests in the slots of their tasks. -/

namespace Sys2Proof.Machine

/-! ## Reception (R308, R315, R319) -/

/-- A request as its octets spell it (R315). -/
structure ReqMsg where
  version : Nat
  kind : Nat
  len : Nat
  seq : Nat
  session : Nat
  status : Nat
  batten : Nat
  body : List Byte
deriving DecidableEq, Repr

/-- The header and payload of a message; the CRC is its last four octets. -/
def reqMsg (o : List Byte) : ReqMsg :=
  ⟨fieldLe o 0 1, fieldLe o 1 1, fieldLe o 2 2, fieldLe o 4 2, fieldLe o 6 1, fieldLe o 7 1, fieldLe o 8 4,
    slice o 12 (o.length - 16)⟩

/-- The CRC of a message (R315). -/
def msgCrcOk (o : List Byte) : Bool :=
  16 ≤ o.length && leNat (o.drop (o.length - 4)) == (crc32 (o.take (o.length - 4))).toNat

/-- A session's PORT takes frames of a network port (R65, R308). -/
def portTakes (port : Nat) (v : Via) : Bool :=
  match v with
  | .netA => port == 0 || port == 2
  | .netB => port == 1 || port == 2
  | .gable => port == 3

/-- The session a frame belongs to; the built-in one of the Gable port where the image defines none for it (R308,
R312). -/
def writerOf (s : State) (f : HostFrame) : Option Who :=
  if f.via == .gable then some (normWho s .gable)
  else ((List.finRange 8).find? (fun n =>
    let r := sessOf s n.val
    r.defined && portTakes r.defn.port f.via && r.defn.peerIp == f.ip.toNat && r.defn.peerUdp == f.udp.toNat)).map .session

/-- The networks receive: not in Unconfigured (R76), not in Dormant or Ship, not in the thermal halt (R407). -/
def netHears (s : State) : Bool := !unconfigured s && mapUp s && !s.pwr.halted

/-- Frames received with a trailer on a LAN (R341). -/
def countPrp (s : State) (lanB : Bool) : State :=
  if lanB then { s with hst := { s.hst with prpB := satAdd 32 s.hst.prpB 1 } }
  else { s with hst := { s.hst with prpA := satAdd 32 s.hst.prpA 1 } }

/-- A source heard on a LAN: its entry in the node table of 64 (R332). One logged as heard on the other LAN alone has come
back. -/
def hearNode (s : State) (lanB : Bool) (mac : BitVec 48) : State :=
  let now := some s.bat.num
  let upd := fun (n : PrpNode) =>
    if n.mac != mac then n
    else
      let n := if lanB then { n with seenB := now } else { n with seenA := now }
      { n with logged := if n.logged == some (!lanB) then none else n.logged }
  if s.hst.nodes.any (fun n => n.mac == mac) then { s with hst := { s.hst with nodes := s.hst.nodes.map upd } }
  else if s.hst.nodes.length < 64 then
    let n : PrpNode := {
      mac := mac, since := s.bat.num, seenA := if lanB then none else now, seenB := if lanB then now else none,
      logged := none }
    { s with hst := { s.hst with nodes := s.hst.nodes ++ [n] } }
  else s

/-- A frame with a trailer on a LAN of the pair: counted, its source noted; it is a duplicate when the other LAN brought
the same source and sequence number within 400 ms, else it is remembered, 256 at most; one whose LanId is the other LAN's is
counted and not tested (R332, R341; DESIGN CHOICE, log entry 68). The flag says whether the frame is taken. -/
def prpTest (s : State) (lanB : Bool) (mac : BitVec 48) (t : PrpTrailer) : State × Bool :=
  let s := hearNode (countPrp s lanB) lanB mac
  if t.lanB != lanB then ({ s with hst := { s.hst with prpWrong := satAdd 16 s.hst.prpWrong 1 } }, true)
  else
    let live := s.hst.dups.filter (fun d => s.bat.num < d.at_ + 400)
    if live.any (fun d => d.mac == mac && d.seq == t.seq && d.lanB != lanB) then
      ({ s with hst := { s.hst with dups := live, prpDup := satAdd 16 s.hst.prpDup 1 } }, false)
    else ({ s with hst := { s.hst with dups := (⟨mac, t.seq, lanB, s.bat.num⟩ :: live).take 256 } }, true)

/-- A frame arrives on a network port: outside PRP, or without a trailer, it is taken (R332). -/
def prpHear (s : State) (lanB : Bool) (mac : BitVec 48) (t : Option PrpTrailer) : State × Bool :=
  match prpMode s, t with
  | true, some t => prpTest s lanB mac t
  | _, _ => (s, true)

/-- What follows for a frame that is taken. -/
def onTaken (r : State × Bool) (f : State → State) : State := if r.2 then f r.1 else r.1

/-! ## Purlin's tests (R321) -/

/-- ADDRESS of a READ or WRITE. -/
def reqAddr (m : ReqMsg) : Nat := fieldLe m.body 0 4
/-- COUNT of a READ or WRITE. -/
def reqCount (m : ReqMsg) : Nat := fieldLe m.body 4 2
/-- MODE of a WRITE. -/
def reqMode (m : ReqMsg) : Nat := fieldLe m.body 6 1
/-- The words of a WRITE. -/
def reqData (m : ReqMsg) : List Word :=
  (List.range (reqCount m)).map (fun i => BitVec.ofNat 32 (fieldLe m.body (8 + 4 * i) 4))

/-- The addresses a WRITE's words go to. -/
def writeAddrs (addr count mode : Nat) : List Nat :=
  (List.range count).map (fun i => if mode = 0 then addr + 4 * i else addr)

/-- The addresses a READ or WRITE touches. -/
def reqAddrs (m : ReqMsg) : List Nat :=
  match m.kind with
  | 3 => writeAddrs (reqAddr m) (reqCount m) 0
  | 4 => writeAddrs (reqAddr m) (reqCount m) (reqMode m)
  | _ => []

/-- A write that is a SOFT RESET order (R408). -/
def isSoftReset (a : Nat) (v : Word) : Bool := a == 0x40029018 && v.toNat % 16 == 2

/-- Registers that take one word at a time: RDG_ORDER, IMG_CMD, HST_BENCH (R318). -/
def singleWord : List Nat := [0x40022070, 0x4000103C, 0x40027108]

/-- Header and payload are well formed (R315 to R318). -/
def formatOk (who : Who) (octets : Nat) (m : ReqMsg) : Bool :=
  let sess := match who with
    | .session n => n.val
    | .gable => 0xFF
  m.version == 1 && m.session == sess && m.status == 0 && m.batten == 0 && octets ≤ 256 && m.len + 16 == octets &&
    match m.kind with
    | 1 => m.len == 4 && fieldLe m.body 0 1 ≤ 1 && fieldLe m.body 1 3 == 0
    | 2 => m.len == 0
    | 3 => m.len == 8 && 1 ≤ reqCount m && reqCount m ≤ 60 && fieldLe m.body 6 2 == 0
    | 4 => 1 ≤ reqCount m && reqCount m ≤ 58 && m.len == 8 + 4 * reqCount m && reqMode m ≤ 1 && fieldLe m.body 7 1 == 0
      && (reqCount m == 1 || !(reqAddrs m).any singleWord.contains)
    | 5 => m.len == 4 && fieldLe m.body 2 2 == 0
    | 6 => m.len == 0
    | _ => false

/-- A WRITE to RDG_ORDER (R325). -/
def isOrder (m : ReqMsg) : Bool := m.kind == 4 && reqAddr m == 0x40022070

/-- Every address is mapped, and the words of a READ are all registers or all in the window (R420). -/
def addressOk (s : State) (m : ReqMsg) : Bool := (reqAddrs m).all (mapped s)

/-- Every word is permitted (R309, R310); the built-in session may not OPEN (R312). -/
def accessOk (s : State) (who : Who) (m : ReqMsg) : Bool :=
  match m.kind with
  | 1 => who != .gable
  | 3 => (reqAddrs m).all (mayRead s who)
  | 4 => (reqAddrs m).all (mayWrite s who)
  | _ => true

/-- The SEQs accepted last, with their GUARANTEEs (R319). -/
def seqsOf (s : State) (who : Who) : List (Nat × Nat) :=
  match who with
  | .session n => (sessOf s n.val).seqs
  | .gable => s.hst.gableSeqs

/-- The core pair is in reset or halted: from the assertion to the reclaim batten's edge (R327, R280, R407). -/
def coresDown (s : State) : Bool := s.cpr.run != .running || s.pwr.halted

/-- A READ of registers on the Gable port, served by hardware in every state (R339). -/
def gableRead (via : Via) (m : ReqMsg) : Bool := via == .gable && m.kind == 3 && !(reqAddrs m).any inWindow

/-- The SOFT RESET write that Purlin serves in hardware while both cores stay halted (R280). -/
def haltedReset (s : State) (who : Who) (via : Via) (m : ReqMsg) : Bool :=
  s.cpr.run == .halted && m.kind == 4 && reqAddr m == 0x40029018 && reqCount m == 1
    && isSoftReset (reqAddr m) ((reqData m).headD 0) && (isMaintain s who || via == .gable) && !anyLockout s

/-- The first of tests 1 to 7 that fails, as the status of its refusal. -/
def firstRefusal (s : State) (who : Who) (via : Via) (octets : Nat) (m : ReqMsg) : Option Nat :=
  let served := gableRead via m || haltedReset s who via m
  let loading := s.img.restarting
    || (!unconfigured s && s.bat.first && s.bat.num == 0 && (s.pwr.startKind == 4 || s.pwr.startKind == 5))
  if loading && !served then some stIMAGERELOAD
  else if coresDown s && !served then some stCORERESTART
  else if !formatOk who octets m then some stFORMAT
  else if !addressOk s m then some stADDRESS
  else if !accessOk s who m && !haltedReset s who via m then some stACCESS
  else if isOrder m && !operating s then some stNOTOPERATING
  else if (seqsOf s who).any (fun x => x.1 == m.seq) then some stDUPLICATE
  else if isOrder m && s.rdg.incoming.any (fun o => some o.src == (match who with | .session n => some (some n) | .gable => none))
    then some stORDERPENDING
  else none

/-! ## Where a request is served (R322 to R324) -/

/-- Requests a slot entry serves in an occurrence: ⌊WCET / 1 200⌋ (R322). -/
def capacity (e : SlotEntry) : Nat := e.wcet / 1200

/-- The HOST_RESERVED entry of a session. -/
def reservedEntry (s : State) (n : Nat) : SlotEntry := (s.cfg.schedule.find? (fun e => e.task == 1 && e.inst == n)).getD {}

/-- An entry still starts in batten `b`: in a coming batten by its mask or by a pending deferred instance, in the running
one when its work waits. -/
def startsIn (s : State) (e : SlotEntry) (b : Nat) : Bool :=
  if b < nextBatten s then b = s.bat.num && s.bat.todo.any (fun w => w.slot == e.id)
  else maskBit e.mask (b % 10) || (b = nextBatten s && s.bat.deferred.any (fun w => w.slot == e.id))

/-- RESULTs of a session that an occurrence in batten `b` forms first (R323). -/
def resultsIn (s : State) (n b : Nat) : Nat :=
  let mine := fun (l : List Order) => (l.filter (fun o => o.result && o.src.map (·.val) == some n)).length
  let owed := (s.hst.results.filter (fun r => r.n.val == n)).length
  if b < nextBatten s then owed + mine s.rdg.latched
  else if b = nextBatten s then
    mine s.rdg.incoming + (if !s.bat.first && startsIn s (reservedEntry s n) s.bat.num then 0 else owed)
  else 0

/-- The batten of the occurrence that serves the request at position `p`, from batten `b` on (R323). -/
def reservedBatten (s : State) (n : Nat) : Nat → Nat → Nat → Nat
  | 0, b, _ => b
  | fuel + 1, b, p =>
    let e := reservedEntry s n
    let cap := if startsIn s e b then capacity e - resultsIn s n b else 0
    if p ≤ cap && startsIn s e b then b else reservedBatten s n fuel (b + 1) (p - cap)

/-- The HOST_POOL entry of the next run not yet started, with the batten of that run (R324). -/
def poolRun (s : State) : Nat → Nat → SlotEntry × Nat
  | 0, b => ({}, b)
  | fuel + 1, b =>
    match s.cfg.schedule.find? (fun e => e.task == 2 && startsIn s e b) with
    | some e => (e, b)
    | none => poolRun s fuel (b + 1)

/-- The next pool run. -/
def nextPoolRun (s : State) : SlotEntry × Nat := poolRun s 11 s.bat.num

/-- Requests of a session's reserved share that wait. -/
def reservedWaiting (s : State) (n : Nat) : Nat :=
  (s.hst.queue.filter (fun r => !r.pool && r.who == .session (Fin.ofNat 8 n))).length

/-! ## Serving (R317, R323 to R326) -/

/-- Words applied in order until a block refuses one or a soft reset begins: how many, whether all were taken, whether the
reset began, the state (R326). -/
def applyWords (s : State) (who : Who) : List (Nat × Word) → Nat × Bool × Bool × State
  | [] => (0, true, false, s)
  | (a, v) :: l =>
    match applyWrite s who a v with
    | (false, t) => (0, false, false, t)
    | (true, t) =>
      if isSoftReset a v then (1, true, true, t)
      else
        let (n, r) := applyWords t who l
        (n + 1, r)

/-- The words a READ returns, as octets (R321, R325). -/
def readData (s : State) (who : Who) (addr count : Nat) : State × List Byte :=
  if inWindow addr then
    (forEach (readPages (windowAddr addr) (4 * count)) touchPage s, memGets ramBlank s.psram (windowAddr addr) (4 * count))
  else
    let t := readWords s who addr count
    (t.1, t.2.flatMap (fun w => natLe 4 w.toNat))

/-- Event delivery starts (R313, R317, R416): with START 0 at the entries still to come, with START 1 at the oldest entry
in the Gutter. A second OPEN starts it anew. DESIGN CHOICE, log entry 24. -/
def startDelivery (s : State) (n start : Nat) : State :=
  let g := s.gtr
  let oldest := g.total - g.ring.length
  let hit := fun (i : Nat) => match g.ring[g.total - 1 - i]? with
    | some e => (sessOf s n).evtMask.getLsbD e.source
    | none => false
  let places := if start = 0 then [] else ((List.range (g.routed - oldest)).map (oldest + ·)).filter hit
  let s := modSess s n (fun r => { r with
    delivering := true, outstanding := none, lost := 0, routed := places, start := if start = 0 then g.total else 0 })
  logEv s (72 + n) 1 start

/-- The REPLY to an OPEN (R317). -/
def openReply (s : State) (n : Nat) : List Byte :=
  [BitVec.ofNat 8 n, BitVec.ofNat 8 (sessRole s n), BitVec.ofNat 8 (sessOf s n).defn.reserve, 0#8]
    ++ natLe 6 s.bat.num ++ [0#8, 0#8] ++ natLe 4 s.cfg.sequence

/-- A request served: the REPLY, if one is left to send, and the state. A SOFT RESET that is accepted leaves none: every
message of the run before it is gone (R400). -/
def serveBody (s : State) (who : Who) (seq : Nat) (b : ReqBody) : Option HostMsg × State :=
  match b with
  | .opening start =>
    match who with
    | .session n =>
      let t := startDelivery s n.val start
      (some (mkMsg t who kindREPLY seq 0 (openReply t n.val)), t)
    | .gable => (some (mkMsg s who kindREPLY seq stACCESS []), s)
  | .ending =>
    let t := match who with
      | .session n => stopDelivery s n.val 0
      | .gable => s
    (some (mkMsg t who kindREPLY seq 0 []), t)
  | .nop => (some (mkMsg s who kindREPLY seq 0 []), s)
  | .read addr count =>
    let t := readData s who addr count
    (some (mkMsg t.1 who kindREPLY seq 0 t.2), t.1)
  | .write addr count mode data =>
    let (n, ok, reset, t) := applyWords s who ((writeAddrs addr count mode).zip data)
    if reset then (none, t)
    else (some (mkMsg t who kindREPLY seq (if ok then 0 else stREFUSED) (natLe 2 n ++ [0#8, 0#8])), t)

/-- A request served in a slot: its REPLY waits in the release buffer, or leaves at once where host service is classed
protective (R271). The flag says that a soft reset has replaced the state. -/
def serveReq (s : State) (r : Req) : State × Bool :=
  let s := { s with hst := { s.hst with queue := s.hst.queue.erase r } }
  match serveBody s r.who r.seq r.body with
  | (none, t) => (t, true)
  | (some m, t) =>
    if !wordsWait t 6 then (sendMsg t m, false)
    else ({ t with hst := { t.hst with release := t.hst.release ++ [(m, if r.pool then 2 else 1)] } }, false)

/-- Requests served one after the other; a soft reset ends the run. -/
def serveAll (s : State) : List Req → State
  | [] => s
  | r :: l =>
    match serveReq s r with
    | (t, true) => t
    | (t, false) => serveAll t l

/-- HOST_RESERVED of a session: RESULTs first, then requests up to the capacity (R323). -/
def hostReservedRun (s : State) (e : SlotEntry) : State :=
  let (s, k) := formResults s e.inst
  let mine := s.hst.queue.filter (fun r => !r.pool && r.who == .session (Fin.ofNat 8 e.inst))
  serveAll s (mine.take (capacity e - k))

/-- Requests leave the queue with DEFERRED (R324). -/
def deferReqs (s : State) (l : List Req) : State :=
  forEach l (fun s r => refuse { s with hst := { s.hst with queue := s.hst.queue.erase r } } r.who r.seq stDEFERRED) s

/-- A request's GUARANTEE lies before the running batten, on the 32 bits it names. -/
def overdue (s : State) (r : Req) : Bool :=
  let d := (s.bat.num + 2 ^ 32 - r.guarantee) % 2 ^ 32
  0 < d && d < 2 ^ 31

/-- HOST_POOL: pool requests in order, up to the capacity; none after its GUARANTEE, those are refused with DEFERRED
(R324). -/
def hostPoolRun (s : State) (e : SlotEntry) : State :=
  let s := deferReqs s (s.hst.queue.filter (fun r => r.pool && overdue s r))
  serveAll s ((s.hst.queue.filter (·.pool)).take (capacity e))

/-- The HOST_POOL run that was to serve them is dropped: pool requests are refused with DEFERRED (R324). -/
def poolDropped (s : State) (e : SlotEntry) : State := deferReqs s ((s.hst.queue.filter (·.pool)).take (capacity e))

/-! ## Acceptance (R319 to R321) -/

/-- ACCEPT, sent at once. -/
def sendAccept (s : State) (who : Who) (seq guarantee cls : Nat) : State :=
  sendMsg s (mkMsg s who kindACCEPT seq 0 (natLe 4 guarantee ++ [BitVec.ofNat 8 cls, 0#8, 0#8, 0#8]))

/-- An accepted request is noted: its SEQ with the GUARANTEE, the batten, the MAC it came from (R314, R319). -/
def noteAccepted (s : State) (who : Who) (f : HostFrame) (seq guarantee : Nat) : State :=
  match who with
  | .session n => modSess s n.val (fun r => { r with
      seqs := ((seq, guarantee) :: r.seqs).take 16, lastReq := s.bat.num, mac := if f.via == .gable then r.mac else some f.mac })
  | .gable => { s with hst := { s.hst with gableSeqs := ((seq, guarantee) :: s.hst.gableSeqs).take 16 } }

/-- An accepted request that is not an order, as Purlin queues it. -/
def bodyOf (m : ReqMsg) : ReqBody :=
  match m.kind with
  | 1 => .opening (fieldLe m.body 0 1)
  | 2 => .ending
  | 3 => .read (reqAddr m) (reqCount m)
  | 4 => .write (reqAddr m) (reqCount m) (reqMode m) (reqData m)
  | _ => .nop

/-- EVENT_ACK acts at its acceptance (R320, R329). -/
def ackEvent (s : State) (who : Who) (seq : Nat) : State :=
  match who with
  | .session n =>
    match (sessOf s n.val).outstanding with
    | some (m, k, _, _) =>
      if m.seq == seq then modSess s n.val (fun r => { r with
        outstanding := none, routed := r.routed.drop k, evtSeq := (r.evtSeq + 1) % 65536 })
      else s
    | none => s
  | .gable => s

/-- The pages a request reads through the window; none for another request. -/
def windowPages (m : ReqMsg) : List Nat :=
  if m.kind == 3 && inWindow (reqAddr m) then readPages (windowAddr (reqAddr m)) (4 * reqCount m) else []

/-- Test 8: a READ in the window needs its pages resident, and fewer than 8 accepted READs that pin pages; a page that is
not resident is queued (R208, R321). A status where it is refused. -/
def windowTest (s : State) (m : ReqMsg) : State × Option Nat :=
  let pages := windowPages m
  if !pages.all (resident s) then
    let (t, room) := queueHost s pages
    (countMiss t (!room), some (if room then stNOTRESIDENT else stQUEUEFULL))
  else if !pages.isEmpty && 8 ≤ (hostPins s).length then (countMiss s true, some stQUEUEFULL)
  else (s, none)

/-- A request served at once in hardware and answered with REPLY (R76, R339). -/
def serveNow (s : State) (who : Who) (seq : Nat) (b : ReqBody) : State :=
  match serveBody s who seq b with
  | (some m, t) => sendMsg t m
  | (none, t) => t

/-- An order accepted: latched for the coming edge (R325). -/
def acceptOrder (s : State) (n : Fin 8) (f : HostFrame) (m : ReqMsg) (pool : Bool) : State :=
  let g := nextBatten s % 2 ^ 32
  let o := orderOf n ((reqData m).headD 0).toNat m.seq true pool
  orSame s (latchOrder (sendAccept (noteAccepted s (.session n) f m.seq g) (.session n) m.seq g 0) o)

/-- A request that passed tests 1 to 8: buffer, pool test, acceptance. -/
def acceptReq (s : State) (who : Who) (f : HostFrame) (m : ReqMsg) : State :=
  let now := s.bat.num % 2 ^ 32
  if m.kind == 5 then
    ackEvent (sendAccept (noteAccepted s who f m.seq now) who m.seq now 3) who (fieldLe m.body 0 2)
  else
    let res := match who with
      | .session n => resHeld s n.val < (sessOf s n.val).defn.reserve
      | .gable => false
    if !res && poolFree s = 0 then refuse s who m.seq stNOBUFFER
    else match isOrder m, who with
    | true, .session n => acceptOrder s n f m (!res)
    | _, _ =>
      let run := nextPoolRun s
      if !res && capacity run.1 ≤ poolWaiting s then refuse s who m.seq stBUSY
      else
        let g := (match who, res with
          | .session n, true => reservedBatten s n.val 4096 s.bat.num (reservedWaiting s n.val + 1)
          | _, _ => run.2 + run.1.maxDefer) % 2 ^ 32
        let s := sendAccept (noteAccepted s who f m.seq g) who m.seq g (if res then 1 else 2)
        serveHost { s with hst := { s.hst with queue := s.hst.queue ++ [⟨who, m.seq, bodyOf m, g, !res, f.via⟩] } } (windowPages m)

/-- A request of a session meets Purlin (R321). -/
def purlin (s : State) (who : Who) (f : HostFrame) (m : ReqMsg) : State :=
  match firstRefusal s who f.via f.octets.length m with
  | some st =>
    if st = stDUPLICATE then
      refuseAt s who m.seq st (((seqsOf s who).find? (fun x => x.1 == m.seq)).map (·.2) |>.getD 0)
    else refuse s who m.seq st
  | none =>
    let now := s.bat.num % 2 ^ 32
    if haltedReset s who f.via m then
      (orderSoftReset (sendAccept (noteAccepted s who f m.seq now) who m.seq now 3) (if f.via == .gable then .gable else who)).2
    else match windowTest s m with
    | (t, some st) => refuse t who m.seq st
    | (t, none) =>
      if unconfigured t then
        let t := sendAccept (noteAccepted t who f m.seq now) who m.seq now 3
        if m.kind == 5 then ackEvent t who (fieldLe m.body 0 2) else serveNow (serveHost t (windowPages m)) who m.seq (bodyOf m)
      else if gableRead f.via m then serveNow (noteAccepted t who f m.seq now) who m.seq (bodyOf m)
      else acceptReq t who f m

/-- A message on a port (R308, R319). -/
def receive (s : State) (f : HostFrame) : State :=
  if !msgCrcOk f.octets then discardFrame s
  else match writerOf s f with
  | none => discardFrame s
  | some who => purlin s who f (reqMsg f.octets)

/-! ## The Gable port (R339, R340) -/

/-- A message as octets (R315). -/
def msgOctets (m : HostMsg) : List Byte :=
  let sess := match m.who with
    | .session n => BitVec.ofNat 8 n.val
    | .gable => 0xFF#8
  let h := [0x01#8, BitVec.ofNat 8 m.kind] ++ natLe 2 m.payload.length ++ natLe 2 m.seq ++ [sess, BitVec.ofNat 8 m.status]
    ++ natLe 4 m.batten ++ m.payload
  h ++ natLe 4 (crc32 h).toNat

/-- GINTA: a message waits (R340). -/
def gintA (s : State) : Bool := !s.hst.gableOut.isEmpty
/-- GINTB (R340). -/
def gintB (s : State) : Bool := plantState s == 6 || plantState s == 5 || s.eav.hold || unconfigured s

/-- The STATUS octet the module shifts out (R339). -/
def gableStatus (s : State) : Byte :=
  BitVec.ofNat 8 (pack [(0, b2n (gintA s)), (1, b2n (gintB s)), (2, b2n (decide (0 < s.hst.gableRx))),
    (3, match s.img.module with | .unconfigured => 0 | .operating => 1 | .bench => 2)])

/-- A transaction on the port: in Ship nothing answers; in Dormant the select wakes the module, which shifts out zeros
(R387). -/
def gableTransaction (s : State) (answer : List Byte) (act : State → State) : State :=
  if s.pwr.power == .ship then s
  else if !mapUp s then wakeBy { s with hst := { s.hst with gableShift := List.replicate (1 + answer.length) 0#8 } } .gable
  else
    let t := { s with hst := { s.hst with gableShift := gableStatus s :: answer } }
    act (wakeBy t .gable)

/-- STATUS: four octets (R339). -/
def gableStatusOp (s : State) : State :=
  let n := ((s.hst.gableOut.head?).map (fun m => (msgOctets m).length)).getD 0
  gableTransaction s (natLe 2 n ++ [BitVec.ofNat 8 s.hst.gableRx, 0#8]) id

/-- WRITE: one message (R339). -/
def gableWriteOp (s : State) (octets : List Byte) : State :=
  gableTransaction s [] (fun s =>
    if s.hst.gableRx = 0 then discardFrame s else receive s { via := .gable, octets := octets })

/-- A transaction of a reserved operation is ignored and counted (R339). -/
def gableReserved (s : State) : State := gableTransaction s [] discardFrame

/-- READ: the waiting message, taken when the select rises after its last octet (R339). -/
def gableReadOp (s : State) (octetsClocked : Nat) : State :=
  let msg := ((s.hst.gableOut.head?).map msgOctets).getD []
  let n := octetsClocked - 2
  gableTransaction s ((msg ++ List.replicate n 0#8).take n) (fun s =>
    if msg.length ≤ n then { s with hst := { s.hst with gableOut := s.hst.gableOut.tail } } else s)

/-- The octets of a host message's frame, Ethernet, IPv4 and UDP headers, tag, trailer and FCS included (R330). -/
def frameOctetsOf (f : HostFrame) : Nat := 46 + f.octets.length + 4 * b2n f.tagged + 6 * b2n f.trailer.isSome

/-- The network port a frame arrives on. -/
def netPortOf (f : HostFrame) : NetPort := if f.via == .netB then .netB else .netA

/-- A datagram is for the module: the frame within 1 528 octets, on a port not held in reset, addressed to the port's IP and
LOCAL_UDP, no fragment (R314, R330). Any other is discarded. -/
def datagramOk (s : State) (f : HostFrame) : Bool :=
  let p := netPortOf f
  frameOctetsOf f ≤ 1528 && portUsed s p && portIp s p != 0 && f.dstIp.toNat == portIp s p && f.dstUdp.toNat == (netRec s).localUdp
    && !f.fragment

/-- A host message, whatever its row names: the frame's octets say what it is. -/
def hostFrame (s : State) (f : HostFrame) : State :=
  if f.via == .gable then gableWriteOp s f.octets
  else if !netHears s || !portUsed s (netPortOf f) then s
  else onTaken (prpHear s (f.via == .netB) f.mac f.trailer) (fun s => if datagramOk s f then receive s f else s)

/-! ## Events (R328, R329, R416) -/

/-- The place of the oldest entry in the ring, counted as GTR_TOTAL. -/
def oldestPlace (s : State) : Nat := s.gtr.total - s.gtr.ring.length

/-- The entry at a place of the Gutter's total. -/
def entryOfPlace (s : State) (i : Nat) : Option Entry := if i < oldestPlace s then none else s.gtr.ring[s.gtr.total - 1 - i]?

/-- The new entries reach a session whose mask has their source. -/
def routeTo (s : State) (n : Nat) : State :=
  let r := sessOf s n
  if !r.delivering then s
  else
    let first := max s.gtr.routed (oldestPlace s)
    let new := ((List.range (s.gtr.total - first)).map (first + ·)).filter (fun i =>
      r.start ≤ i && ((entryOfPlace s i).map (fun e => r.evtMask.getLsbD e.source)).getD false)
    modSess s n (fun r => { r with routed := r.routed ++ new })

/-- An EVENT with as many whole entries as fit, when none is outstanding and a pool buffer is free; entries overwritten
before they were sent are counted in LOST. -/
def sendEvent (s : State) (n : Fin 8) : State :=
  let r := sessOf s n.val
  if !r.delivering || r.outstanding.isSome then s
  else
    let gone := (r.routed.filter (fun i => i < oldestPlace s)).length
    let left := r.routed.filter (fun i => oldestPlace s ≤ i)
    let lost := satAdd 16 r.lost gone
    let s := modSess s n.val (fun r => { r with routed := left, lost := lost })
    if left.isEmpty || poolFree s = 0 then s
    else
      let es := (left.take 14).filterMap (entryOfPlace s)
      let pl := natLe 2 es.length ++ natLe 2 lost ++ [0#8, 0#8, 0#8, 0#8] ++ es.flatMap entryOctets
      let m := mkMsg s (.session n) kindEVENT r.evtSeq 0 pl
      let now := !wordsWait s 7
      let s := modSess s n.val (fun r => { r with
        lost := 0, outstanding := some (m, es.length, if now then some s.bat.num else none, 0) })
      if now then sendMsg s m else s

/-- A GUTTER_ROUTE run. -/
def gutterRoute (s : State) : State :=
  let s := forEach (List.range 8) routeTo s
  let s := { s with gtr := { s.gtr with routed := s.gtr.total } }
  forEach (List.finRange 8) sendEvent s

/-! ## The host commands -/

/-- SESSION_OPEN: a host message, an OPEN. -/
def execSessionOpen (f : HostFrame) (s : State) : Out := .next (hostFrame s f)
/-- SESSION_END: a host message, an END. -/
def execSessionEnd (f : HostFrame) (s : State) : Out := .next (hostFrame s f)
/-- READ_REQUEST. -/
def execReadRequest (f : HostFrame) (s : State) : Out := .next (hostFrame s f)
/-- WRITE_REQUEST. -/
def execWriteRequest (f : HostFrame) (s : State) : Out := .next (hostFrame s f)
/-- EVENT_ACK. -/
def execEventAck (f : HostFrame) (s : State) : Out := .next (hostFrame s f)
/-- NOP_REQUEST. -/
def execNopRequest (f : HostFrame) (s : State) : Out := .next (hostFrame s f)

/-- EVENT_RESEND_TIMEOUT: an EVENT unacknowledged for 100 battens is sent again; after the third unanswered resend
delivery stops (R329). -/
def execEventResendTimeout (n : Fin 8) (s : State) : Out :=
  match (sessOf s n.val).outstanding with
  | some (m, k, some b, r) =>
    if s.bat.num < b + 100 then .next s
    else if r < 3 then
      .next (sendMsg (modSess s n.val (fun x => { x with outstanding := some (m, k, some s.bat.num, r + 1) })) m)
    else .next (stopDelivery s n.val 2)
  | _ => .next s

/-- SESSION_IDLE_TIMEOUT: no accepted request for 60 000 battens (R313). -/
def execSessionIdleTimeout (n : Fin 8) (s : State) : Out :=
  if (sessOf s n.val).lastReq + 60000 ≤ s.bat.num then .next (stopDelivery s n.val 1) else .next s

/-- GABLE_STATUS. -/
def execGableStatus (s : State) : Out := .next (gableStatusOp s)
/-- GABLE_WRITE: the message; a transaction of a reserved operation stands under this row, the host sending octets in both. -/
def execGableWrite (w : GableSend) (s : State) : Out :=
  .next (if w.reserved then gableReserved s else gableWriteOp s w.octets)
/-- GABLE_READ: the octets clocked after the operation octet. -/
def execGableRead (octetsClocked : Nat) (s : State) : Out := .next (gableReadOp s octetsClocked)

end Sys2Proof.Machine
end

