-- ==== Sys2Proof/Machine/Net.lean ====
section
/-! DEFINITION. NETA and NETB (R330 to R333), the discipline of the batten edge (R39 to R42) and the GOOSE
subscriptions (R337, R338). -/

namespace Sys2Proof.Machine

/-! ## The ports (R66, R330) -/

/-- The link of a port. -/
def linkOf (s : State) (p : NetPort) : LinkState :=
  match p with
  | .netA => s.hst.linkA
  | .netB => s.hst.linkB
/-- The event source of a port (R410). -/
def netSource : NetPort → Nat
  | .netA => 82
  | .netB => 83
/-- A port sends: used, with a link, the network not quiet, and not in the last batten before Dormant (R386). -/
def portSends (s : State) (p : NetPort) : Bool := netHears s && portUsed s p && linkUp (linkOf s p) && !s.pwr.last

/-- A link as read at a poll. -/
def setLink (s : State) (p : NetPort) (l : LinkState) : State :=
  match p with
  | .netA => { s with hst := { s.hst with linkA := l } }
  | .netB => { s with hst := { s.hst with linkB := l } }

/-- A link loss counted (R341). -/
def countLoss (s : State) (p : NetPort) : State :=
  match p with
  | .netA => { s with hst := { s.hst with lossA := satAdd 16 s.hst.lossA 1 } }
  | .netB => { s with hst := { s.hst with lossB := satAdd 16 s.hst.lossB 1 } }

/-- A port's PHY as read: a loss is counted and logged, a link-up is logged and announced by a gratuitous ARP (R330, R332,
R412). -/
def pollPort (s : State) (p : NetPort) (l : LinkState) : State :=
  if !netHears s || !portUsed s p then s
  else
    let was := linkUp (linkOf s p)
    let s := setLink s p l
    if was && !linkUp l then logEv (countLoss s p) (netSource p) 1 0
    else if !was && linkUp l then
      let s := logEv s (netSource p) 2 (linkBits l / 2)
      if s.pwr.last then s else sendArp s p
    else s

/-- LINK_POLL: both PHYs are read every 100 ms. -/
def execLinkPoll (a b : LinkState) (s : State) : Out := .next (pollPort (pollPort s .netA a) .netB b)

/-- A frame for the module's hardware arrives on a port that hears: what follows when it is taken (R330, R332). -/
def netFrame (s : State) (p : NetPort) (src : LanSource) (f : State → State) : State :=
  if !netHears s || !portUsed s p then s else onTaken (prpHear s (p == .netB) src.mac src.trailer) f

/-- ARP_REQUEST: a request for the port's IP is answered (R330). -/
def execArpRequest (port : NetPort) (target : Word) (src : LanSource) (s : State) : Out :=
  .next (netFrame s port src (fun s =>
    if portSends s port && portIp s port != 0 && target.toNat == portIp s port then netSend s (.arpReply port src.mac) else s))

/-- Echo replies of a port in the running second (R330). -/
def echoes (s : State) : NetPort → Nat
  | .netA => s.hst.icmpA
  | .netB => s.hst.icmpB

/-- An echo reply counted. -/
def countEcho (s : State) : NetPort → State
  | .netA => { s with hst := { s.hst with icmpA := s.hst.icmpA + 1 } }
  | .netB => { s with hst := { s.hst with icmpB := s.hst.icmpB + 1 } }

/-- ICMP_ECHO_REQUEST: at most 10 per second and port are answered (R330); a second is 1 000 battens of the batten number.
DESIGN CHOICE, log entry 25. A frame of more than 1 528 octets is not received. -/
def execIcmpEchoRequest (port : NetPort) (target : Word) (src : LanSource) (payload : List Byte)
    (s : State) : Out :=
  if 1528 < 46 + payload.length + 6 * b2n src.trailer.isSome then .next s
  else .next (netFrame s port src (fun s =>
    if portSends s port && portIp s port != 0 && target.toNat == portIp s port && echoes s port < 10 then
      netSend (countEcho s port) (.echoReply port src.mac payload)
    else s))

/-! ## PRP (R332) -/

/-- PRP_SUPERVISION_TIMER: every 2 000 ms on both LANs. -/
def execPrpSupervisionTimer (s : State) : Out :=
  if prpMode s && (portSends s .netA || portSends s .netB) then .next (netSend s .supervision) else .next s

/-- PRP_SUPERVISION_FRAME_RECEIVED: its source enters the node table; a frame that carries a trailer meets duplicate
discard. -/
def execPrpSupervisionFrameReceived (lanB : Bool) (src : LanSource) (s : State) : Out :=
  if !prpMode s then .next s
  else .next (netFrame s (if lanB then .netB else .netA) src (fun s => hearNode s lanB src.mac))

/-- The LAN a node has been heard on alone for 5 s: false LAN A, true LAN B. -/
def singleLan (b : Nat) (n : PrpNode) : Option Bool :=
  let silent := fun (x : Option Nat) => decide ((x.getD n.since) + 5000 ≤ b)
  let live := fun (x : Option Nat) => match x with
    | some y => decide (b < y + 5000)
    | none => false
  if live n.seenA && silent n.seenB then some false
  else if live n.seenB && silent n.seenA then some true
  else none

/-- PRP_SINGLE_LAN_TIMEOUT: a source heard on one LAN only for 5 s is logged, once until it is heard on the other. -/
def execPrpSingleLanTimeout (mac : BitVec 48) (s : State) : Out :=
  match s.hst.nodes.find? (fun n => n.mac == mac) with
  | none => .next s
  | some n =>
    match singleLan s.bat.num n with
    | some lan =>
      if n.logged.isSome then .next s
      else
        let put := fun (x : PrpNode) => if x.mac == mac then { x with logged := some lan } else x
        .next (logEv { s with hst := { s.hst with nodes := s.hst.nodes.map put } } 82 3 (b2n lan))
    | none => .next s

/-! ## Time (R40 to R42, R333) -/

/-- PTP is on. -/
def ptpOn (s : State) : Bool := s.cfg.network.isSome && (netRec s).ptp == 1

/-- A sync state entered, with its event (R412). -/
def enterSync (s : State) (x : SyncState) : State :=
  if s.bat.sync == x then s
  else
    let s := { s with bat := { s.bat with sync := x, goodRun := 0 } }
    logEv s 125 1 (syncCode s)

/-- The grandmaster is lost: HOLDOVER from LOCKED or ACQUIRING, the trim at the last frequency estimate (R40, R42). One that
goes on sending Announce is accepted anew at the next edge: when an accepted master counts as accepted again the manual does
not say. DESIGN CHOICE, log entry 65. -/
def loseMaster (s : State) : State :=
  let s := { s with hst := { s.hst with gm := none, ptpPort := 0 } }
  if s.bat.sync == .locked || s.bat.sync == .acquiring then
    enterSync { s with bat := { s.bat with trim := s.bat.freqEst, holdMs := 0 } } .holdover
  else s

/-- The first of two lists of equal length comes first in dictionary order. -/
def dictLess : List Nat → List Nat → Bool
  | x :: l, y :: m => x < y || (x == y && dictLess l m)
  | _, _ => false

/-- Whether the master of `a` is better than that of `b` under the default BMCA: the data sets of IEEE 1588 in their
order, and for one grandmaster the shorter path. -/
def betterMaster (a b : Announce) : Bool :=
  let key := fun (x : Announce) => [x.priority1.toNat, x.clockClass.toNat, x.accuracy.toNat, x.variance.toNat, x.priority2.toNat,
    x.gmId.toNat, x.steps.toNat]
  dictLess (key a) (key b)

/-- A master may be accepted: clockClass 6 or 7 (R333). -/
def goodMaster (a : Announce) : Bool := a.clockClass == 6 || a.clockClass == 7

/-- The Announce of a port not older than three intervals. PRESUMED, log entry 26: the interval is 1 s. -/
def liveAnnounce (s : State) (p : NetPort) : Option Announce :=
  match p with
  | .netA => if s.bat.num ≤ s.hst.annA + 3000 then s.hst.gmA else none
  | .netB => if s.bat.num ≤ s.hst.annB + 3000 then s.hst.gmB else none

/-- The best master across both ports, with its port. -/
def bestMaster (s : State) : Option (Announce × NetPort) :=
  match liveAnnounce s .netA, liveAnnounce s .netB with
  | some a, some b => if betterMaster b a then some (b, .netB) else some (a, .netA)
  | some a, none => some (a, .netA)
  | none, some b => some (b, .netB)
  | none, none => none

/-- PTP port code (R341). -/
def ptpCode : NetPort → Nat
  | .netA => 1
  | .netB => 2

/-- The choice of the grandmaster: a new one is accepted, or the one in use is kept or lost (R40, R333). -/
def chooseMaster (s : State) : State :=
  match bestMaster s with
  | none => if s.hst.gm.isSome then loseMaster s else s
  | some (a, p) =>
    if (s.hst.gm.map (·.gmId)) == some a.gmId then { s with hst := { s.hst with gm := some a, leapKnown := a.utcValid } }
    else
      let s := { s with hst := { s.hst with gm := some a, leapKnown := a.utcValid, ptpPort := ptpCode p, syncAt := s.bat.num } }
      let s := logEv s (netSource p) 6 a.clockClass.toNat
      if s.bat.sync == .free || s.bat.sync == .holdover then enterSync s .acquiring else s

/-- What a port holds after an Announce: the better of the one held and the new one; the same master's newest; none when
that master's class no longer qualifies. -/
def holdAnnounce (old : Option Announce) (a : Announce) : Option Announce :=
  match old with
  | none => if goodMaster a then some a else none
  | some o =>
    if o.gmId == a.gmId then (if goodMaster a then some a else none)
    else if goodMaster a && betterMaster a o then some a else some o

/-- PTP_ANNOUNCE_RECEIVED. -/
def execPtpAnnounceReceived (a : Announce) (s : State) : Out :=
  if !ptpOn s || !netHears s || !portUsed s a.port || a.domain.toNat != (netRec s).domain then .next s
  else
    let n := holdAnnounce (liveAnnounce s a.port) a
    let kept := n.any (fun x => x.gmId == a.gmId)
    let h := match a.port with
      | .netA => { s.hst with gmA := n, annA := if kept then s.bat.num else s.hst.annA }
      | .netB => { s.hst with gmB := n, annB := if kept then s.bat.num else s.hst.annB }
    .next (chooseMaster { s with hst := h })

/-- The batten of the last Sync on a port is at most 2 s old, and the port has a link: its Sync is usable. DESIGN CHOICE, log
entry 27. -/
def syncLive (s : State) (p : NetPort) : Bool :=
  let at_ := match p with
    | .netA => s.hst.syncA
    | .netB => s.hst.syncB
  linkUp (linkOf s p) && at_.any (fun b => s.bat.num ≤ b + 2000)

/-- A Sync comes from a master the port has accepted: of PTP_DOMAIN, from the clock whose live Announce the port holds, and of
the grandmaster in use (R333). -/
def syncKnown (s : State) (m : SyncMeas) : Bool :=
  m.domain.toNat == (netRec s).domain
    && (liveAnnounce s m.port).any (fun a => a.source == m.source && (s.hst.gm.map (·.gmId)) == some a.gmId)

/-- The port time is taken from, after a Sync on `p`: under PRP the other port takes over when Sync from the one in use is no
longer usable (R333). -/
def takePort (s : State) (p : NetPort) : State :=
  let other := match p with
    | .netA => NetPort.netB
    | .netB => .netA
  if prpMode s && s.hst.ptpPort == ptpCode other && !syncLive s other then { s with hst := { s.hst with ptpPort := ptpCode p } } else s

/-- A trim held to ±60 ppm (R39, R44). -/
def holdTrim (t : Int) : Int := max (-6000) (min t 6000)

/-- The phase term of the trim: within ±40 ppm, otherwise not stated (R41, log entry 6). -/
def phaseTerm (n : Nat) : Int := ((Config.freeWord n).toNat % 8001 : Nat) - 4000

/-- A usable Sync: offset, frequency estimate, trim, the time of the edge, the steps to and from LOCKED (R40, R41, R336). -/
def takeSync (s : State) (m : SyncMeas) : State :=
  let (n, s) := takeFresh s
  let good := absI m.offset ≤ 1000
  let run := if good then s.bat.goodRun + 1 else 0
  let s := { s with
    hst := { s.hst with syncAt := s.bat.num }
    bat := { s.bat with
      utc := some (s.bat.num, m.edge), offset := m.offset, freqEst := holdTrim m.freq
      trim := holdTrim (holdTrim m.freq + phaseTerm n), goodRun := run } }
  if s.bat.sync == .locked && !good then enterSync s .acquiring
  else if s.bat.sync == .acquiring && 4 ≤ run then enterSync s .locked
  else s

/-- PTP_SYNC_RECEIVED. -/
def execPtpSyncReceived (m : SyncMeas) (s : State) : Out :=
  if !ptpOn s || !netHears s || !portUsed s m.port || !syncKnown s m then .next s
  else
    let s := takePort s m.port
    let h := match m.port with
      | .netA => { s.hst with syncA := some s.bat.num }
      | .netB => { s.hst with syncB := some s.bat.num }
    let s := { s with hst := h }
    if s.hst.gm.isSome && s.hst.ptpPort == ptpCode m.port && (s.bat.sync == .acquiring || s.bat.sync == .locked) then
      .next (takeSync s m)
    else .next s

/-- No usable Sync for 3 s (R40). -/
def syncLoss (s : State) : State :=
  if (s.bat.sync == .locked || s.bat.sync == .acquiring) && s.hst.syncAt + 3000 ≤ s.bat.num then loseMaster s else s

/-- SYNC_LOSS_TIMEOUT. -/
def execSyncLossTimeout (s : State) : Out := .next (syncLoss s)

/-- A PTP frame leaves, without a trailer (R332, R333). -/
def ptpSend (s : State) (t : NetTx) : State := { s with hst := { s.hst with netSent := s.hst.netSent ++ [⟨t, none⟩] } }

/-- PDELAY_TIMER: a request on each port every second (R333). -/
def execPdelayTimer (s : State) : Out :=
  if !ptpOn s then .next s
  else
    let s := if portSends s .netA then ptpSend s (.pdelayReq .netA) else s
    .next (if portSends s .netB then ptpSend s (.pdelayReq .netB) else s)

/-- PDELAY_MESSAGE_RECEIVED: a request is answered two-step; a response gives the mean path delay of the port. -/
def execPdelayMessageReceived (port : NetPort) (m : PdelayMsg) (s : State) : Out :=
  if !ptpOn s || !netHears s || !portUsed s port then .next s
  else match m with
  | .request => if portSends s port then .next (ptpSend s (.pdelayResp port)) else .next s
  | .response d =>
    .next (match port with
      | .netA => { s with hst := { s.hst with pdelayA := d } }
      | .netB => { s with hst := { s.hst with pdelayB := d } })

/-! ## GOOSE subscriptions (R337, R338) -/

/-- A record's PORT takes frames of a network port. -/
def goosePortTakes (port : Nat) (p : NetPort) : Bool :=
  match p with
  | .netA => port == 0 || port == 2
  | .netB => port == 1 || port == 2

/-- The event source of a record's port: the PRP pair's is NETA's (R410). -/
def gooseSource (port : Nat) : Nat := if port = 1 then 83 else 82

/-- A goID as its record holds it: padded with zeros to 16 octets. -/
def padId (l : List Byte) : List Byte := (l ++ List.replicate 16 0#8).take 16

/-- A frame matches a subscription (R337). -/
def gooseMatches (r : GooseRec) (g : GooseFrame) : Bool :=
  r.dir == 2 && r.dstMac == g.dst.toNat && r.appid == g.appid.toNat && padId r.goId == padId g.goId && g.goId.length ≤ 16
    && goosePortTakes r.port g.port

/-- The members are those of the content (R334). -/
def membersOk (content : Nat) (ms : List GooseMember) : Bool :=
  if content = 0x41 then ms.length == 4 && ms.all (fun m => m.isBool && m.value.isSome) else ms.length ≤ 8

/-- The strings an OPEN REQUEST opens: members TRUE, with a good Quality or none, of configured strings (R338). -/
def requestedStrings (s : State) (ms : List GooseMember) : BitVec 4 :=
  maskOf 4 (fun k => hasStr s k && match ms[k]? with
    | some m => m.value.any (· != 0) && (m.quality.getD 0 == 0)
    | none => false)

/-- A displaced order is answered with NOT PERMITTED, as Ridge would have done (R338). -/
def displaceOrder (s : State) (n : Fin 8) (o : Order) : State :=
  if !o.result then s
  else
    let rs := if o.strings == 0 then List.replicate 4 OrderResult.notConfigured
      else (List.range 4).map (fun k => if o.strings.getLsbD k then .notPermitted else .notAddressed)
    let r : ResReg := { res := rs, code := orderCode o.kind, winner := 15, batten := nextBatten s % 2 ^ 32 }
    let m := mkMsg s (.session n) kindRESULT o.seq 0 (resultPayload r)
    { s with hst := { s.hst with release := s.hst.release ++ [(m, if o.pool then 2 else 1)] } }

/-- The OPEN of an OPEN REQUEST, latched for the next edge: it joins the PROTECT session's OPEN, or takes the place of another
order of that session (R338). -/
def latchRequest (s : State) (mask : BitVec 4) : State :=
  if mask == 0 || !operating s || !coresRun s then s
  else match protectSess s with
  | none => s
  | some n =>
    let s := { s with hst := { s.hst with openLatches := satAdd 16 s.hst.openLatches 1 }, pwr := { s.pwr with quietMs := 0 } }
    let mine := fun (o : Order) => o.src == some n
    let put := fun (l : List Order) => { s with rdg := { s.rdg with incoming := l } }
    match s.rdg.incoming.find? mine with
    | some o =>
      if o.kind == .opening then
        put (s.rdg.incoming.map (fun x => if mine x then { x with strings := x.strings ||| mask } else x))
      else
        displaceOrder (put (s.rdg.incoming.filter (fun x => !mine x) ++ [⟨some n, .opening, mask, false, 0, 0, false, false⟩])) n o
    | none => put (s.rdg.incoming ++ [⟨some n, .opening, mask, false, 0, 0, false, false⟩])

/-- A matching frame refreshes the supervision; a return is logged (R337). -/
def gooseHeard (s : State) (k : Nat) (ttl : Nat) : State :=
  let was := (vget s.hst.goose k).st
  let s := modGoose s k (fun g => { g with st := .valid, lastAt := s.bat.num, ttl := ttl })
  if was == .lost then logEv s (gooseSource (gooseRec s k).port) 5 k else s

/-- A matching frame on subscription `k`: one in simulation or test, or with other members, is counted and not acted on;
otherwise its values are stored, and a new state or the first frame acts (R337, R338). -/
def gooseTake (s : State) (k : Nat) (g : GooseFrame) : State :=
  let s := gooseHeard s k g.ttl
  let content := (gooseRec s k).content
  if g.simulation || !membersOk content g.members then
    { s with hst := { s.hst with notActed := satAdd 16 s.hst.notActed 1 } }
  else
    let r := vget s.hst.goose k
    let new := r.first || r.stNum != g.stNum.toNat
    let vals := Vector.ofFn (fun (i : Fin 8) => match g.members[i.val]? with
      | some m => m.value.getD 0xFFFFFFFF
      | none => 0)
    let s := modGoose s k (fun r => { r with first := false, stNum := g.stNum.toNat, vals := vals })
    if new && content = 0x41 then latchRequest s (requestedStrings s g.members) else s

/-- GOOSE_FRAME_RECEIVED: a duplicate is discarded and counted (R332); every subscription the frame matches takes it. -/
def execGooseFrameReceived (g : GooseFrame) (s : State) : Out :=
  .next (netFrame s g.port g.src (fun s =>
    forEach ((List.range s.cfg.goose.length).filter (fun k => gooseMatches (gooseRec s k) g)) (fun s k => gooseTake s k g) s))

/-- The time within which a subscription must hear a frame [battens] (R337). -/
def gooseWait (s : State) (k : Nat) : Nat :=
  if (gooseRec s k).heartbeat = 0 then (vget s.hst.goose k).ttl else (gooseRec s k).heartbeat

/-- GOOSE_SUBSCRIPTION_LOST. -/
def execGooseSubscriptionLost (k : Fin 24) (s : State) : Out :=
  let r := vget s.hst.goose k.val
  if r.st == .valid && r.lastAt + gooseWait s k.val ≤ s.bat.num then
    .next (logEv (modGoose s k.val (fun g => { g with st := .lost, first := true })) (gooseSource (gooseRec s k.val).port) 4 k.val)
  else .next s

end Sys2Proof.Machine
end

