-- ==== Sys2Proof/Machine/Batten.lean ====
section
/-! DEFINITION. The Batten sequencer: the edge and what falls due at it (R25, R26, R33), the slots and the table's work
(R27 to R38), the checkpoints (R272), Doze (R383). -/

namespace Sys2Proof.Machine

/-! ## Deferral (R34, R35, R38) -/

/-- A CORE cycle outside the batten. -/
def outsideBatten (c : Nat) : Bool := 240000 ≤ c

/-- No work starts at or after this cycle (R33). -/
def ceilingCycle : Nat := 211200

/-- The table entry a piece of work is of. -/
def workEntry (s : State) (w : Work) : SlotEntry := (entryOf s w.slot).getD {}

/-- Work of a deferrable entry (R28). -/
def isDeferrable (s : State) (w : Work) : Bool := (workEntry s w).cls == 2

/-- A piece of deferrable work is deferred, or dropped where its MAXDEFER is passed (R34); a dropped HOST_POOL run refuses
its requests (R324). -/
def deferWork (s : State) (w : Work) : State :=
  let e := workEntry s w
  if e.maxDefer < w.count + 1 then
    let s := logEv { s with bat := { s.bat with dropCnt := satAdd 16 s.bat.dropCnt 1 } } 124 2 w.slot
    if e.task = 2 then poolDropped s e else s
  else
    { s with bat := { s.bat with
      deferCnt := satAdd 16 s.bat.deferCnt 1
      deferred := s.bat.deferred ++ [{ w with count := w.count + 1, carried := true }] } }

/-- The running piece ends by itself at a cycle; a critical one has not overrun this time, a PAGE_DEMAND run makes no further
transfer (R38, R44, R206). -/
def endRunning (s : State) (cycle : Nat) : State :=
  match s.bat.running with
  | none => { s with bat := { s.bat with cycle := cycle } }
  | some w =>
    let runs := s.bat.overRuns.filter (fun x => x.1 != w.slot)
    let s := { s with bat := { s.bat with running := none, cycle := cycle, peak := max s.bat.peak cycle, overRuns := runs } }
    if (workEntry s w).task = 6 then { s with pgr := { s.pgr with budget := 0 } } else s

/-- No further work starts in this batten: what waits is deferred, a critical entry's work is not done. -/
def deferRest (s : State) : State :=
  let l := s.bat.todo
  forEach (l.filter (isDeferrable s)) deferWork { s with bat := { s.bat with todo := [] } }

/-- Deferrable work is suspended where it stands (R38): it becomes a deferred instance whose task has been run. -/
def suspend (s : State) : State :=
  match s.bat.running with
  | none => s
  | some w =>
    let s := { s with bat := { s.bat with running := none } }
    if isDeferrable s w then deferWork s { w with ran := true } else s

/-! ## The work of the table's tasks (R29) -/

/-- What a slot of a task does. PORT_BULK prepares and collects the bulk window's transactions, which have commands of
their own; DIAG's self-tests leave nothing (R29, R79). -/
def taskRun (s : State) (e : SlotEntry) (adc : AdcSample) : State :=
  match e.task with
  | 0x01 => hostReservedRun s e
  | 0x02 => hostPoolRun s e
  | 0x03 => gooseSlot s
  | 0x04 => gutterRoute s
  | 0x05 => histPageRun s
  | 0x06 => pageDemandRun s e.wcet
  | 0x07 => learnRun s
  | 0x08 => impRun s
  | 0x0A => housekeeping s adc
  | 0x0B => openWireSlot s
  | 0x0C => ledgerRun s
  | _ => s

/-- A piece of work starts: it runs its task, but for an instance resumed where it stopped, whose task has been run; a
critical entry takes up what its last occurrence left unfinished (R38). The effect of a task on the state comes whole at
its start (log entry 43). -/
def startWork (s : State) (w : Work) (adc : AdcSample) : State :=
  let e := workEntry s w
  let s := { s with bat := { s.bat with
    running := some w, pauseTaken := false, unfinished := s.bat.unfinished.filter (· != w.slot)
    deferStarted := s.bat.deferStarted || isDeferrable s w
    worked := s.bat.worked.filter (· != w.slot) ++ [w.slot] } }
  if w.ran then s else taskRun s e adc

/-- A throttle pause stands before this piece (R37). -/
def pauseDue (s : State) : Bool := 2 ≤ s.pwr.level && s.bat.deferStarted && !s.bat.pauseTaken

/-- The next piece in R33's order that starts at a cycle; the deferrable ones that would end too late are deferred, and a
throttle pause begins before one that would not (R34, R37). -/
def startNext (s : State) (cycle : Nat) (adc : AdcSample) : List Work → State
  | [] => { s with bat := { s.bat with todo := [] } }
  | w :: rest =>
    let s := { s with bat := { s.bat with todo := rest } }
    if !isDeferrable s w then startWork s w adc
    else
      let stop := cycle + (workEntry s w).wcet + (if pauseDue s then 4800 else 0)
      if ceilingCycle < stop then startNext (deferWork s w) cycle adc rest
      else if pauseDue s then
        { s with bat := { s.bat with todo := w :: rest, pausing := true }, pwr := { s.pwr with power := .doze } }
      else startWork s w adc

/-- SLOT_ENTRY_START: the work before it has ended at `cycle`, and the next piece starts there; none before slots 0 to 8
have run (R33). -/
def execSlotEntryStart (cycle : Nat) (adc : AdcSample) (s : State) : Out :=
  if outsideBatten cycle then .fault .noSuchCycle
  else if !slotsRun s || s.bat.pausing || !slotNext s 9 then .next s
  else
    let s := endRunning s cycle
    let s := { s with pwr := { s.pwr with power := .run } }
    if ceilingCycle ≤ cycle then .next (deferRest s) else .next (startNext s cycle adc s.bat.todo)

/-- THROTTLE_PAUSE_END. -/
def execThrottlePauseEnd (s : State) : Out :=
  if s.bat.pausing then
    .next { s with bat := { s.bat with pausing := false, pauseTaken := true }, pwr := { s.pwr with power := .run } }
  else .next s

/-! ## Work that runs long (R36, R38) -/

/-- A critical entry at its WCET: stopped, counted and logged; the third time in a row it is a mismatch of its partition, and
the count of overruns in a row begins again (DESIGN CHOICE, log entry 72: R38 does not say whether it does). -/
def criticalOverrun (s : State) (w : Work) (e : SlotEntry) : State :=
  let n := ((s.bat.overRuns.find? (fun x => x.1 == w.slot)).map (·.2)).getD 0 + 1
  let others := s.bat.overRuns.filter (fun x => x.1 != w.slot)
  let s := logEv { s with bat := { s.bat with
    running := none, overrunCnt := satAdd 16 s.bat.overrunCnt 1, unfinished := s.bat.unfinished.erase w.slot ++ [w.slot]
    overRuns := if n < 3 then (w.slot, n) :: others else others } } 124 1 w.slot
  if n < 3 then s
  else
    let (k, s) := freeKind s
    mismatch s (taskPart e.task) k

/-- SLOT_WCET_REACHED: the running piece reaches its WCET. -/
def execSlotWcetReached (s : State) : Out :=
  if !slotsRun s then .next s
  else match s.bat.running with
  | none => .next s
  | some w =>
    let e := workEntry s w
    if !isDeferrable s w then .next (criticalOverrun s w e)
    else if demandDriven e.task then
      .next { s with bat := { s.bat with running := none }, pgr := { s.pgr with budget := if e.task = 6 then 0 else s.pgr.budget } }
    else .next (logEv { s with bat := { s.bat with overrunCnt := satAdd 16 s.bat.overrunCnt 1 } } 124 1 w.slot)

/-- FIXED_SLOT_DEADLINE_MISS: the slot has not completed in this batten; no further slot of the batten runs, and the
protective reaction follows (R38), but in a shadow course, where it is recorded (R283). -/
def execFixedSlotDeadlineMiss (slot : Fin 9) (s : State) : Out :=
  if !slotsRun s || slot.val < s.bat.fixedDone then .next s
  else
    let (k, s) := freeKind { s with bat := { s.bat with ended := true } }
    let (p, s) := fixedPart s slot.val
    .next (if s.cpr.coupling == .shadow then recordShadow s p k else protectiveMismatch s p k)

/-- The work of the batten ends at the ceiling: what runs is suspended there, the rest deferred (R33, R38, R44). -/
def ceilingWork (s : State) : State :=
  let peak := if s.bat.running.isSome then max s.bat.peak ceilingCycle else s.bat.peak
  deferRest (suspend { s with bat := { s.bat with pausing := false, cycle := ceilingCycle, peak := peak } })

/-- CEILING_REACHED: at cycle 211 200 running deferrable work is suspended, the rest deferred (R33, R38). -/
def execCeilingReached (s : State) : Out :=
  if !slotsRun s then .next s
  else .next (ceilingWork s)

/-- DOZE_WAKE: the cores wake before the next slot or edge (R383). -/
def execDozeWake (s : State) : Out :=
  if s.pwr.power == .doze then .next { s with pwr := { s.pwr with power := .run } } else .next s

/-! ## Slots 4 and 6, the checkpoints (R27) -/

/-- THATCH_UPDATE: slot 4, in batten 0 of a course with the snapshot freeze (R13, R119, R155, R199). -/
def execThatchUpdate (s : State) : Out :=
  if !fixedRuns s || !slotNext s 4 then .next s
  else
    let s := forEach (strs s) quietBatten (thatchUpdate (endSlot s 4))
    let s := { s with
      pgr := { s.pgr with updates := if coresRun s then s.pgr.updates + 1 else s.pgr.updates }
      led := { s.led with cap := s.vrg.charge, capAt := s.bat.num } }
    .next (if phaseOf s = 0 then freezeSnapshot s else s)

/-- The intent word leaves for crossing 6, or waits in the output compare gate (R270). -/
def gateWord (s : State) (w : IntentWord) : State :=
  if gateOn s then { s with eav := { s.eav with gated := some w } } else crossWord s w

/-- OUTPUT_INTENT_WRITE: slot 6 writes the intent word; at the end of the orderly stop the word with nothing on (R291,
R406). -/
def execOutputIntentWrite (s : State) : Out :=
  if !slotsRun s || !slotNext s 6 then .next s
  else
    let s := endSlot s 6
    if s.pwr.allOff then
      let s := { s with pwr := { s.pwr with offSent := true } }
      .next (gateWord s (makeIntent 0 (BitVec.ofNat 8 s.bat.num) 0 (List.replicate 8 0)))
    else .next (gateWord s (slot6Word s))

/-- CHECKPOINT_A: slot 8 (R272). -/
def execCheckpointA (obs : CheckObs) (s : State) : Out :=
  if !slotsRun s || !slotNext s 8 then .next s
  else .next (checkpoint (endSlot s 8) obs false)

/-- The closing checkpoint of this batten stands clean (R272). -/
def closedClean (s : State) : Bool :=
  s.cpr.cleanClosing && s.cpr.cleanBatten % 2 ^ 24 == s.bat.num % 2 ^ 24 && coresRun s && !s.cpr.resume

/-- CLOSING_CHECKPOINT: the sequencer starts no further work; once clean, the power states' decisions follow (R384, R386),
and the cores Doze. -/
def execClosingCheckpoint (cycle : Nat) (obs : CheckObs) (s : State) : Out :=
  if outsideBatten cycle then .fault .noSuchCycle
  else if !slotsRun s || !slotNext s 9 then .next s
  else
    let s := if ceilingCycle ≤ cycle then ceilingWork s
      else deferRest { (endRunning s cycle) with bat := { (endRunning s cycle).bat with pausing := false } }
    let s := checkpoint s obs true
    let s := if closedClean s then powerCheckpoint s else s
    .next (if s.pwr.power == .run then { s with pwr := { s.pwr with power := .doze } } else s)

/-! ## The edge (R25, R33) -/

/-- An ascending insertion of work by a key. -/
def insertWork (key : Work → Nat) (w : Work) : List Work → List Work
  | [] => [w]
  | x :: l => if key w < key x then w :: x :: l else x :: insertWork key w l

/-- Work sorted by a key. -/
def sortWork (key : Work → Nat) (l : List Work) : List Work := l.foldl (fun m w => insertWork key w m) []

/-- The work of a batten in R33's order: critical entries, deferrable entries, deferred instances, oldest first; an instance
whose entry falls due again is withdrawn (R35). -/
def battenWork (s : State) : List Work :=
  let due := fun (c : Nat) => sortWork (·.slot)
    ((s.cfg.schedule.filter (fun e => e.cls == c && maskBit e.mask (phaseOf s))).map (fun e => ⟨e.id, 0, false, s.bat.num, false⟩))
  let now := due 2
  let old := sortWork (fun w => w.since * 256 + w.slot) (s.bat.deferred.filter (fun w => !now.any (fun x => x.slot == w.slot)))
  due 1 ++ now ++ old

/-- What the last batten left: work not ended is suspended, work not started deferred, while the cores run. -/
def closeBatten (s : State) : State := deferRest (suspend s)

/-- The end of a batten at the edge that follows it: the impedance windows, the Verge batten, the second's sums. -/
def battenEnds (s : State) : State := closeBatten (histBatten (vergeBattenEnd (impBattenEnd s)))

/-- Both cores resume at this edge (R276, R279): after a core-pair reset this is the reclaim batten (R238). -/
def resumeCores (s : State) : State :=
  if !s.cpr.resume then s
  else if s.cpr.run == .running then { s with cpr := { s.cpr with resume := false } }
  else
    { s with cpr := { s.cpr with resume := false, run := .running }, rdg := { s.rdg with reclaim := true } }

/-- What falls due at the edge of batten 0 of a course. The RWIRE update of every 100 courses comes with the balance
computation, at the course numbers that 100 divides (R134, R136; DEDUCED, log entry 64). -/
def courseEdge (s : State) : State :=
  let s := handOver s
  let s := forEach (usedPorts s) proveCourse s
  let s := thatchCourse s
  let s := forEach (usedPorts s) bleedCourse s
  let s := periodicDue s
  let s := oweLedger s (fun w => { w with roundAge := satAdd 16 w.roundAge 1 })
  let s := wakeRoundStep (splitEdge s)
  if courseOf s % 100 = 0 then
    oweLedger (wireUpdate (balanceCompute s)) (fun w => { w with roundDue := true })
  else s

/-- The orders latched for this edge become the evaluation's; they end a Dormant entry (R15, R386). -/
def latchEdge (s : State) : State :=
  let l := s.rdg.latched ++ s.rdg.incoming
  let s := { s with rdg := { s.rdg with latched := l, incoming := [], evaluated := false } }
  if l.isEmpty then s else abandonEntry { s with pwr := { s.pwr with quietMs := 0 } }

/-- The downlink of a port: its exchange opens and its CMD is formed; in the last batten before Dormant the CMD is R139's. While
the debugger holds the lead core no slot starts, and no CMD leaves (R287). -/
def downlink (s : State) (p : Nat) : State :=
  if s.cpr.dbgHalted then s else if s.pwr.last then sleepCmd s p else balanceEdge s p

/-- I_s of the last edge, kept from the edge before a Spar trip on (R234). -/
def keepCurrent (s : State) (k : Nat) : State :=
  if s.spar.tripAt.any (fun t => t + 1 < s.bat.num) then s else modStr s k (fun t => { t with lastI := iString s k })

/-- The marks of one batten cleared. -/
def clearBatten (s : State) : State :=
  let hold := s.bat.sync == .holdover
  let s := crossDrain s
  { s with
    hst := { s.hst with
      sent := [], netSent := []
      icmpA := if s.bat.num % 1000 = 0 then 0 else s.hst.icmpA
      icmpB := if s.bat.num % 1000 = 0 then 0 else s.hst.icmpB }
    can := s.can.map (fun c => { c with onBus := [] })
    cpr := { s.cpr with disagreed := [], agreedWord := none, agreed := [] }
    fbk := s.fbk.map (fun f => { f with logged := 0 })
    spar := { s.spar with fresh := false }
    pwr := { s.pwr with power := .run, quietMs := s.pwr.quietMs + 1 }
    bat := { s.bat with
      cycle := 0, fixedDone := 0, running := none, deferStarted := false, pausing := false, pauseTaken := false
      ended := false, holdMs := if hold then s.bat.holdMs + 1 else s.bat.holdMs } }

/-- The orderly stop's commits have ended: slot 6 of this batten writes the all-off word (R406). -/
def stopEdge (s : State) : State :=
  if s.pwr.stop = 3 && stopDone s then { s with pwr := { s.pwr with allOff := true } } else s

/-- The edge of the batten whose number stands. -/
def edgeWork (s : State) : State :=
  let s := vergeBattenStart (resumeCores s)
  let s := forEach (usedPorts s) openExchange s
  let s := forEach s.owl.service serviceEdge s
  let s := sparGates { s with owl := { s.owl with service := [], bulkOpen := false } }
  let s := if phaseOf s = 0 then courseEdge s else s
  let s := histClose s
  let s := forEach (strs s) bleedEdge s
  let s := latchEdge (clearBatten s)
  let s := entryCheck s
  let s := if lastDue s then beginLast s else s
  let s := forEach (usedPorts s) pulseCharge (forEach (usedPorts s) downlink s)
  let s := forEach (strs s) keepCurrent (stopEdge s)
  let s := if ptpOn s then chooseMaster s else s
  if coresRun s then
    let s := jobRequests s
    { s with bat := { s.bat with todo := battenWork s, deferred := [] } }
  else if operating s && phaseOf s == 2 then canNotFormed s
  else s

/-- The batten number of the next edge: the number that stands for the first edge, else one more (R25, R26). -/
def advance (s : State) : State :=
  if s.bat.first then { s with bat := { s.bat with first := false } }
  else
    let s := battenEnds s
    { s with bat := { s.bat with num := s.bat.num + 1 } }

/-- BATTEN_EDGE: a batten ends and the next begins; at a course's first edge an armed reload restarts the image instead
(R80, R82), but after the all-off word the cores halt (R406). No edge comes in Unconfigured, in Dormant and Ship, in the
thermal halt, during a warm restart, nor before the core pair's restart of a load has ended (R391). -/
def execBattenEdge (s : State) : Out :=
  if !battensRun s || s.cpr.loading then .next s
  else
    let s := advance s
    if s.pwr.offSent then .next (haltCores s)
    else if restartArmed s && (phaseOf s = 0 || s.img.benchExit) then .next (restartEdge s)
    else .next (edgeWork s)

end Sys2Proof.Machine
end

