-- ==== Sys2Proof/Machine/Debug.lean ====
section
/-! DEFINITION. The debug port (R285 to R287): halts and breakpoints of the lead core, reads, and the changes kept for the check core's
replay. -/

namespace Sys2Proof.Machine

/-- The lead core stops, both cores level at its count, with what they have done up to there (R265, R287). -/
def haltLead (s : State) (lead check : CoreTrace) (running : Fin 8) : State :=
  let (s, noted) := runCores s lead check running
  { s with cpr := { s.cpr with dbgHalted := true, recorded := s.cpr.recorded ++ noted } }

/-- A read through the debug unit answers a word; it clears nothing (R285). -/
def debugAnswer (s : State) (w : Word) : State := { s with cpr := { s.cpr with dbgOut := some w } }

/-- The word a register of the map shows to the debug unit: that of the Gable port's copy of the selected values; 0 at
an address without one. DESIGN CHOICE, log entry 70. -/
def debugWord (s : State) (a : Nat) : Word :=
  match regAt s 8 a with
  | none => 0
  | some (.wo, _) => 0
  | some (_, v) => BitVec.ofNat 32 v

/-- What an instruction other than IDCODE and BYPASS does in Bench. Where the lead core's trace or a breakpoint does not
fit, nothing happens. -/
def debugBench (s : State) (op : DebugOp) : Out :=
  let c := s.cpr
  match op with
  | .idcode => .next s
  | .bypass => .next s
  | .attach => .next { s with cpr := { c with dbgOn := true } }
  | .halt l k r => .next (if c.dbgOn && coresRun s then haltLead s l k r else s)
  | .breakpointHit l k r => .next (if c.dbgOn && coresRun s && c.breakpoints.contains l.pc then haltLead s l k r else s)
  | .resume => .next (if c.dbgHalted then
      { s with cpr := { c with dbgHalted := false, resume := true }, bat := { s.bat with ended := true } } else s)
  | .setBreakpoint a => .next { s with cpr := { c with breakpoints := a :: c.breakpoints.filter (· != a) } }
  | .clearBreakpoint a => .next { s with cpr := { c with breakpoints := c.breakpoints.filter (· != a) } }
  | .readRegister a => .next (debugAnswer { s with fresh := s.fresh + 1 } (debugWord s a.toNat))
  | .readCore i => .next (debugAnswer s (vget c.lead.regs i.val))
  | .readPc => .next (debugAnswer s c.lead.pc)
  | .readPrivate off => .next (debugAnswer s (BitVec.ofNat 32 (leNat (memGets ramBlank s.priv.lead off.toNat 4))))
  | .other code => .refused (.debugUnit code)

/-- DEBUG_INSTRUCTION: IDCODE and BYPASS are answered in every state, everything else only in Bench. Halting stops slot
work; it resumes at the first edge after the lead core runs again. Reads clear nothing. -/
def execDebugInstruction (op : DebugOp) (s : State) : Out :=
  match op with
  | .idcode => .next (debugAnswer { s with fresh := s.fresh + 1 } (Config.debugIdcode s.fresh))
  | .bypass => .next s
  | op => if inBench s then debugBench s op else .next s

/-- What a change of the debugger does outside the lead core: a write of shared memory is performed, on a register of the map
as the Gable port's write of it is (R267; DESIGN CHOICE, log entry 70). -/
def editShared (s : State) (e : DebugEdit) : State :=
  match e with
  | .memWrite a v => writeRow s .gable a.toNat v
  | .regWrite _ _ => s
  | .privWrite _ _ => s
  | .pcWrite _ => s

/-- DEBUG_CHANGE: made to the lead core, entered into its signature, and recorded with its retired count for the replay;
refused when the buffer of 256 is full (R286). -/
def execDebugChange (edit : DebugEdit) (s : State) : Out :=
  let c := s.cpr
  if inBench s && c.dbgOn && c.dbgWaiting.length < 256 then
    let (l, m) := editCore (c.lead, s.priv.lead) edit
    .next <| editShared (e := edit) { s with
      cpr := { c with
        lead := l, curL := runSigs c.curL (editEvents c.lastRan [(c.lead.retired, edit)])
        dbgWaiting := c.dbgWaiting ++ [(c.lead.retired, edit)] }
      priv := { s.priv with lead := m } }
  else .next s

end Sys2Proof.Machine
end

