-- ==== Sys2Proof/Machine/Dispatch.lean ====
section
/-! DEFINITION. What each command does to the module: one arm per constructor of `Instr`, each a direct call of
its meaning. -/

namespace Sys2Proof.Machine

/-- The effect of a command on everything but the queue. -/
def exec (i : Instr) (s : State) : Host.Outcome State Fault Refusal :=
  match i with
  | .powerOn => Sys2Proof.Machine.execPowerOn s
  | .powerOnByWake => Sys2Proof.Machine.execPowerOnByWake s
  | .startThresholdDip => Sys2Proof.Machine.execStartThresholdDip s
  | .brownOutReset => Sys2Proof.Machine.execBrownOutReset s
  | .pfailAsserted => Sys2Proof.Machine.execPfailAsserted s
  | .pfailCleared => Sys2Proof.Machine.execPfailCleared s
  | .battenEdge => Sys2Proof.Machine.execBattenEdge s
  | .exchangeCompletion => Sys2Proof.Machine.execExchangeCompletion s
  | .measFrameReceived p f => Sys2Proof.Machine.execMeasFrameReceived p f s
  | .uplinkStartExpiry p => Sys2Proof.Machine.execUplinkStartExpiry p s
  | .uplinkEndExpiry p => Sys2Proof.Machine.execUplinkEndExpiry p s
  | .bulkWindowStart => Sys2Proof.Machine.execBulkWindowStart s
  | .bulkAnswerReceived p f => Sys2Proof.Machine.execBulkAnswerReceived p f s
  | .bulkAnswerTimeout p => Sys2Proof.Machine.execBulkAnswerTimeout p s
  | .bulkWindowEnd => Sys2Proof.Machine.execBulkWindowEnd s
  | .portMissLimit p => Sys2Proof.Machine.execPortMissLimit p s
  | .syncingComplete p => Sys2Proof.Machine.execSyncingComplete p s
  | .identFailLimit p => Sys2Proof.Machine.execIdentFailLimit p s
  | .provingComplete p => Sys2Proof.Machine.execProvingComplete p s
  | .serviceOut who k => Sys2Proof.Machine.execServiceOut who k s
  | .serviceIn who k => Sys2Proof.Machine.execServiceIn who k s
  | .thatchUpdate => Sys2Proof.Machine.execThatchUpdate s
  | .deviationSignatureLimit p => Sys2Proof.Machine.execDeviationSignatureLimit p s
  | .satelliteCheckFailLimit p => Sys2Proof.Machine.execSatelliteCheckFailLimit p s
  | .stringCheckFailLimit k => Sys2Proof.Machine.execStringCheckFailLimit k s
  | .blankingFailLimit p => Sys2Proof.Machine.execBlankingFailLimit p s
  | .estimatorRunComplete estCycles => Sys2Proof.Machine.execEstimatorRunComplete estCycles s
  | .referenceAgeExpiry cell => Sys2Proof.Machine.execReferenceAgeExpiry cell s
  | .quietTimeReached k => Sys2Proof.Machine.execQuietTimeReached k s
  | .tcoreExpiry cell => Sys2Proof.Machine.execTcoreExpiry cell s
  | .ridgeEvaluation => Sys2Proof.Machine.execRidgeEvaluation s
  | .close n seq strings => Sys2Proof.Machine.execClose n seq strings s
  | .orderOpen n seq strings => Sys2Proof.Machine.execOrderOpen n seq strings s
  | .limit n seq strings discharge value => Sys2Proof.Machine.execLimit n seq strings discharge value s
  | .limitClear n seq strings discharge => Sys2Proof.Machine.execLimitClear n seq strings discharge s
  | .rampAck n seq strings => Sys2Proof.Machine.execRampAck n seq strings s
  | .lockoutAck n seq strings => Sys2Proof.Machine.execLockoutAck n seq strings s
  | .wearOverride n seq strings => Sys2Proof.Machine.execWearOverride n seq strings s
  | .mnSettleExpiry k => Sys2Proof.Machine.execMnSettleExpiry k s
  | .precharge95Reached k => Sys2Proof.Machine.execPrecharge95Reached k s
  | .prechargeSlowExpiry k => Sys2Proof.Machine.execPrechargeSlowExpiry k s
  | .joinTestPass k => Sys2Proof.Machine.execJoinTestPass k s
  | .joinTimeout k => Sys2Proof.Machine.execJoinTimeout k s
  | .overlapExpiry k => Sys2Proof.Machine.execOverlapExpiry k s
  | .rampEnd k => Sys2Proof.Machine.execRampEnd k s
  | .rampUnacknowledged k => Sys2Proof.Machine.execRampUnacknowledged k s
  | .sequenceExpiry k => Sys2Proof.Machine.execSequenceExpiry k s
  | .persistenceReached k => Sys2Proof.Machine.execPersistenceReached k s
  | .standstillCurrent k => Sys2Proof.Machine.execStandstillCurrent k s
  | .standstillClearCourse k => Sys2Proof.Machine.execStandstillClearCourse k s
  | .weld k => Sys2Proof.Machine.execWeld k s
  | .prechargeCooldownExpiry k => Sys2Proof.Machine.execPrechargeCooldownExpiry k s
  | .lockoutResetWindowExpiry => Sys2Proof.Machine.execLockoutResetWindowExpiry s
  | .wearOverrideExpiry k => Sys2Proof.Machine.execWearOverrideExpiry k s
  | .outputIntentWrite => Sys2Proof.Machine.execOutputIntentWrite s
  | .limitPublication => Sys2Proof.Machine.execLimitPublication s
  | .checkpointA obs => Sys2Proof.Machine.execCheckpointA obs s
  | .closingCheckpoint cycle obs => Sys2Proof.Machine.execClosingCheckpoint cycle obs s
  | .slotEntryStart cycle adc => Sys2Proof.Machine.execSlotEntryStart cycle adc s
  | .slotWcetReached => Sys2Proof.Machine.execSlotWcetReached s
  | .fixedSlotDeadlineMiss slot => Sys2Proof.Machine.execFixedSlotDeadlineMiss slot s
  | .ceilingReached => Sys2Proof.Machine.execCeilingReached s
  | .throttlePauseEnd => Sys2Proof.Machine.execThrottlePauseEnd s
  | .dozeWake => Sys2Proof.Machine.execDozeWake s
  | .ptpSyncReceived m => Sys2Proof.Machine.execPtpSyncReceived m s
  | .ptpAnnounceReceived a => Sys2Proof.Machine.execPtpAnnounceReceived a s
  | .syncLossTimeout => Sys2Proof.Machine.execSyncLossTimeout s
  | .pdelayTimer => Sys2Proof.Machine.execPdelayTimer s
  | .pdelayMessageReceived port m => Sys2Proof.Machine.execPdelayMessageReceived port m s
  | .erase who targetB => Sys2Proof.Machine.execErase who targetB s
  | .eraseComplete => Sys2Proof.Machine.execEraseComplete s
  | .imgDataWrite who data => Sys2Proof.Machine.execImgDataWrite who data s
  | .verify who => Sys2Proof.Machine.execVerify who s
  | .verifyComplete => Sys2Proof.Machine.execVerifyComplete s
  | .commit who => Sys2Proof.Machine.execCommit who s
  | .commitWordProgrammed => Sys2Proof.Machine.execCommitWordProgrammed s
  | .reload who => Sys2Proof.Machine.execReload who s
  | .abandon who => Sys2Proof.Machine.execAbandon who s
  | .warmRestart => Sys2Proof.Machine.execWarmRestart s
  | .sealopenChange asserted => Sys2Proof.Machine.execSealopenChange asserted s
  | .enterBench who => Sys2Proof.Machine.execEnterBench who s
  | .leaveBench who => Sys2Proof.Machine.execLeaveBench who s
  | .sparStartEnd => Sys2Proof.Machine.execSparStartEnd s
  | .sparConfiguration => Sys2Proof.Machine.execSparConfiguration s
  | .pairTestPulse t => Sys2Proof.Machine.execPairTestPulse t s
  | .contactFilterChange ch closed => Sys2Proof.Machine.execContactFilterChange ch closed s
  | .pairFault pair => Sys2Proof.Machine.execPairFault pair s
  | .twoHandSkewExpiry => Sys2Proof.Machine.execTwoHandSkewExpiry s
  | .handReleaseHeld => Sys2Proof.Machine.execHandReleaseHeld s
  | .toneSilence p => Sys2Proof.Machine.execToneSilence p s
  | .tonePresent p => Sys2Proof.Machine.execTonePresent p s
  | .laneSilence l => Sys2Proof.Machine.execLaneSilence l s
  | .lanePresent l => Sys2Proof.Machine.execLanePresent l s
  | .gateAgainstCommand g => Sys2Proof.Machine.execGateAgainstCommand g s
  | .sparSupplyTrip => Sys2Proof.Machine.execSparSupplyTrip s
  | .sparReset => Sys2Proof.Machine.execSparReset s
  | .sparClockFault => Sys2Proof.Machine.execSparClockFault s
  | .sparClockStop => Sys2Proof.Machine.execSparClockStop s
  | .sparClockReturn => Sys2Proof.Machine.execSparClockReturn s
  | .statusWordPresent => Sys2Proof.Machine.execStatusWordPresent s
  | .intentWordAccept link => Sys2Proof.Machine.execIntentWordAccept link s
  | .intentGapTimeout => Sys2Proof.Machine.execIntentGapTimeout s
  | .coreResetSignal => Sys2Proof.Machine.execCoreResetSignal s
  | .holdWindowExpiry => Sys2Proof.Machine.execHoldWindowExpiry s
  | .pullInEnd ch => Sys2Proof.Machine.execPullInEnd ch s
  | .channelShort ch => Sys2Proof.Machine.execChannelShort ch s
  | .channelOverTemperature ch => Sys2Proof.Machine.execChannelOverTemperature ch s
  | .thermalLatchRelease ch => Sys2Proof.Machine.execThermalLatchRelease ch s
  | .openLoadOnChange ch found => Sys2Proof.Machine.execOpenLoadOnChange ch found s
  | .offStateTest aboveTest nearSupply => Sys2Proof.Machine.execOffStateTest aboveTest nearSupply s
  | .retryDue ch => Sys2Proof.Machine.execRetryDue ch s
  | .attemptProven ch => Sys2Proof.Machine.execAttemptProven ch s
  | .clampEvent ch => Sys2Proof.Machine.execClampEvent ch s
  | .vsupLow => Sys2Proof.Machine.execVsupLow s
  | .vsupRestored => Sys2Proof.Machine.execVsupRestored s
  | .eavLatchClear who mask => Sys2Proof.Machine.execEavLatchClear who mask s
  | .eavAuxcmdWrite who mask => Sys2Proof.Machine.execEavAuxcmdWrite who mask s
  | .outputGateCompare part lead check => Sys2Proof.Machine.execOutputGateCompare part lead check s
  | .outputGateTimeout part => Sys2Proof.Machine.execOutputGateTimeout part s
  | .agreementRead input lead check => Sys2Proof.Machine.execAgreementRead input lead check s
  | .watchdog cause => Sys2Proof.Machine.execWatchdog cause s
  | .corePairRestartComplete test => Sys2Proof.Machine.execCorePairRestartComplete test s
  | .split who job duration => Sys2Proof.Machine.execSplit who job duration s
  | .rejoin who => Sys2Proof.Machine.execRejoin who s
  | .splitDurationExpiry => Sys2Proof.Machine.execSplitDurationExpiry s
  | .splitJobComplete ok => Sys2Proof.Machine.execSplitJobComplete ok s
  | .debugInstruction op => Sys2Proof.Machine.execDebugInstruction op s
  | .debugChange edit => Sys2Proof.Machine.execDebugChange edit s
  | .sessionOpen f => Sys2Proof.Machine.execSessionOpen f s
  | .sessionEnd f => Sys2Proof.Machine.execSessionEnd f s
  | .readRequest f => Sys2Proof.Machine.execReadRequest f s
  | .writeRequest f => Sys2Proof.Machine.execWriteRequest f s
  | .eventAck f => Sys2Proof.Machine.execEventAck f s
  | .nopRequest f => Sys2Proof.Machine.execNopRequest f s
  | .eventResendTimeout n => Sys2Proof.Machine.execEventResendTimeout n s
  | .sessionIdleTimeout n => Sys2Proof.Machine.execSessionIdleTimeout n s
  | .gableStatus => Sys2Proof.Machine.execGableStatus s
  | .gableWrite w => Sys2Proof.Machine.execGableWrite w s
  | .gableRead octetsClocked => Sys2Proof.Machine.execGableRead octetsClocked s
  | .arpRequest port target src => Sys2Proof.Machine.execArpRequest port target src s
  | .icmpEchoRequest port target src payload => Sys2Proof.Machine.execIcmpEchoRequest port target src payload s
  | .linkPoll a b => Sys2Proof.Machine.execLinkPoll a b s
  | .prpSupervisionTimer => Sys2Proof.Machine.execPrpSupervisionTimer s
  | .prpSingleLanTimeout mac => Sys2Proof.Machine.execPrpSingleLanTimeout mac s
  | .gooseFrameReceived g => Sys2Proof.Machine.execGooseFrameReceived g s
  | .gooseSubscriptionLost k => Sys2Proof.Machine.execGooseSubscriptionLost k s
  | .gooseRepeat k => Sys2Proof.Machine.execGooseRepeat k s
  | .canTransmitTime c => Sys2Proof.Machine.execCanTransmitTime c s
  | .canFrameComplete c e => Sys2Proof.Machine.execCanFrameComplete c e s
  | .canDeadline c => Sys2Proof.Machine.execCanDeadline c s
  | .canFrameReceived c f => Sys2Proof.Machine.execCanFrameReceived c f s
  | .canAckError n => Sys2Proof.Machine.execCanAckError n s
  | .canBusOffRecovery c => Sys2Proof.Machine.execCanBusOffRecovery c s
  | .canIntegration c => Sys2Proof.Machine.execCanIntegration c s
  | .vergeFrameReceived f => Sys2Proof.Machine.execVergeFrameReceived f s
  | .vergeFrameDeadline k => Sys2Proof.Machine.execVergeFrameDeadline k s
  | .vergePowerUp delay => Sys2Proof.Machine.execVergePowerUp delay s
  | .hvsClockFault => Sys2Proof.Machine.execHvsClockFault s
  | .comparatorActive l => Sys2Proof.Machine.execComparatorActive l s
  | .comparatorRelease l => Sys2Proof.Machine.execComparatorRelease l s
  | .insulationCycleEnd c => Sys2Proof.Machine.execInsulationCycleEnd c s
  | .feedbackLineChange ch ls => Sys2Proof.Machine.execFeedbackLineChange ch ls s
  | .feedbackStandstill ch => Sys2Proof.Machine.execFeedbackStandstill ch s
  | .ledgerCommitComplete readbackOk => Sys2Proof.Machine.execLedgerCommitComplete readbackOk s
  | .resetPort who p => Sys2Proof.Machine.execResetPort who p s
  | .resetContactor who k role => Sys2Proof.Machine.execResetContactor who k role s
  | .pageTransferComplete => Sys2Proof.Machine.execPageTransferComplete s
  | .pageQueueEntryExpiry => Sys2Proof.Machine.execPageQueueEntryExpiry s
  | .segmentFreeze => Sys2Proof.Machine.execSegmentFreeze s
  | .pgrFclearWrite who mask => Sys2Proof.Machine.execPgrFclearWrite who mask s
  | .estSelWrite who cell => Sys2Proof.Machine.execEstSelWrite who cell s
  | .estReinitWrite who cell whole => Sys2Proof.Machine.execEstReinitWrite who cell whole s
  | .estZselWrite who cell index => Sys2Proof.Machine.execEstZselWrite who cell index s
  | .ledCselWrite who cell => Sys2Proof.Machine.execLedCselWrite who cell s
  | .hstEvtmaskWrite who n w value => Sys2Proof.Machine.execHstEvtmaskWrite who n w value s
  | .pwrWakeatWrite who value => Sys2Proof.Machine.execPwrWakeatWrite who value s
  | .cdcOvrClear who mask => Sys2Proof.Machine.execCdcOvrClear who mask s
  | .batCountLoRead who => Sys2Proof.Machine.execBatCountLoRead who s
  | .gtrEntryRead who index => Sys2Proof.Machine.execGtrEntryRead who index s
  | .readClearRegister who addr => Sys2Proof.Machine.execReadClearRegister who addr s
  | .registerWrite who addr value => Sys2Proof.Machine.execRegisterWrite who addr value s
  | .ship who => Sys2Proof.Machine.execShip who s
  | .shipEntry => Sys2Proof.Machine.execShipEntry s
  | .softReset who => Sys2Proof.Machine.execSoftReset who s
  | .dormantEntry => Sys2Proof.Machine.execDormantEntry s
  | .dormantEntryAbandon => Sys2Proof.Machine.execDormantEntryAbandon s
  | .wakeSource src => Sys2Proof.Machine.execWakeSource src s
  | .aonWakeTimer => Sys2Proof.Machine.execAonWakeTimer s
  | .wakeComplete elapsed => Sys2Proof.Machine.execWakeComplete elapsed s
  | .wakeRoundEnd => Sys2Proof.Machine.execWakeRoundEnd s
  | .thermalStopOpening k => Sys2Proof.Machine.execThermalStopOpening k s
  | .thermalHalt sensors => Sys2Proof.Machine.execThermalHalt sensors s
  | .thermalHaltExit sensors => Sys2Proof.Machine.execThermalHaltExit sensors s
  | .crossingWakeRequest k => Sys2Proof.Machine.execCrossingWakeRequest k s
  | .vholdOkChange ok => Sys2Proof.Machine.execVholdOkChange ok s
  | .sparResetRelease => Sys2Proof.Machine.execSparResetRelease s
  | .vergePowerLoss => Sys2Proof.Machine.execVergePowerLoss s
  | .canReceiveError c e => Sys2Proof.Machine.execCanReceiveError c e s
  | .prpSupervisionFrameReceived lanB src => Sys2Proof.Machine.execPrpSupervisionFrameReceived lanB src s

end Sys2Proof.Machine
end

