-- ==== Sys2Proof/Safety.lean ====
section
/-! DEFINITION. The terms the statements are made in: the parts of a state, what a command leaves alone, memories in
canonical form, and Spar as a trip leaves it. -/

namespace Sys2Proof

/-- The parts a state is made of. -/
inductive Part where
  | pending | fresh | lands | nor | mram | psram | img | cfg | bat | owl | tha | est | led | pgr | rdg | spar | cpr | priv
  | eav | hst | can | vrg | fbk | pwr | cdc | gtr
deriving DecidableEq, Repr

/-- A part is the same in two states. -/
def Part.same (s t : Machine.State) : Part → Prop
  | .pending => t.pending = s.pending
  | .fresh => t.fresh = s.fresh
  | .lands => t.lands = s.lands
  | .nor => t.nor = s.nor
  | .mram => t.mram = s.mram
  | .psram => t.psram = s.psram
  | .img => t.img = s.img
  | .cfg => t.cfg = s.cfg
  | .bat => t.bat = s.bat
  | .owl => t.owl = s.owl
  | .tha => t.tha = s.tha
  | .est => t.est = s.est
  | .led => t.led = s.led
  | .pgr => t.pgr = s.pgr
  | .rdg => t.rdg = s.rdg
  | .spar => t.spar = s.spar
  | .cpr => t.cpr = s.cpr
  | .priv => t.priv = s.priv
  | .eav => t.eav = s.eav
  | .hst => t.hst = s.hst
  | .can => t.can = s.can
  | .vrg => t.vrg = s.vrg
  | .fbk => t.fbk = s.fbk
  | .pwr => t.pwr = s.pwr
  | .cdc => t.cdc = s.cdc
  | .gtr => t.gtr = s.gtr

/-- Nothing of a state changes outside the named parts. -/
def only (us : List Part) (s t : Machine.State) : Prop := ∀ p : Part, p ∈ us ∨ p.same s t

/-- The command runs to its end at `s`: it answers a next state, which differs from `s` in the named parts alone and is as
`P` says. -/
def completes (c : Instr) (s : Machine.State) (us : List Part) (P : Machine.State → Prop) : Prop :=
  ∃ t, Machine.exec c s = .next t ∧ only us s t ∧ P t

/-- No monitor port but `p` changes. -/
def portsBut (p : Nat) (s t : Machine.State) : Prop := ∀ r, r ≠ p → Machine.portOf t r = Machine.portOf s r

/-- Of the Eaves part no more than the record of channel `n` changes. -/
def chanOnly (n : Nat) (s t : Machine.State) : Prop :=
  t.eav = { s.eav with chans := t.eav.chans } ∧ ∀ m, m ≠ n → Machine.chanOf t m = Machine.chanOf s m

/-- What a checkpoint finds (R272): the differences recorded since the last one, those of the signatures run over the
cores' events and of what the two cores show, and the partition faults and load-queue mismatches of their events. -/
def found (s : Machine.State) (o : CheckObs) : List (Nat × Nat) := (Machine.barrier s o).2

/-- A core's restart journal has overflowed by a checkpoint (R276). -/
def overflowed (s : Machine.State) (o : CheckObs) : Bool :=
  (Machine.barrier s o).1.cpr.lead.full || (Machine.barrier s o).1.cpr.check.full

/-- The core pair as the reaction to a protective mismatch or a WATCHDOG leaves it (R226, R236, R237, R275): in reset, every
string in RUN in Standstill with cause CORE MISMATCH, a hold window running unless the channels are off or the die does not
run. -/
def reacted (s t : Machine.State) : Prop :=
  t.cpr.run = .inReset 0 ∧ t.cpr.protective = satAdd 16 s.cpr.protective 1 ∧ t.cpr.coupling = .joined
    ∧ t.cpr.resume = false ∧ t.bat.todo = [] ∧ t.owl.bulkOpen = false
    ∧ (s.eav.down = false → Machine.eavRuns s = true → t.eav.hold = true)
    ∧ ∀ k : Fin 4, Machine.operating s = true → k.val < Machine.nStr s → (Machine.strOf s k).st = .closed →
        (Machine.strOf s k).phase = .run →
      (Machine.strOf t k).st = .standstill ∧ (Machine.strOf t k).phase = .hold ∧ (Machine.strOf t k).cause = .coreMismatch

/-- The message a writer is sent (R314, R315, R332): its kind, SEQ, STATUS, BATTEN and payload, under PRP with the
trailer's next sequence number. -/
def message (s : Machine.State) (who : Who) (kind seq status batten : Nat) (payload : List Byte) : Machine.HostMsg :=
  { Machine.mkMsg s who kind seq status payload with
    batten := batten, trailer := (Machine.takeTrailer s).1, mac := Machine.peerMac s who }

/-- A writer's messages leave over a network that sends (R308, R386). -/
def overNet (s : Machine.State) (who : Who) : Prop := Machine.viaOf s who ≠ .gable ∧ s.pwr.last = false

/-- A network port hears: the networks receive and the port is not held in reset (R76, R330, R407). -/
def hears (s : Machine.State) (p : NetPort) : Prop := Machine.netHears s = true ∧ Machine.portUsed s p = true

/-- The rows by which one of Ridge's counters ends for string `k`. -/
def ridgeRows (k : Fin 4) : List Instr :=
  [.mnSettleExpiry k, .precharge95Reached k, .prechargeSlowExpiry k, .joinTestPass k, .joinTimeout k, .overlapExpiry k,
    .rampEnd k, .rampUnacknowledged k, .sequenceExpiry k, .persistenceReached k, .standstillCurrent k,
    .standstillClearCourse k, .weld k, .prechargeCooldownExpiry k, .wearOverrideExpiry k, .thermalStopOpening k]

/-- What such a row may change. -/
def ridgeParts : List Part := [.fresh, .nor, .img, .led, .pgr, .rdg, .cpr, .pwr, .gtr]

/-- No string's record but `k`'s changes, and the coils commanded are those of the strings' phases. -/
def stringsBut (k : Nat) (s t : Machine.State) : Prop :=
  (∀ j, j ≠ k → Machine.strOf t j = Machine.strOf s j) ∧ t.rdg.coils = Machine.coilMask t

/-- The memories stand in their canonical form: addresses strictly rising, no cell equal to what an unlisted
address reads as. -/
def memSafe (s : Machine.State) : Prop :=
  Machine.Mem.wf Machine.norBlank s.nor = true ∧ Machine.Mem.wf Machine.ramBlank s.mram = true
    ∧ Machine.Mem.wf Machine.ramBlank s.psram = true
    ∧ Machine.Mem.wf Machine.ramBlank s.priv.lead = true ∧ Machine.Mem.wf Machine.ramBlank s.priv.check = true

/-- Spar as a trip from ARMED or PROVING in batten `b` leaves it (R243, R244, R255, R256): the cause and what stands in
TRIPPED in the latch, the proofs dropped, every gate off; a switch that conducts against its command is still sensed. -/
def sparTripped (b n : Nat) (sp : Machine.Spar) : Machine.Spar :=
  { sp with
    mode := .tripped, causes := setBit 0 n true ||| Machine.standing { sp with mode := .tripped }, released := false, latches := (sp.latches + 1) % 65536
    tripAt := some b, latchFirst := n, doorProof := 0, handProof := false, gateCmd := 0, gateDead := 0, gateOn := sp.gateBad }

/-- Spar as a further cause leaves it when TRIPPED (R243, R255): it joins the latch, as what stands
does, and clears RELEASED. -/
def sparJoined (n : Nat) (sp : Machine.Spar) : Machine.Spar :=
  { sp with
    causes := sp.causes ||| setBit 0 n true ||| Machine.standing sp, released := false
    gateCmd := 0, gateDead := 0, gateOn := sp.gateBad }

/-- Spar after cause `n` in batten `b`, in a mode that latches. -/
def sparRaised (b n : Nat) (sp : Machine.Spar) : Machine.Spar :=
  if sp.mode = .tripped then sparJoined n sp else sparTripped b n sp

/-- A gate commanded on meets every condition of R244. -/
def gatesSafe (s : Machine.State) : Prop :=
  ∀ c, s.spar.gateCmd.getLsbD c = true → Machine.gateHolds s.spar c = true

/-- What a start may change: all but the queue, the lands and the NOR. -/
def startParts : List Part :=
  [.fresh, .mram, .psram, .img, .cfg, .bat, .owl, .tha, .est, .led, .pgr, .rdg, .spar, .cpr, .priv, .eav, .hst, .can,
    .vrg, .fbk, .pwr, .cdc, .gtr]

/-- The module as a start of a kind leaves it (R74, R279, R398, R400): in Run at batten 0 with its cores joined, under an image
in their restart, no request, order or staged image left, every string Open, the used ports in SYNCING. -/
def started (kind : Nat) (t : Machine.State) : Prop :=
  t.pwr.startKind = kind ∧ t.pwr.power = .run ∧ t.bat.num = 0 ∧ t.img.stage = .idle ∧ t.img.owner = none
    ∧ t.cpr.run = (if t.img.module = .operating then .inReset 0 else .running) ∧ t.cpr.coupling = .joined ∧ t.hst.queue = [] ∧ t.rdg.latched = []
    ∧ (∀ k, Machine.strState t k = .opened)
    ∧ ∀ p, p < 32 → (Machine.portOf t p).st = (if p ∈ Machine.usedPorts t then .syncing else .unused)

/-- The image a cold start loads (R73): of two valid ones that of the higher sequence, slot A of equals; one valid one;
none, and the module is in Unconfigured. -/
def coldImage (s t : Machine.State) : Prop :=
  match (Machine.checkSlot s false).image, (Machine.checkSlot s true).image with
  | some x, some y =>
    t.img.module = .operating ∧ t.img.activeB = decide (x.sequence < y.sequence)
      ∧ t.cfg = (if x.sequence < y.sequence then y else x)
  | some x, none => t.img.module = .operating ∧ t.img.activeB = false ∧ t.cfg = x
  | none, some y => t.img.module = .operating ∧ t.img.activeB = true ∧ t.cfg = y
  | none, none => t.img.module = .unconfigured ∧ t.cfg = {}

/-- The image a warm restart loads (R80, R83, R422): the slot to read, else the slot active before, else none; none in
Unconfigured. -/
def warmImage (s t : Machine.State) : Prop :=
  let was := s.img.activeB
  let target := if s.img.stage == .reloadPending && s.img.byCommit then s.img.targetB else was
  if Machine.unconfigured s = true then t.img.module = .unconfigured
  else match (Machine.checkSlot s target).image, (Machine.checkSlot s was).image with
  | some x, _ => t.img.module = .operating ∧ t.img.activeB = target ∧ t.cfg = x
  | none, some y => t.img.module = .operating ∧ t.img.activeB = was ∧ t.cfg = y
  | none, none => t.img.module = .unconfigured ∧ t.cfg = {}

end Sys2Proof
end

