-- ==== Sys2Proof/Certificates/Slice0/Obligations.lean ====
section
/-! DEFINITION. The statements for the provers. -/

section

open Sys2Proof Sys2Proof.Machine

/-! ## The order of commands, memories, reset -/

/-- A step takes the command at the front of the queue and runs it on the state with the rest of the queue: what exec
answers is what step answers. With no command waiting the module idles (the model's choice, log entry 1). -/
def Obligations.StepRunsFrontCommand : Prop :=
  (∀ (c : Instr) (rest : List Instr) (s : State), s.pending = c :: rest → step s = exec c { s with pending := rest })
  ∧ (∀ s : State, s.pending = [] → step s = .next s)

/-- No command touches the queue of the commands that wait: what is left of it is the step's own doing. -/
def Obligations.CommandsLeaveQueue : Prop :=
  ∀ (c : Instr) (s t : State), exec c s = .next t → t.pending = s.pending

/-- Every step keeps the memories in their canonical form: NOR, MRAM, PSRAM and the cores' private ones. -/
def Obligations.StepKeepsMemories : Prop := ∀ s t : State, memSafe s → step s = .next t → memSafe t

/-- Before any start (log entry 2) the memories are canonical and nothing is written in them, a byte of the NOR
reads as erased (R47), and no command waits. The module is then in Unconfigured, every gate and every Eaves output
off, no event logged, every string Open and every port unused (R76, R110, R244, R400). -/
def Obligations.ResetState : Prop :=
  (memSafe State.reset ∧ (∀ a, memGet norBlank State.reset.nor a = 0xFF) ∧ State.reset.mram = [] ∧ State.reset.psram = []
     ∧ State.reset.priv.lead = [] ∧ State.reset.priv.check = [] ∧ State.reset.pending = [])
  ∧ (State.reset.img.module = .unconfigured ∧ gatesSafe State.reset ∧ State.reset.spar.gateCmd = 0 ∧ State.reset.eav.on = 0
       ∧ State.reset.gtr.total = 0 ∧ (∀ k, strState State.reset k = .opened) ∧ (∀ p, (portOf State.reset p).st = .unused))

/-! ## Monitor ports -/

/-- MEAS_FRAME_RECEIVED (R98): while the port's exchange is open, a frame with an error, one with another batten's number,
and one sampled late are refused with their cause and counted; a frame that passes is the batten's measurement. A
frame at any other time changes nothing. UPLINK_START_EXPIRY and UPLINK_END_EXPIRY (R91): an exchange still open at
70.0 µs is missed with cause NO RESPONSE, one still open at 125.0 µs with cause LATE; either counts. An exchange
already decided is left alone. -/
def Obligations.MeasurementExchange : Prop :=
  (∀ (p : Fin 32) (f : LineFrame) (s : State),
     ((portActive s p = false ∨ (portOf s p).exch ≠ .pending) → exec (.measFrameReceived p f) s = .next s)
     ∧ (portActive s p = true → (portOf s p).exch = .pending →
       (readMeas s p f = none → exec (.measFrameReceived p f) s = .next (modPort s p (fun q =>
         { q with exch := .frameError, meas := none, errFrames := satAdd 16 q.errFrames 1 })))
       ∧ ∀ rep m, readMeas s p f = some (rep, m) →
         (m.batten ≠ s.bat.num % 65536 → exec (.measFrameReceived p f) s = .next (modPort s p (fun q =>
           { q with exch := .stamp, meas := none, errFrames := satAdd 16 q.errFrames 1 })))
         ∧ (m.batten = s.bat.num % 65536 → sampleLate m = true →
           exec (.measFrameReceived p f) s = .next (modPort s p (fun q =>
             { q with exch := .lateSample, meas := none, errFrames := satAdd 16 q.errFrames 1 })))
         ∧ (m.batten = s.bat.num % 65536 → sampleLate m = false →
           exec (.measFrameReceived p f) s = .next (modPort s p (fun q => { q with exch := .accepted, meas := some m })))))
  ∧ (∀ (p : Fin 32) (s : State),
       ((portActive s p = true ∧ (portOf s p).exch = .pending) →
         exec (.uplinkStartExpiry p) s = .next (modPort s p (fun q =>
           { q with exch := .noResponse, meas := none, errMisses := satAdd 16 q.errMisses 1 }))
         ∧ exec (.uplinkEndExpiry p) s = .next (modPort s p (fun q =>
           { q with exch := .late, meas := none, errMisses := satAdd 16 q.errMisses 1 })))
       ∧ (¬ (portActive s p = true ∧ (portOf s p).exch = .pending) →
         exec (.uplinkStartExpiry p) s = .next s ∧ exec (.uplinkEndExpiry p) s = .next s))

/-- PORT_MISS_LIMIT, SYNCING_COMPLETE, IDENT_FAIL_LIMIT and PROVING_COMPLETE (R103, R110): each moves the port where its
count has been reached, and changes nothing where it has not. -/
def Obligations.PortRoad : Prop :=
  ∀ (p : Fin 32) (s : State),
    let q := portOf s p
    ((10 ≤ q.missed ∧ (q.st = .syncing ∨ q.st = .identifying ∨ q.st = .proving ∨ q.st = .inService)) →
      completes (.portMissLimit p) s [.fresh, .owl, .tha, .gtr] (fun t =>
        (portOf t p).st = .outOfService ∧ (portOf t p).cause = .link ∧ (portOf t p).bulk = [] ∧ portsBut p s t
        ∧ ∀ c ∈ cellsOfPort s p, c < 512 → flagOf t c 0 = true))
    ∧ ((q.missed < 10 ∨ q.st = .unused ∨ q.st = .outOfService) → exec (.portMissLimit p) s = .next s)
    ∧ ((q.st = .syncing ∧ 4 ≤ q.accRun ∧ s.spar.toneMask.getLsbD p = false) →
      completes (.syncingComplete p) s [.fresh, .owl, .tha, .gtr] (fun t =>
        (portOf t p).st = .identifying ∧ (portOf t p).identFails = 0 ∧ portsBut p s t))
    ∧ ((q.st ≠ .syncing ∨ q.accRun < 4 ∨ s.spar.toneMask.getLsbD p = true) →
      exec (.syncingComplete p) s = .next s)
    ∧ ((q.st = .identifying ∧ 3 ≤ q.identFails) →
      completes (.identFailLimit p) s [.fresh, .owl, .tha, .spar, .gtr] (fun t =>
        (portOf t p).st = .syncing ∧ (portOf t p).accRun = 0 ∧ (portOf t p).identFails = 0 ∧ portsBut p s t))
    ∧ ((q.st ≠ .identifying ∨ q.identFails < 3) → exec (.identFailLimit p) s = .next s)
    ∧ ((q.st = .proving ∧ 3 ≤ q.clean) →
      completes (.provingComplete p) s [.fresh, .owl, .tha, .gtr] (fun t =>
        (portOf t p).st = .inService ∧ portsBut p s t ∧ ∀ c ∈ cellsOfPort s p, c < 512 → flagOf t c 7 = true))
    ∧ ((q.st ≠ .proving ∨ q.clean < 3) → exec (.provingComplete p) s = .next s)

/-- EXCHANGE_COMPLETION (R91, R102): it ends the exchange slots of a batten, once; a port that is not polled keeps what it
holds; with the cores running an exchange still open ends as LATE and its measurement is asked for again in the bulk
window. BULK_WINDOW_START and BULK_WINDOW_END (R91, R92): the window opens, and every polled port that has work sends
its first request, but for settings that wait for the next batten's window (R104); at its end it is closed, no request
is in flight, and no repeat waits. Where no batten runs (in Unconfigured, Dormant and Ship, a halt and a restart) no
window opens. -/
def Obligations.ExchangeAndBulkWindow : Prop :=
  (∀ s : State, (fixedRuns s = false ∨ 3 < s.bat.fixedDone) → exec .exchangeCompletion s = .next s)
  ∧ (∀ s : State, fixedRuns s = true → s.bat.fixedDone ≤ 3 →
     completes .exchangeCompletion s [.fresh, .bat, .owl, .tha, .spar, .gtr] (fun t =>
     t.bat = { s.bat with fixedDone := 4 }
     ∧ (∀ p, portActive s p = false → portOf t p = portOf s p)
     ∧ (coresRun s = true → ∀ p, p < 32 → portActive s p = true → (portOf s p).exch = .pending →
       (portOf t p).exch = .late ∧ (portOf t p).meas = none ∧ (portOf t p).repeats = 0
       ∧ .repeatMeas ∈ (portOf t p).bulk ∧ (portOf t p).errMisses = satAdd 16 (portOf s p).errMisses 1)))
  ∧ (∀ s : State,
       (battensRun s = false → exec .bulkWindowStart s = .next s)
       ∧ (battensRun s = true → completes .bulkWindowStart s [.owl] (fun t =>
           t.owl.bulkOpen = true ∧ (∀ p, portActive s p = false → portOf t p = portOf s p)
           ∧ (coresRun s = true → ∀ p, p < 32 → portActive s p = true →
             (portOf t p).inFlight.isSome = true
             ∨ ∀ b ∈ (portOf t p).bulk, bulkRank b = 3 ∧ s.bat.num < (portOf t p).writeFrom)))
       ∧ completes .bulkWindowEnd s [.fresh, .owl, .tha, .gtr] (fun t =>
           t.owl.bulkOpen = false
           ∧ ∀ p, p < 32 → (portOf t p).inFlight = none ∧ .repeatMeas ∉ (portOf t p).bulk))

/-- BULK_ANSWER_RECEIVED and BULK_ANSWER_TIMEOUT (R92, R94, R99, R102, R116, R236): outside the window, and while the gate
still holds the request, nothing changes; in a core-pair reset the request is given up; a first repeat that goes
unanswered is made once more; an identity that arrives is kept; an answer of another length than its selector's counts
as a frame error. -/
def Obligations.BulkAnswers : Prop :=
  ∀ (p : Fin 32) (f : LineFrame) (s : State),
    ((s.owl.bulkOpen = false ∨ (portOf s p).bulkGate = true) →
      exec (.bulkAnswerReceived p f) s = .next s ∧ exec (.bulkAnswerTimeout p) s = .next s)
    ∧ (s.owl.bulkOpen = true → (portOf s p).bulkGate = false → coresRun s = false →
      exec (.bulkAnswerReceived p f) s = .next (modPort s p (fun q => { q with inFlight := none }))
      ∧ exec (.bulkAnswerTimeout p) s = .next (modPort s p (fun q => { q with inFlight := none })))
    ∧ (s.owl.bulkOpen = true → (portOf s p).bulkGate = false → coresRun s = true →
      completes (.bulkAnswerReceived p f) s [.fresh, .psram, .owl, .tha, .est, .led, .pgr, .spar, .cpr, .gtr] (fun t =>
        (∀ pl, (portOf s p).inFlight = some .ident → bulkPayload (portRec s p).kind f 1 = some pl →
          (portOf t p).id = some (identOf pl))
        ∧ ((portOf s p).inFlight = some .ident → uplinkGood (portRec s p).kind f = false →
          (portOf t p).errFrames = satAdd 16 (portOf s p).errFrames 1))
      ∧ completes (.bulkAnswerTimeout p) s [.fresh, .owl, .tha, .spar, .gtr] (fun t =>
        portsBut p s t
        ∧ ((portOf s p).inFlight = some .repeatMeas → (portOf s p).repeats = 0 → (portOf s p).bulk = [] →
            portActive s p = true →
          (portOf t p).inFlight = some .repeatMeas ∧ (portOf t p).repeats = 1 ∧ (portOf t p).bulk = [])))

/-! ## Cells, estimator, image and stage -/

/-- SATELLITE_CHECK_FAIL_LIMIT and STRING_CHECK_FAIL_LIMIT (R129): ten failures in a row ask for an open-wire test; a
hundred put CHAIN_FAULT on every cell of the tested port, or of the string. DEVIATION_SIGNATURE_LIMIT (R123, R125):
ten battens of the signature of two neighbours flag both cells, ten of a single cell's flag the cell, and a new flag
on a cell that no test has confirmed asks for a test. BLANKING_FAIL_LIMIT (R132): ten battens of blanking failures,
those counted in a core-pair reset among them (the model's reading, log entry 64), suspend the port's balancing and queue
BLEED_OFF; once suspended, or below ten, nothing changes. -/
def Obligations.CellChecks : Prop :=
  ((∀ (p : Fin 32) (s : State), completes (.satelliteCheckFailLimit p) s [.fresh, .owl, .tha, .gtr] (fun t =>
     portsBut p s t
     ∧ ((portOf s p).satRun = 10 → (portOf t p).testWanted = true)
     ∧ (100 ≤ (portOf s p).satRun → (portOf s p).testedInService = true → (portOf s p).owIntact = true →
         ∀ c ∈ cellsOfPort s p, c < 512 → (vget t.tha.cells c).chain.getLsbD 0 = true)))
   ∧ ∀ (k : Fin 4) (s : State), completes (.stringCheckFailLimit k) s [.fresh, .tha, .gtr] (fun t =>
     (100 ≤ (vget s.tha.strChk k).fails →
         ∀ c ∈ cellsOfStr s k, c < 512 → (vget t.tha.cells c).chain.getLsbD 1 = true)
     ∧ ((vget s.tha.strChk k).fails < 100 → t = s)))
  ∧ (∀ (p : Fin 32) (s : State), completes (.deviationSignatureLimit p) s [.owl, .tha] (fun t =>
       portsBut p s t
       ∧ (∀ i, i + 1 < portCells s p → 10 ≤ vget (portOf s p).pairRuns i → firstCell s p + i + 1 < 512 →
           flagOf t (firstCell s p + i) 3 = true ∧ flagOf t (firstCell s p + i + 1) 3 = true)
       ∧ ∀ i, i < portCells s p → 10 ≤ vget (portOf s p).singleRuns i → firstCell s p + i < 512 →
           flagOf t (firstCell s p + i) 4 = true
           ∧ (flagOf s (firstCell s p + i) 4 = false → (portOf s p).confirmed.getLsbD i = false →
               (portOf t p).testWanted = true)))
  ∧ (∀ (p : Fin 32) (s : State),
       (((10 ≤ (portOf s p).blankRun ∨ (portOf s p).blankDue = true) ∧ (portOf s p).balSuspended = false) →
         completes (.blankingFailLimit p) s [.fresh, .owl, .gtr] (fun t =>
           (portOf t p).balSuspended = true ∧ (portOf t p).cmdQueue.any (fun c => c.code == 7) = true ∧ portsBut p s t))
       ∧ (((portOf s p).blankRun < 10 ∧ (portOf s p).blankDue = false) ∨ (portOf s p).balSuspended = true →
           exec (.blankingFailLimit p) s = .next s))

/-- TCORE_EXPIRY (R178), REFERENCE_AGE_EXPIRY (R163) and QUIET_TIME_REACHED (R155): what each clears or marks where its
time has run out, and nothing where it has not. ESTIMATOR_RUN_COMPLETE (R13, R154): the run on the snapshot ends, its
set waits for the hand-over under the snapshot's batten number, and its run time is kept; with no run under way,
or in Dormant, where its clock stands (R23), nothing changes. -/
def Obligations.CellTimersAndRuns : Prop :=
  ((∀ (c : Fin 512) (s : State),
     let r := vget s.tha.cells c
     ((r.tcore ≠ none ∧ r.tcoreAt + 60000 ≤ s.bat.num) →
       exec (.tcoreExpiry c) s = .next (modCell s c (fun r => { r with tcore := none })))
     ∧ ((r.tcore = none ∨ s.bat.num < r.tcoreAt + 60000) → exec (.tcoreExpiry c) s = .next s))
   ∧ (∀ (c : Fin 512) (s : State),
     let due := (estCell s c).refAt + 259200000 < s.bat.num ∧ c.val < nCells s ∧ s.est.refStale.getLsbD c = false
     (due → completes (.referenceAgeExpiry c) s [.fresh, .est, .gtr] (fun t =>
       t.est = { s.est with refStale := setBit s.est.refStale c true }))
     ∧ (¬ due → exec (.referenceAgeExpiry c) s = .next s))
   ∧ ∀ (k : Fin 4) (s : State),
     let due := s.cfg.plant.quietDiv ≠ 0 ∧ s.cfg.plant.quietTime ≠ 0 ∧ k.val < nStr s ∧ s.est.quiet.getLsbD k = false
       ∧ s.cfg.plant.quietTime * 1000 ≤ vget s.est.quietRun k
     (due → exec (.quietTimeReached k) s = .next { s with est := { s.est with quiet := setBit s.est.quiet k true } })
     ∧ (¬ due → exec (.quietTimeReached k) s = .next s))
  ∧ (∀ (n : BitVec 24) (s : State),
       ((s.est.snap = none ∨ mapUp s = false) → exec (.estimatorRunComplete n) s = .next s)
       ∧ ∀ sn, s.est.snap = some sn → mapUp s = true → completes (.estimatorRunComplete n) s [.fresh, .est, .led, .gtr] (fun t =>
           t.est.snap = none ∧ t.est.runtime = n.toNat ∧ (t.est.made.map (·.batten)) = some sn.batten
           ∧ (t.est.made.map (·.charge)) = some sn.charge ∧ t.est.force = s.est.force))

/-- THATCH_UPDATE (R11, R119, R155, R156, R199): slot 4, once per batten and after slot 3, keeps the string charges with the
batten's number, counts an update while the cores run, leaves no late reading behind, and in batten 0 of a course
freezes the snapshot of this batten; from Throttle on the odd courses are skipped, until the next even one. Without an
image, in a restart and in the thermal halt nothing runs. -/
def Obligations.ThatchUpdates : Prop :=
  ∀ s : State,
    ((fixedRuns s = false ∨ slotNext s 4 = false) → exec .thatchUpdate s = .next s)
    ∧ (fixedRuns s = true → slotNext s 4 = true →
      completes .thatchUpdate s [.fresh, .bat, .owl, .tha, .est, .led, .pgr, .gtr] (fun t =>
        t.bat = { s.bat with fixedDone := 5 } ∧
        t.led.cap = s.vrg.charge ∧ t.led.capAt = s.bat.num
        ∧ t.pgr.updates = (if coresRun s then s.pgr.updates + 1 else s.pgr.updates)
        ∧ (∀ p ∈ usedPorts s, (portOf t p).late = none)
        ∧ (phaseOf s ≠ 0 → t.est.snap = s.est.snap)
        ∧ (phaseOf s = 0 → (courseOf s % 2 = 0 ∨ (s.pwr.level < 2 ∧ s.est.evenOnly = false)) →
            (t.est.snap.map (·.batten)) = some s.bat.num)
        ∧ (phaseOf s = 0 → courseOf s % 2 = 1 → (2 ≤ s.pwr.level ∨ s.est.evenOnly = true) → t.est.snap = s.est.snap)))

/-- ERASE and ERASE_COMPLETE (R46, R47, R79): the erased slot reads as erased throughout, from the command's acceptance on
(the model's reading, log entry 40), the stage is ERASING for its writer and then WRITING, or failed where the NOR does not
answer; a command that R79 does not allow changes nothing.
IMG_DATA_WRITE (R47, R79, R84): the word's four octets are programmed at IMG_ADDR in the target slot, clearing bits
only, and IMG_ADDR goes on by 4; every other byte of the NOR reads as before. Where the write waits in the release
buffer (R271) the NOR is as it was and the buffer holds it, and the erase does not complete before it has left. -/
def Obligations.StageErasesAndPrograms : Prop :=
  (∀ (who : Who) (b : Bool) (s : State),
     let may := stageMay s who = true ∧ sealSeen s = true ∧ (unconfigured s = true ∨ b = false)
       ∧ (s.img.stage = .idle ∨ s.img.stage = .failed ∨ s.img.stage = .verified)
     let target := if unconfigured s then b else !s.img.activeB
     (may → completes (.erase who b) s [.fresh, .nor, .img, .gtr] (fun t =>
       t.img.stage = .erasing ∧ t.img.targetB = target ∧ t.img.owner = some (normWho s who)
       ∧ (norWaits s = true → t.nor = s.nor ∧ t.img.norHeld = s.img.norHeld ++ [.erase target])
       ∧ (∀ a, norWaits s = false → norAnswers s target = true → slotBase target ≤ a → a < slotBase target + 0x400000 →
           memGet norBlank t.nor a = 0xFF)
       ∧ ∀ a, ¬ (slotBase target ≤ a ∧ a < slotBase target + 0x400000) →
           memGet norBlank t.nor a = memGet norBlank s.nor a))
     ∧ (¬ may → exec (.erase who b) s = .next s)
     ∧ (s.img.stage = .erasing → s.img.norHeld = [] → completes .eraseComplete s [.fresh, .img, .gtr] (fun t =>
         t.img.stage = (if norAnswers s s.img.targetB then .writing else .failed)
         ∧ (norAnswers s s.img.targetB = false → t.img.stageReason = 0x0D)))
     ∧ ((s.img.stage ≠ .erasing ∨ s.img.norHeld ≠ []) → exec .eraseComplete s = .next s))
  ∧ (∀ (who : Who) (v : Word) (s : State), memSafe s →
       let may := stageMay s who = true ∧ sealSeen s = true ∧ s.img.stage = .writing ∧ s.img.addr < 0x3FFFFC
       let base := slotBase s.img.targetB + s.img.addr
       (may → completes (.imgDataWrite who v) s [.nor, .img] (fun t =>
         t.img.addr = (s.img.addr + 4) % 0x400000
         ∧ (norWaits s = false → t.img = { s.img with addr := t.img.addr })
         ∧ (norWaits s = true → t.nor = s.nor ∧ t.img = { s.img with
             addr := t.img.addr, norSaved := t.img.norSaved
             norHeld := s.img.norHeld ++ [.program s.img.targetB s.img.addr (natLe 4 v.toNat)] })
         ∧ (norWaits s = false → norAnswers s s.img.targetB = true → ∀ i, i < 4 →
             memGet norBlank t.nor (base + i) = memGet norBlank s.nor (base + i) &&& (natLe 4 v.toNat).getD i 0)
         ∧ ∀ a, ¬ (base ≤ a ∧ a < base + 4) → memGet norBlank t.nor a = memGet norBlank s.nor a))
       ∧ (¬ may → exec (.imgDataWrite who v) s = .next s))

/-- VERIFY and VERIFY_COMPLETE (R72, R77, R78, R79): WRITING becomes VERIFYING for the owner; the check's result decides
between VERIFIED and FAILED with its reason, and the SEAL pins are sampled. COMMIT and COMMIT_WORD_PROGRAMMED (R79,
R80): outside Unconfigured a verified image becomes RELOAD PENDING while every string is Open, and the programmed
commit word arms the restart; in Unconfigured the word is programmed at once and the stage is IDLE. A write of the
stage that waits in the release buffer (R271) keeps both completions waiting. -/
def Obligations.StageVerifiesAndCommits : Prop :=
  (∀ (who : Who) (s : State),
     ((stageMay s who = true ∧ s.img.stage = .writing) →
       completes (.verify who) s [.fresh, .img, .gtr] (fun t => t.img = { s.img with stage := .verifying }))
     ∧ ((stageMay s who = false ∨ s.img.stage ≠ .writing) → exec (.verify who) s = .next s)
     ∧ (s.img.stage = .verifying → s.img.norHeld = [] → completes .verifyComplete s [.fresh, .img, .bat, .gtr] (fun t =>
         let r := (checkStaged s s.img.targetB).result.reason
         t.img.stage = (if r = 0 then .verified else .failed) ∧ t.img.stageReason = r
         ∧ t.img.sealSampled = s.lands.sealPins))
     ∧ ((s.img.stage ≠ .verifying ∨ s.img.norHeld ≠ []) → exec .verifyComplete s = .next s))
  ∧ (∀ (who : Who) (s : State), memSafe s →
       let may := stageMay s who = true ∧ sealSeen s = true ∧ s.img.stage = .verified
       ((may ∧ unconfigured s = false ∧ allOpen s = true) →
         completes (.commit who) s [.fresh, .img, .gtr] (fun t =>
           t.img = { s.img with
             stage := .reloadPending, byCommit := true, armed := false, norSaved := t.img.norSaved
             norHeld := if norWaits s then s.img.norHeld ++ [.commit] else s.img.norHeld }
           ∧ (norWaits s = false → t.img.norSaved = s.img.norSaved)))
       ∧ ((may ∧ unconfigured s = true) → completes (.commit who) s [.fresh, .nor, .img, .gtr] (fun t =>
           t.img.stage = .idle ∧ t.img.owner = none
           ∧ (norAnswers s s.img.targetB = true → ∀ i, i < 4 →
               memGet norBlank t.nor (slotBase s.img.targetB + 0x3FFFFC + i) = 0)))
       ∧ ((¬ may ∨ (unconfigured s = false ∧ allOpen s = false)) → exec (.commit who) s = .next s)
       ∧ ((s.img.stage = .reloadPending ∧ s.img.byCommit = true ∧ s.img.armed = false ∧ s.img.norHeld = []) →
         completes .commitWordProgrammed s [.nor, .img] (fun t =>
           (norAnswers s s.img.targetB = true → t.img.armed = true) ∧ t.img.stage = .reloadPending
           ∧ ∀ a, ¬ (slotBase s.img.targetB + 0x3FFFFC ≤ a ∧ a < slotBase s.img.targetB + 0x400000) →
               memGet norBlank t.nor a = memGet norBlank s.nor a))
       ∧ ((s.img.stage ≠ .reloadPending ∨ s.img.byCommit = false ∨ s.img.armed = true ∨ s.img.norHeld ≠ []) →
         exec .commitWordProgrammed s = .next s))

/-- RELOAD and ABANDON (R79, R80): a reload waits armed for the next batten 0 while every string is Open; an abandoned
stage is IDLE and has no owner. SEALOPEN_CHANGE (R21): the land follows; its loss, which SealopenRelease follows in an
open stage, takes Bench into its warm restart at the next edge (the model's reading, log entry 31). ENTER_BENCH and
LEAVE_BENCH (R21, R312): a MAINTAIN session or the Gable port enters Bench from Operating with every string Open and
SEALOPEN asserted, a Ship order ends there (log entry 67) and an orderly stop begun goes on from its stage 3 (R406);
Bench is left through a warm restart, which ends the debug session (R285); anything else changes nothing, as every write
does once both cores have halted (R280) or the module sleeps (R22). -/
def Obligations.StageEndsAndBench : Prop :=
  (∀ (who : Who) (s : State),
     let reload := stageMay s who = true ∧ s.img.stage = .idle ∧ unconfigured s = false ∧ allOpen s = true
     let drop := stageMay s who = true ∧ s.img.stage ≠ .reloadPending
     (reload → completes (.reload who) s [.fresh, .img, .gtr] (fun t =>
       t.img = { s.img with stage := .reloadPending, byCommit := false, armed := true, owner := some (normWho s who) }))
     ∧ (¬ reload → exec (.reload who) s = .next s)
     ∧ (drop → completes (.abandon who) s [.fresh, .img, .gtr] (fun t => t.img = { s.img with stage := .idle, owner := none }))
     ∧ (¬ drop → exec (.abandon who) s = .next s))
  ∧ (∀ s : State,
       exec (.sealopenChange true) s = .next { s with lands := { s.lands with sealOpen := true } }
       ∧ completes (.sealopenChange false) s [.fresh, .lands, .nor, .img, .cpr, .gtr] (fun t =>
           t.lands = { s.lands with sealOpen := false }
           ∧ (inBench s = true → t.img.benchExit = true ∧ t.img.armed = true ∧ t.cpr.dbgOn = false ∧ t.cpr.breakpoints = [])
           ∧ t.img.module = s.img.module))
  ∧ (∀ (who : Who) (s : State),
       let enter := (isMaintain s who = true ∨ normWho s who = .gable ∨ who = .gable) ∧ operating s = true
         ∧ allOpen s = true ∧ sealSeen s = true ∧ writesServed s = true ∧ mapUp s = true
       let leave := (isMaintain s who = true ∨ who = .gable) ∧ inBench s = true ∧ writesServed s = true
       (enter → completes (.enterBench who) s [.img, .led, .cpr, .pwr] (fun t =>
         t.img = { s.img with module := .bench } ∧ t.pwr.shipOrdered = false
         ∧ (s.pwr.shipOrdered = false → t.pwr = { s.pwr with stop := t.pwr.stop })
         ∧ ((s.pwr.stop = 1 ∨ s.pwr.stop = 2) → t.pwr.stop = 3 ∧ t.led.work.stopCells.isSome = true)
         ∧ (s.pwr.stop ≠ 1 → s.pwr.stop ≠ 2 → t.pwr.stop = s.pwr.stop)
         ∧ (s.pwr.shipOrdered = false → s.pwr.stop ≠ 1 → s.pwr.stop ≠ 2 → t.led = s.led ∧ t.cpr = s.cpr)))
       ∧ (¬ enter → exec (.enterBench who) s = .next s)
       ∧ (leave → completes (.leaveBench who) s [.img, .cpr] (fun t =>
           t.img = { s.img with benchExit := true, armed := true } ∧ t.cpr.dbgOn = false ∧ t.cpr.dbgHalted = false
           ∧ t.cpr.breakpoints = [] ∧ t.cpr.dbgWaiting = [] ∧ t.cpr.run = s.cpr.run))
       ∧ (¬ leave → exec (.leaveBench who) s = .next s))

/-- R81: a release of SEALOPEN while the stage is ERASING, WRITING, VERIFYING or VERIFIED moves it to FAILED with reason 0x0F;
the NOR is left as it is. -/
def Obligations.SealopenRelease : Prop :=
  ∀ s : State, s.lands.sealOpen = true →
    (s.img.stage = .erasing ∨ s.img.stage = .writing ∨ s.img.stage = .verifying ∨ s.img.stage = .verified) →
    completes (.sealopenChange false) s [.fresh, .lands, .img, .cpr, .gtr] (fun t =>
      t.lands.sealOpen = false ∧ t.img.stage = .failed ∧ t.img.stageReason = 0x0F)

/-! ## Spar -/

/-- In ARMED, PROVING and TRIPPED a silent tone of a used and unmasked port, a silent used and unmasked lane, a gate
conducting against its command, disagreeing channels of a used pair 0 to 7, the supply's trip and a clock outside its
window each raise their cause: Spar is TRIPPED with every gate off (R243, R244, R245, R248, R252, R253, R257). What
the same events do where they raise no cause: in START and UNCONFIGURED, on masked or unused ports and lanes, on pairs
whose channels agree or that raise none (an unused pair's is the model's reading, log entry 69), on a gate commanded on
or a switch that does not conduct (R245, R262), and nothing at all while Spar does not run. -/
def Obligations.SparTripsOnFaults : Prop :=
  (∀ s : State, latching s.spar = true →
     (∀ p : Fin 32, sparRuns s = true → s.spar.usedPorts.getLsbD p = true → s.spar.toneMask.getLsbD p = false →
       let sp : Spar := { s.spar with
         tonePresent := setBit s.spar.tonePresent p false, toneTrip := setBit s.spar.toneTrip p true }
       exec (.toneSilence p) s = .next { s with spar := sparRaised s.bat.num 8 sp })
     ∧ (∀ l : Fin 5, sparRuns s = true → laneUsed s.spar l = true → s.spar.laneMask.getLsbD l = false →
       let sp : Spar := { s.spar with
         lanePresent := setBit s.spar.lanePresent l false, laneTrip := setBit s.spar.laneTrip l true }
       exec (.laneSilence l) s = .next { s with spar := sparRaised s.bat.num (if l.val < 4 then 9 else 10) sp })
     ∧ (∀ c : Fin 16, sparRuns s = true → s.spar.gateCmd.getLsbD c = false →
       let sp : Spar := { s.spar with gateBad := setBit s.spar.gateBad c true }
       exec (.gateAgainstCommand ⟨c, true⟩) s = .next { s with spar := sparRaised s.bat.num 13 sp })
     ∧ (∀ i : Fin 11, sparRuns s = true → i.val < 8 → pairUsed s.spar i = true → pairAgrees s.spar i = false →
       let sp : Spar := { s.spar with
         pairFaults := setBit s.spar.pairFaults i true, faultSeen := setBit s.spar.faultSeen i false }
       exec (.pairFault i) s = .next { s with spar := sparRaised s.bat.num 11 sp })
     ∧ (s.spar.inReset = false → s.pwr.power ≠ .ship → s.spar.stopped = false →
       let sp : Spar := { s.spar with supplyOk := false }
       exec .sparSupplyTrip s = .next { s with spar := sparRaised s.bat.num 14 sp })
     ∧ (sparRuns s = true →
       let sp : Spar := { s.spar with clockBad := true }
       exec .sparClockFault s = .next { s with spar := sparRaised s.bat.num 15 sp }))
  ∧ (∀ s : State,
       (∀ p : Fin 32, sparRuns s = true →
         (s.spar.usedPorts.getLsbD p = false ∨ s.spar.toneMask.getLsbD p = true ∨ latching s.spar = false) →
         let sp : Spar := { s.spar with tonePresent := setBit s.spar.tonePresent p false }
         exec (.toneSilence p) s = .next { s with spar := sp })
       ∧ (∀ l : Fin 5, sparRuns s = true →
         (laneUsed s.spar l = false ∨ s.spar.laneMask.getLsbD l = true ∨ latching s.spar = false) →
         let sp : Spar := { s.spar with lanePresent := setBit s.spar.lanePresent l false }
         exec (.laneSilence l) s = .next { s with spar := sp })
       ∧ (∀ g : GateSense, sparRuns s = true →
         let cmd := s.spar.gateCmd.getLsbD g.gate
         (g.conducts = false ∨ cmd = true ∨ latching s.spar = false) →
         let sp : Spar := { s.spar with
           gateBad := setBit s.spar.gateBad g.gate (g.conducts && !cmd)
           gateDead := setBit s.spar.gateDead g.gate (!g.conducts && cmd)
           gateOn := setBit s.spar.gateOn g.gate g.conducts }
         exec (.gateAgainstCommand g) s = .next { s with spar := sp })
       ∧ (∀ i : Fin 11, sparRuns s = true → pairAgrees s.spar i = false →
           (8 ≤ i.val ∨ pairUsed s.spar i = false ∨ latching s.spar = false) →
         let sp : Spar := { s.spar with
           pairFaults := setBit s.spar.pairFaults i true, faultSeen := setBit s.spar.faultSeen i false
           handFault := s.spar.handFault || (s.spar.twoHand && (i.val == 8 || i.val == 9)) }
         exec (.pairFault i) s = .next { s with spar := sp })
       ∧ ((s.spar.inReset = false ∧ s.pwr.power ≠ .ship) → (latching s.spar = false ∨ s.spar.stopped = true) →
         completes .sparSupplyTrip s [.spar] (fun t =>
           t.spar.supplyOk = false ∧ t.spar.gateCmd = 0 ∧ t.spar.causes = s.spar.causes ∧ t.spar.mode = s.spar.mode))
       ∧ ((s.spar.inReset = true ∨ s.pwr.power = .ship) →
         exec .sparSupplyTrip s = .next s ∧ exec .sparClockStop s = .next s ∧ exec .sparClockReturn s = .next s)
       ∧ (∀ i : Fin 11, pairAgrees s.spar i = true → exec (.pairFault i) s = .next s)
       ∧ (sparRuns s = true → latching s.spar = false →
         let sp : Spar := { s.spar with clockBad := true }
         exec .sparClockFault s = .next { s with spar := sp })
       ∧ (sparRuns s = false → exec .sparClockFault s = .next s ∧ exec .statusWordPresent s = .next s
         ∧ exec .sparStartEnd s = .next s ∧ exec .sparConfiguration s = .next s ∧ exec .handReleaseHeld s = .next s
         ∧ exec .twoHandSkewExpiry s = .next s ∧ (∀ p, exec (.toneSilence p) s = .next s ∧ exec (.tonePresent p) s = .next s)
         ∧ (∀ l, exec (.laneSilence l) s = .next s ∧ exec (.lanePresent l) s = .next s)
         ∧ (∀ g, exec (.gateAgainstCommand g) s = .next s) ∧ (∀ i, exec (.pairFault i) s = .next s)
         ∧ (∀ r, exec (.pairTestPulse r) s = .next s) ∧ ∀ ch b, exec (.contactFilterChange ch b) s = .next s))

/-- START ends in UNCONFIGURED once the pair test is done; a configuration that waits reaches Spar after START, and one
after Spar's own reset trips it with SUPPLY (R241, R243, R249, R257). TONE_PRESENT and LANE_PRESENT (R106, R107, R253,
R258): a tone that is present again is unmasked where that has been asked for its used port, and no other port's mask
changes; a lane that toggles again is unmasked outside Dormant; causes and mode stay as they are. A lane whose comparator is
active, or whose die has no power or no clock (R361), does not toggle. -/
def Obligations.SparStartsAndConfigures : Prop :=
  (∀ s : State, sparRuns s = true →
     ((s.spar.mode = .start ∧ s.spar.testDone = true) → completes .sparStartEnd s [.spar] (fun t =>
       t.spar.mode = .unconfigured ∧ t.spar.gateCmd = 0))
     ∧ ((s.spar.mode ≠ .start ∨ s.spar.testDone = false) → exec .sparStartEnd s = .next s)
     ∧ ((unconfigured s = true ∨ s.spar.mode = .start ∨ (s.spar.cfgDue = false ∧ s.spar.resumeOwed = false)) →
       exec .sparConfiguration s = .next s)
     ∧ ((unconfigured s = false ∧ s.spar.mode ≠ .start ∧ (s.spar.cfgDue = true ∨ s.spar.resumeOwed = true)) →
       completes .sparConfiguration s [.spar] (fun t =>
         t.spar.cfgDue = false ∧ t.spar.resumeOwed = false ∧ t.spar.doors = s.cfg.safety.doors
         ∧ t.spar.fireGas = s.cfg.safety.fireGas ∧ t.spar.strings = nStr s ∧ gatesSafe t
         ∧ (s.spar.mode = .unconfigured → s.spar.resumeOwed = true →
             t.spar.mode = .tripped ∧ t.spar.causes.getLsbD 14 = true ∧ t.spar.gateCmd = 0))))
  ∧ (∀ s : State, sparRuns s = true →
       (∀ p : Fin 32, completes (.tonePresent p) s [.spar] (fun t =>
         t.spar.tonePresent = setBit s.spar.tonePresent p true
         ∧ t.spar.toneMask = (if s.spar.unmaskReq.getLsbD p && s.spar.usedPorts.getLsbD p
           then setBit s.spar.toneMask p false else s.spar.toneMask)
         ∧ t.spar.mode = s.spar.mode ∧ t.spar.causes = s.spar.causes ∧ gatesSafe t))
       ∧ (∀ l : Fin 5, laneToggles s l = false → exec (.lanePresent l) s = .next s)
       ∧ ∀ l : Fin 5, laneToggles s l = true → completes (.lanePresent l) s [.spar] (fun t =>
         t.spar.lanePresent = setBit s.spar.lanePresent l true
         ∧ t.spar.laneMask
           = (if laneUsed s.spar l && !s.spar.dormant then setBit s.spar.laneMask l false else s.spar.laneMask)
         ∧ t.spar.mode = s.spar.mode ∧ t.spar.causes = s.spar.causes ∧ gatesSafe t))

/-- PAIR_TEST_PULSE (R249, R250): in START every pair takes its verdict and the test is done; later only the used pairs at
rest that have not passed do, and one that fails trips ARMED and PROVING with its cause. CONTACT_FILTER_CHANGE (R247,
R251): a channel's filtered state is taken in; an opened channel of a used pair 0 to 7 trips ARMED with the pair's
cause and joins the latch of TRIPPED. A state that is not new changes nothing. TWO_HAND_SKEW_EXPIRY and
HAND_RELEASE_HELD (R254, R256): an attempt over its limit ends without an actuation, with a skew of more than 4 000
000 SPAR cycles; both buttons released clear HAND FAULT and make the proof, and the last proof arms Spar. -/
def Obligations.SparContacts : Prop :=
  (∀ (r : PulseTest) (s : State), sparRuns s = true →
     (s.spar.mode = .start →
       let sp : Spar := { s.spar with pairTest := Vector.ofFn (fun i => pulseVerdict r i.val), testDone := true }
       exec (.pairTestPulse r) s = .next { s with spar := sp })
     ∧ (s.spar.mode ≠ .start → completes (.pairTestPulse r) s [.spar] (fun t =>
       gatesSafe t ∧ t.spar.testDone = s.spar.testDone
       ∧ ∀ i, i < 11 →
         let todo := pairUsed s.spar i && !pairPassed s.spar i && pairAtRest s.spar i
         vget t.spar.pairTest i
           = (if todo && pulseVerdict r i != .untested then pulseVerdict r i else vget s.spar.pairTest i)
         ∧ (todo = true → pulseVerdict r i = .failed → (s.spar.mode = .armed ∨ s.spar.mode = .proving) →
             t.spar.mode = .tripped ∧ t.spar.causes.getLsbD 12 = true ∧ t.spar.gateCmd = 0))))
  ∧ (∀ (ch : Fin 22) (closed : Bool) (s : State), sparRuns s = true →
       (s.spar.inputs.getLsbD ch = closed → exec (.contactFilterChange ch closed) s = .next s)
       ∧ (s.spar.inputs.getLsbD ch ≠ closed →
         completes (.contactFilterChange ch closed) s [.fresh, .spar] (fun t =>
           t.spar.inputs = setBit s.spar.inputs ch closed ∧ gatesSafe t
           ∧ (closed = false → ch.val / 2 < 8 → pairUsed s.spar (ch.val / 2) = true →
               (s.spar.mode = .armed → s.spar.causes.getLsbD (ch.val / 2) = false →
                 t.spar.mode = .tripped ∧ t.spar.causes.getLsbD (ch.val / 2) = true ∧ t.spar.gateCmd = 0)
               ∧ (s.spar.mode = .tripped →
                 t.spar.mode = .tripped ∧ t.spar.causes.getLsbD (ch.val / 2) = true ∧ t.spar.gateCmd = 0)))))
  ∧ (∀ s : State, sparRuns s = true →
       ((s.spar.twoHand = true ∧ s.spar.firstBtn ≠ none) → completes .twoHandSkewExpiry s [.fresh, .spar] (fun t =>
         4000000 < t.spar.handSkew ∧ t.spar.handOver = true ∧ t.spar.firstBtn = none
         ∧ t.spar.needRelease = !(btnReleased s.spar 8 && btnReleased s.spar 9)
         ∧ t.spar.actuation = s.spar.actuation ∧ t.spar.gateCmd = s.spar.gateCmd))
       ∧ ((s.spar.twoHand = false ∨ s.spar.firstBtn = none) → exec .twoHandSkewExpiry s = .next s)
       ∧ ((s.spar.twoHand = true ∧ btnReleased s.spar 8 = true ∧ btnReleased s.spar 9 = true) →
         completes .handReleaseHeld s [.spar] (fun t =>
           t.spar.handFault = false ∧ t.spar.handProof = false ∧ gatesSafe t
           ∧ (s.spar.mode = .proving → s.spar.doorProof = 0 → anyDemand s.spar = false → s.spar.gateBad = 0 →
               s.spar.supplyOk = true → t.spar.mode = .armed)))
       ∧ ((s.spar.twoHand = false ∨ btnReleased s.spar 8 = false ∨ btnReleased s.spar 9 = false) →
         exec .handReleaseHeld s = .next s))

/-- SPAR_RESET, SPAR_RESET_RELEASE, SPAR_CLOCK_STOP, SPAR_CLOCK_RETURN and STATUS_WORD_PRESENT (R243, R257, R261, R394,
R400): the die's reset leaves every gate and every Eaves output off, it being that of Eaves too (the model's reading,
log entry 53), and owes the resume notice while an image is loaded; its release is START; a stopped clock turns every
gate off, and its return latches CLOCK; the status word is presented as it stands. -/
def Obligations.SparResetAndClock : Prop :=
  ∀ s : State,
    (s.pwr.power = .ship → exec .sparReset s = .next s)
    ∧ (s.pwr.power ≠ .ship → completes .sparReset s [.spar, .eav, .cdc] (fun t =>
      t.spar.inReset = true ∧ t.spar.gateCmd = 0 ∧ t.spar.gateOn = 0 ∧ t.spar.causes = 0 ∧ t.spar.mode = .start
      ∧ t.spar.resumeOwed = !unconfigured s ∧ t.spar.unmaskReq = s.spar.unmaskReq ∧ t.spar.service = s.spar.service
      ∧ t.eav.on = 0 ∧ t.eav.hold = false ∧ t.eav.windows = 0))
    ∧ ((s.spar.inReset = true ∧ s.pwr.power ≠ .ship) →
      let sp : Spar := { s.spar with inReset := false, mode := .start }
      exec .sparResetRelease s = .next { s with spar := sp })
    ∧ ((s.spar.inReset = false ∨ s.pwr.power = .ship) → exec .sparResetRelease s = .next s)
    ∧ ((s.spar.inReset = false ∧ s.pwr.power ≠ .ship) → completes .sparClockStop s [.spar] (fun t =>
      t.spar.stopped = true ∧ t.spar.gateCmd = 0 ∧ t.spar.mode = s.spar.mode ∧ t.spar.causes = s.spar.causes))
    ∧ (s.spar.stopped = false → exec .sparClockReturn s = .next s)
    ∧ ((s.spar.stopped = true ∧ s.spar.inReset = false ∧ s.pwr.power ≠ .ship) →
      completes .sparClockReturn s [.spar] (fun t =>
        t.spar.stopped = false ∧ gatesSafe t
        ∧ (latching s.spar = true → t.spar.mode = .tripped ∧ t.spar.causes.getLsbD 15 = true ∧ t.spar.gateCmd = 0)))
    ∧ (sparRuns s = true →
      let sp : Spar := { s.spar with
        presented := statusWord s, fresh := true, wordFirst := s.spar.latchFirst, wordTones := s.spar.toneTrip }
      exec .statusWordPresent s = .next { s with spar := sp })

/-- No step leaves a gate commanded on without every condition of R244 for it: Spar ARMED, the gate of a used output, its
string not held, its request standing, the hold window not expired, the supply good, the clock running, no reset. -/
def Obligations.StepKeepsGatesSafe : Prop := ∀ s t : State, gatesSafe s → step s = .next t → gatesSafe t

/-! ## Eaves -/

/-- OUTPUT_INTENT_WRITE (R11, R270, R291, R393, R397, R406): slot 6, once per batten and in its place, forms the word of
Ridge's coils and the auxiliary channels, or the word with nothing on that ends an orderly stop. The compare gate holds it
while it is on; otherwise it enters crossing 6: at once when that is free, else as the word that waits, and a die in reset
drops it. INTENT_WORD_ACCEPT (R237, R291, R292, R304): a word that passes every test is applied whole, ends a hold window and
is the word Spar's gates follow; a word that fails one is refused and counted; with no word, or with the die not running
(the model's reading, log entry 44), nothing changes. -/
def Obligations.IntentWords : Prop :=
  (∀ s : State,
     let runs := slotsRun s = true ∧ slotNext s 6 = true
     let word := if s.pwr.allOff then makeIntent 0 (BitVec.ofNat 8 s.bat.num) 0 (List.replicate 8 0) else slot6Word s
     let bat : Bat := { s.bat with fixedDone := 7 }
     let pwr : Pwr := { s.pwr with offSent := s.pwr.offSent || s.pwr.allOff }
     (¬ runs → exec .outputIntentWrite s = .next s)
     ∧ (runs → gateOn s = true → exec .outputIntentWrite s
       = .next { s with bat := bat, pwr := pwr, eav := { s.eav with gated := some word } })
     ∧ (runs → gateOn s = false → completes .outputIntentWrite s [.fresh, .bat, .eav, .pwr, .cdc, .gtr] (fun t =>
         t.bat = bat ∧ t.pwr = pwr
         ∧ (s.spar.inReset = true →
           t.eav = s.eav ∧ vget t.cdc.dropped 6 = satAdd 16 (vget s.cdc.dropped 6) 1)
         ∧ (s.spar.inReset = false → s.eav.word = none → t.eav = { s.eav with word := some word } ∧ t.cdc = s.cdc)
         ∧ (s.spar.inReset = false → s.eav.word ≠ none → t.eav = { s.eav with wordNext := some word }
           ∧ (s.eav.wordNext ≠ none → t.cdc.ovr.getLsbD 6 = true) ∧ (s.eav.wordNext = none → t.cdc = s.cdc)))))
  ∧ (∀ (link : Option IntentWord) (s : State),
       ((eavRuns s = false ∨ (link = none ∧ s.eav.word = none)) → exec (.intentWordAccept link) s = .next s)
       ∧ ∀ w, eavRuns s = true → (link = some w ∨ (link = none ∧ s.eav.word = some w)) →
         (acceptable s w = true → completes (.intentWordAccept link) s [.fresh, .spar, .eav, .gtr] (fun t =>
           t.eav.on = wordOn w ∧ t.eav.seqNo = wordSeq w ∧ t.eav.haveWord = true ∧ t.eav.hold = false
           ∧ t.eav.down = false ∧ t.eav.cfgWaits = false ∧ t.eav.refused = s.eav.refused
           ∧ t.spar.gateReq = wordGates w ∧ t.spar.holdExpired = false ∧ t.spar.mode = s.spar.mode ∧ gatesSafe t
           ∧ t.eav.word = (if link = none then s.eav.wordNext else s.eav.word)))
         ∧ (acceptable s w = false → completes (.intentWordAccept link) s [.eav] (fun t =>
           t.eav.on = s.eav.on ∧ t.eav.chans = s.eav.chans ∧ t.eav.hold = s.eav.hold ∧ t.eav.seqNo = s.eav.seqNo
           ∧ t.eav.refused = satAdd 16 s.eav.refused 1)))

/-- INTENT_GAP_TIMEOUT, CORE_RESET_SIGNAL and HOLD_WINDOW_EXPIRY (R237, R244, R304): a hold window starts and is counted
unless one runs or every channel is off already (the model's reading, log entry 44); its expiry turns every channel and
every gate off until the next accepted word. VSUP_LOW and VSUP_RESTORED (R257, R298, R299): every channel stops
conducting while VSUP is low, and returns by its last word when it is back, as far as nothing else bars it; Spar's own
supply is back with it (the model's reading, log entry 37). -/
def Obligations.HoldWindowAndSupply : Prop :=
  (∀ s : State,
     let start := s.eav.hold = false ∧ s.eav.down = false ∧ eavRuns s = true
     (start →
       let e : Eav := { s.eav with hold := true, windows := satAdd 16 s.eav.windows 1 }
       exec .intentGapTimeout s = .next { s with eav := e } ∧ exec .coreResetSignal s = .next { s with eav := e })
     ∧ (¬ start → exec .intentGapTimeout s = .next s ∧ exec .coreResetSignal s = .next s)
     ∧ ((s.eav.hold = true ∧ eavRuns s = true) →
       completes .holdWindowExpiry s [.fresh, .rdg, .spar, .eav, .gtr] (fun t =>
         t.eav.hold = false ∧ t.eav.down = true ∧ t.eav.expired = true ∧ t.eav.on = s.eav.on
         ∧ (∀ n, n < 24 → (chanOf t n).conducting = false)
         ∧ t.rdg = { s.rdg with expired := true }
         ∧ t.spar.holdExpired = true ∧ t.spar.gateCmd = 0 ∧ t.spar.mode = s.spar.mode ∧ t.spar.causes = s.spar.causes))
     ∧ ((s.eav.hold = false ∨ eavRuns s = false) → exec .holdWindowExpiry s = .next s))
  ∧ (∀ s : State,
       ((s.eav.vsupLow = false ∧ eavRuns s = true) → completes .vsupLow s [.fresh, .eav, .gtr] (fun t =>
         t.eav.vsupLow = true ∧ t.eav.on = s.eav.on ∧ ∀ n, n < 24 → (chanOf t n).conducting = false))
       ∧ ((s.eav.vsupLow = true ∨ eavRuns s = false) → exec .vsupLow s = .next s)
       ∧ (eavRuns s = true → completes .vsupRestored s [.fresh, .spar, .eav, .gtr] (fun t =>
         t.spar.supplyOk = true ∧ t.spar.mode = s.spar.mode ∧ t.spar.causes = s.spar.causes ∧ gatesSafe t
         ∧ t.eav.vsupLow = false
         ∧ (s.eav.vsupLow = true → ∀ n, n < 24 →
             let c := chanOf s n
             chanAsked s n = true → c.overTemp = false → c.latched = false → c.waitReclaim = false → c.retryPending = false →
               (chanOf t n).conducting = true)))
       ∧ (eavRuns s = false → exec .vsupRestored s = .next s))

/-- CHANNEL_SHORT, CHANNEL_OVER_TEMPERATURE and THERMAL_LATCH_RELEASE (R300, R301, R302, R304): the channel stops
conducting, the failure counts, a third failed retry latches it, and a failure in a hold window waits for the reclaim
word; its latch of temperature is set and released. No other channel changes. RETRY_DUE, ATTEMPT_PROVEN, PULL_IN_END
and CLAMP_EVENT (R295, R297, R301, R302): a retry is made where nothing bars the channel and deferred where something
does; a proven attempt clears what its failures left; the pull-in ends; a clamp counts. OPEN_LOAD_ON_CHANGE and
OFF_STATE_TEST (R300): the finding while on and past the pull-in; in the off state three consecutive tests find OPEN
LOAD OFF or SHORT TO SUPPLY and three clear it, and channels that conduct or are unused are not tested. -/
def Obligations.ChannelFailuresAndRetries : Prop :=
  (∀ (n : Fin 24) (s : State),
     let c := chanOf s n
     ((c.conducting = true ∧ eavRuns s = true) → completes (.channelShort n) s [.fresh, .eav, .gtr] (fun t =>
       let d := chanOf t n
       d.conducting = false ∧ d.short = true ∧ d.retryPending = true ∧ d.isRetry = false
       ∧ d.fails = satAdd 16 c.fails 1 ∧ d.retries = (if c.isRetry then min 3 (c.retries + 1) else c.retries)
       ∧ d.latched = (c.latched || d.retries == 3) ∧ d.waitReclaim = (c.waitReclaim || s.eav.hold) ∧ chanOnly n s t))
     ∧ ((c.conducting = false ∨ eavRuns s = false) → exec (.channelShort n) s = .next s)
     ∧ ((c.overTemp = false ∧ c.cfg.use ≠ 0 ∧ eavRuns s = true) →
       completes (.channelOverTemperature n) s [.fresh, .eav, .gtr] (fun t =>
         (chanOf t n).overTemp = true ∧ (chanOf t n).conducting = false ∧ chanOnly n s t
         ∧ (c.conducting = true → (chanOf t n).retryPending = true ∧ (chanOf t n).fails = satAdd 16 c.fails 1)))
     ∧ ((c.overTemp = true ∨ c.cfg.use = 0 ∨ eavRuns s = false) → exec (.channelOverTemperature n) s = .next s)
     ∧ ((c.overTemp = true ∧ eavRuns s = true) → completes (.thermalLatchRelease n) s [.fresh, .eav, .gtr] (fun t =>
       (chanOf t n).overTemp = false ∧ (chanOf t n).latched = c.latched ∧ chanOnly n s t))
     ∧ ((c.overTemp = false ∨ eavRuns s = false) → exec (.thermalLatchRelease n) s = .next s))
  ∧ (∀ (n : Fin 24) (s : State),
       let c := chanOf s n
       let due := c.retryPending = true ∧ c.isRetry = false ∧ c.latched = false ∧ c.deferredRetry = false ∧ eavRuns s = true
       let free := chanAsked s n = true ∧ s.eav.vsupLow = false ∧ c.overTemp = false ∧ c.waitReclaim = false
       ((due ∧ c.conducting = false ∧ free) → completes (.retryDue n) s [.eav] (fun t =>
         (chanOf t n).conducting = true ∧ (chanOf t n).isRetry = true ∧ (chanOf t n).deferredRetry = false
         ∧ (chanOf t n).retries = c.retries ∧ chanOnly n s t))
       ∧ ((due ∧ c.conducting = false ∧ ¬ free) → exec (.retryDue n) s = .next (modChan s n (fun c =>
         { c with deferredRetry := true })))
       ∧ (¬ due → exec (.retryDue n) s = .next s)
       ∧ ((c.conducting = true ∧ eavRuns s = true) → completes (.attemptProven n) s [.fresh, .eav, .gtr] (fun t =>
         (chanOf t n).conducting = true ∧ (chanOf t n).retryPending = false ∧ (chanOf t n).isRetry = false
         ∧ (chanOf t n).retries = 0 ∧ (chanOf t n).short = false ∧ chanOnly n s t))
       ∧ ((c.conducting = false ∨ eavRuns s = false) → exec (.attemptProven n) s = .next s)
       ∧ (eavRuns s = true → exec (.pullInEnd n) s = .next (modChan s n (fun c => { c with pullIn := false })))
       ∧ (eavRuns s = true → completes (.clampEvent n) s [.fresh, .eav, .gtr] (fun t =>
         (chanOf t n).clamps = satAdd 16 c.clamps 1 ∧ (chanOf t n).lastClamp = some (s.bat.num : Int)
         ∧ (chanOf t n).conducting = c.conducting ∧ chanOnly n s t))
       ∧ (eavRuns s = false → exec (.pullInEnd n) s = .next s ∧ exec (.clampEvent n) s = .next s))
  ∧ ((∀ (n : Fin 24) (found : Bool) (s : State),
       let c := chanOf s n
       let tested := c.conducting = true ∧ c.pullIn = false ∧ c.openOn ≠ found ∧ eavRuns s = true
       (tested → completes (.openLoadOnChange n found) s [.fresh, .eav, .gtr] (fun t =>
         (chanOf t n).openOn = found ∧ (chanOf t n).conducting = true ∧ chanOnly n s t))
       ∧ (¬ tested → exec (.openLoadOnChange n found) s = .next s))
     ∧ ∀ (above near : BitVec 24) (s : State),
       (eavRuns s = false → exec (.offStateTest above near) s = .next s)
       ∧ (eavRuns s = true → completes (.offStateTest above near) s [.fresh, .eav, .gtr] (fun t =>
         ∀ n, n < 24 →
           let c := chanOf s n
           let d := chanOf t n
           ((c.cfg.use = 0 ∨ c.conducting = true) → d = c)
           ∧ (c.cfg.use ≠ 0 → c.conducting = false →
             d.openOff = (if above.getLsbD n then c.openOff || 2 ≤ c.offHigh else c.openOff && c.offLow < 2)
             ∧ d.toSupply = (if near.getLsbD n then c.toSupply || 2 ≤ c.supHigh else c.toSupply && c.supLow < 2)
             ∧ d.conducting = false))))

/-- EAV_LATCH_CLEAR and EAV_AUXCMD_WRITE (R294, R303): a SUPERVISE session clears the latches it names; the auxiliary
command is taken from a writer R294 allows when it names used outputs alone; anything else changes nothing, and so does
every write once both cores have halted (R280).
HST_EVTMASK_WRITE, PWR_WAKEAT_WRITE and CDC_OVR_CLEAR (R309, R328, R408, R409): a session writes its own event mask
alone; an appointment that is not above the running batten is refused but for 0; written bits of CDC_OVR clear. -/
def Obligations.EavesAndHostWrites : Prop :=
  (∀ (who : Who) (s : State),
     (∀ m : BitVec 24, isSupervise s who = true → unconfigured s = false → writesServed s = true →
       completes (.eavLatchClear who m) s [.fresh, .eav, .gtr] (fun t =>
       t.eav = { s.eav with chans := t.eav.chans }
       ∧ (∀ n, n < 24 → m.getLsbD n = true →
         (chanOf t n).latched = false ∧ (chanOf t n).retryPending = false ∧ (chanOf t n).retries = 0)
       ∧ ∀ n, m.getLsbD n = false → chanOf t n = chanOf s n))
     ∧ (∀ m, (isSupervise s who = false ∨ unconfigured s = true ∨ writesServed s = false) →
         exec (.eavLatchClear who m) s = .next s)
     ∧ ∀ m : Byte,
       let may := unconfigured s = false ∧ writesServed s = true ∧ auxMay s who = true ∧ ∀ i, i < 8 → m.getLsbD i = true → (eavRec s (16 + i)).use ≠ 0
       (may → exec (.eavAuxcmdWrite who m) s = .next { s with eav := { s.eav with auxCmd := m } })
       ∧ (¬ may → exec (.eavAuxcmdWrite who m) s = .next s))
  ∧ (∀ (who : Who) (n : Fin 8) (w : Fin 4) (v : Word) (m : BitVec 15) (s : State),
       let own := unconfigured s = false ∧ writesServed s = true ∧ writeRole s who ≠ 0 ∧ normWho s who = .session n
       let sup := isSupervise s who = true ∧ unconfigured s = false ∧ writesServed s = true
       let at_ := v.toNat + 2 ^ 32 * (s.pwr.wakeAt / 2 ^ 32)
       (own → completes (.hstEvtmaskWrite who n w v) s [.hst] (fun t =>
         (∀ b, b < 128 → (sessOf t n).evtMask.getLsbD b
           = (if b / 32 = w.val then v.getLsbD (b % 32) else (sessOf s n).evtMask.getLsbD b))
         ∧ ∀ k, k ≠ n.val → sessOf t k = sessOf s k))
       ∧ (¬ own → exec (.hstEvtmaskWrite who n w v) s = .next s)
       ∧ (sup → (at_ = 0 ∨ s.bat.num < at_) →
         exec (.pwrWakeatWrite who v) s = .next { s with pwr := { s.pwr with wakeAt := at_ } })
       ∧ ((¬ sup ∨ ¬ (at_ = 0 ∨ s.bat.num < at_)) → exec (.pwrWakeatWrite who v) s = .next s)
       ∧ (sup → exec (.cdcOvrClear who m) s = .next { s with cdc := { s.cdc with ovr := s.cdc.ovr &&& ~~~m } })
       ∧ (¬ sup → exec (.cdcOvrClear who m) s = .next s))

/-! ## The core pair -/

/-- OUTPUT_GATE_COMPARE and OUTPUT_GATE_TIMEOUT (R270, R275, R282, R283, R417): the gate holds the words of protective
partitions until equal copies release them: a port's word goes out on its line, the lowest port's first (the model's
choice, log entry 70), the intent word into its crossing, the published limits to the CAN controllers that send them,
the Gutter entries of a partition one by one, and of partitions 0x06 to 0x08 classed protective what the release buffer
holds (R271). In the joined pair unequal or late copies bring the reaction of a protective mismatch, kind 4 or 5, and
none of the words leaves; in a shadow course they are only recorded; elsewhere, and for a restartable partition, they do
nothing. -/
def Obligations.OutputGate : Prop :=
  ∀ (p : Fin 8) (a b : Word) (s : State),
    let compared := coresRun s = true ∧ protectivePart s (partNo p) = true
    let opens := gateOn s = true ∧ protectivePart s (partNo p) = true
    let parts : List Part :=
      [.fresh, .img, .bat, .owl, .est, .led, .pgr, .rdg, .cpr, .priv, .eav, .hst, .can, .gtr]
    let mismatched := fun (k : Nat) (t : State) => reacted s t ∧ t.cpr.lastPart = partNo p ∧ t.cpr.lastKind = k
      ∧ t.cpr.byMismatch = satAdd 8 s.cpr.byMismatch 1 ∧ t.eav.gated = none ∧ t.eav.word = s.eav.word
      ∧ t.eav.wordNext = s.eav.wordNext ∧ t.hst.limitsGate = none ∧ ∀ n, n < 32 → portGated t n = false
    let leaving : List Part :=
      if p = 0 then [.owl, .gtr] else if p = 1 ∨ p = 2 then [.gtr] else if p = 3 then [.fresh, .eav, .cdc, .gtr]
      else if p = 4 then [.fresh, .est, .hst, .can, .gtr] else if p = 5 then [.nor, .img, .hst, .gtr]
      else if p = 6 then [.fresh, .hst, .gtr] else [.fresh, .psram, .led, .pgr, .gtr]
    (¬ opens → exec (.outputGateCompare p a a) s = .next s)
    ∧ (opens → completes (.outputGateCompare p a a) s leaving (fun t =>
      (p = 0 → ∀ n, n < 32 → portGated s n = true → (∀ m, m < n → portGated s m = false) →
        portsBut n s t
        ∧ ((portOf s n).cmdGate ≠ none → (portOf t n).cmdGate = none
          ∧ (portOf t n).lineOut = (portOf s n).lineOut ++ [frameOctets 1 (cmdPayload s.bat.num (portOf s n).cmd)])
        ∧ ((portOf s n).cmdGate = none → (portOf t n).bulkGate = false
          ∧ ∀ r, (portOf s n).inFlight = some r → (portOf t n).lineOut = (portOf s n).lineOut ++ [bulkFrame r]))
      ∧ (p = 3 → ∀ w, s.eav.gated = some w →
        t.eav.gated = none
        ∧ (s.spar.inReset = false → s.eav.word = none →
          t.eav = { s.eav with gated := none, word := some w } ∧ t.cdc = s.cdc))
      ∧ (p = 4 → ∀ w, s.hst.limitsGate = some w →
        t.hst.limitsGate = none
        ∧ ∀ c : Fin 2, phaseOf s = 2 → canSends s c = true → (canOf s c).frameBatten ≠ s.bat.num →
          (canOf t c).handed = true ∧ (canOf t c).frameBatten = s.bat.num
          ∧ (canOf t c).frame = limitFrame s w.flags w.plant w.strs)
      ∧ ((p = 1 ∨ p = 2) → ∀ e, s.gtr.held.find? (fun h => h.1 == partNo p) = some e →
        t.gtr.held = s.gtr.held.erase e ∧ t.gtr.total = s.gtr.total + 1)
      ∧ (p = 5 → t.img.norHeld = [] ∧ t.hst.release = [] ∧ t.hst.results = [])
      ∧ (p = 6 → t.hst.gooseHeld = [] ∧ ∀ (n : Fin 8) m k r, (sessOf t n).outstanding ≠ some (m, k, none, r))
      ∧ (p = 7 → t.led.held = [] ∧ t.pgr.outSec = [] ∧ t.pgr.outBat = [])))
    ∧ ((compared ∧ s.cpr.coupling = .joined) →
      (a ≠ b → completes (.outputGateCompare p a b) s parts (mismatched 4))
      ∧ completes (.outputGateTimeout p) s parts (mismatched 5))
    ∧ ((compared ∧ s.cpr.coupling = .shadow) →
      let c := fun k => { s.cpr with
        shadowClean := false, recorded := s.cpr.recorded ++ [(partNo p, k)], lastPart := partNo p, lastKind := k
        sigC := shownSigs s.cpr.curC }
      (a ≠ b → exec (.outputGateCompare p a b) s = .next { s with cpr := c 4 })
      ∧ exec (.outputGateTimeout p) s = .next { s with cpr := c 5 })
    ∧ ((¬ compared ∨ s.cpr.coupling = .split ∨ s.cpr.coupling = .copy) →
      (a ≠ b → exec (.outputGateCompare p a b) s = .next s) ∧ exec (.outputGateTimeout p) s = .next s)

/-- The agreed Spar status word (R274): its bits from 6 up are the OR of the two samples, bits 5 to 3 the AND, and a
sample that says TRIPPED wins the state field. AGREEMENT_READ (R273, R274, R282): both cores use one value, R274's of
the two samples while the pair compares, else the lead core's; two different samples of an input other than
the Spar status word and the time count as one disagreement; the stall brings the lag to 0. -/
def Obligations.AgreementReads : Prop :=
  (∀ a b : Word,
     (∀ i, 6 ≤ i → i < 32 → (agreeWord a b).getLsbD i = (a.getLsbD i || b.getLsbD i))
     ∧ (∀ i, 3 ≤ i → i < 6 → (agreeWord a b).getLsbD i = (a.getLsbD i && b.getLsbD i))
     ∧ (a.toNat % 8 = b.toNat % 8 → (agreeWord a b).toNat % 8 = a.toNat % 8)
     ∧ ((a.toNat % 8 = 4 ∨ b.toNat % 8 = 4) → (agreeWord a b).toNat % 8 = 4))
  ∧ (∀ (i : AgreeInput) (a b : Word) (s : State),
       (coresRun s = false → exec (.agreementRead i a b) s = .next s)
       ∧ (coresRun s = true → completes (.agreementRead i a b) s [.fresh, .cpr, .gtr] (fun t =>
         (i = .sparStatus →
           t.cpr.agreedWord = some (if agreementOn s then agreeWord a b else a) ∧ t.cpr.agreed = s.cpr.agreed)
         ∧ (i ≠ .sparStatus → t.cpr.agreedWord = s.cpr.agreedWord
           ∧ (∀ j, j ≠ i → agreedFor t j = agreedFor s j)
           ∧ ∃ v, agreedFor t i = some v
             ∧ (agreementOn s = false → v = a)
             ∧ (agreementOn s = true →
               (i = .pfail → v = a ||| b) ∧ (i = .vholdOk → v = a &&& b) ∧ (i = .sealOpen → v = a &&& b)
               ∧ (∀ c, i = .temperature c → v.toInt = max a.toInt b.toInt)
               ∧ (∀ c, i = .channelFaults c → v = a ||| b)
               ∧ (∀ c, i = .channelCurrent c → v.toNat = max a.toNat b.toNat)
               ∧ (i = .insulation → v.toNat = min a.toNat b.toNat) ∧ (i = .time → v = a)))
         ∧ (i ≠ .sparStatus → i ≠ .time → a ≠ b → agreementOn s = true → t.cpr.agree = satAdd 16 s.cpr.agree 1)
         ∧ ((a = b ∨ i = .time ∨ agreementOn s = false) → t.cpr.agree = s.cpr.agree)
         ∧ t.cpr.lagNow = (if agreementOn s then 0 else s.cpr.lagNow)
         ∧ t.cpr.run = s.cpr.run)))

/-- WATCHDOG (R278, R287): counted, kind 8, with the reaction of a protective mismatch, in a shadow course too; nothing
while the cores do not run, nor for the lag of a check core that does not follow (log entry 70).
CORE_PAIR_RESTART_COMPLETE (R279, R280, R391): a self-test passes where the null run raises nothing, every injected run
raises exactly its own difference for the partition it names, and the agreement run returns R274's value and raises
nothing; both cores and their memories are cleared; after a passed self-test the cores resume at the next edge, in a load
at once; a failed one is counted and repeats the restart once; the second failure halts both cores. -/
def Obligations.WatchdogAndRestart : Prop :=
  (∀ (c : WatchdogCause) (s : State),
     let off := coresRun s = false ∨ (c = .lagExceeded ∧ agreementOn s = false)
     (off → exec (.watchdog c) s = .next s)
     ∧ (¬ off → completes (.watchdog c) s
         [.fresh, .img, .bat, .owl, .est, .led, .pgr, .rdg, .cpr, .priv, .eav, .hst, .can, .gtr] (fun t =>
       reacted s t ∧ t.cpr.lastKind = 8 ∧ t.cpr.byWatchdog = satAdd 8 s.cpr.byWatchdog 1
       ∧ t.cpr.byMismatch = s.cpr.byMismatch)))
  ∧ (∀ x : SelfTest, firstFail x = none ↔
       x.null = [] ∧ x.regBit.raised = [(partNo x.regBit.named, 1)] ∧ x.pc.raised = [(partNo x.pc.named, 2)]
       ∧ x.count.raised = [(partNo x.count.named, 2)]
       ∧ x.sigs = [[(1, 3)], [(2, 3)], [(3, 3)], [(4, 3)], [(5, 3)], [(6, 3)], [(7, 3)], [(8, 3)]]
       ∧ x.gateData.raised = [(partNo x.gateData.named, 4)] ∧ x.gateLate.raised = [(partNo x.gateLate.named, 5)]
       ∧ x.lead ≠ x.check ∧ x.got = agreeValue x.input x.lead x.check ∧ x.agreement = []
       ∧ x.queue.raised = [(partNo x.queue.named, 6)])
  ∧ (∀ (s : State) (x : SelfTest),
       let cleared : Cpr := { s.cpr with lead := {}, check := {}, loads := [] }
       let failed : Cpr := { cleared with selfTest := false, selfFails := satAdd 8 s.cpr.selfFails 1 }
       (∀ n, s.cpr.run = .inReset n → firstFail x = none → exec (.corePairRestartComplete x) s = .next { s with
         priv := {}
         cpr := if s.cpr.loading then { cleared with selfTest := true, loading := false, run := .running, saved := partSave s }
           else { cleared with selfTest := true, resume := true } })
       ∧ (∀ n r, s.cpr.run = .inReset n → firstFail x = some r →
         completes (.corePairRestartComplete x) s [.fresh, .cpr, .priv, .gtr] (fun t =>
           t.priv = {} ∧ t.cpr = { failed with
             run := if n = 0 then .inReset 1 else .halted, loading := s.cpr.loading && n == 0 }))
       ∧ ((s.cpr.run = .halted ∨ s.cpr.run = .running) → exec (.corePairRestartComplete x) s = .next s))

/-- SPLIT, REJOIN, SPLIT_DURATION_EXPIRY and SPLIT_JOB_COMPLETE (R280 to R284): an order is answered with its result
code, and one accepted waits for batten 0; the last course's end asks for the rejoin; a job ends done once every page
of the ring has been asked for, or failed. DEBUG_INSTRUCTION and DEBUG_CHANGE (R285, R286, R287): all but IDCODE and
BYPASS act in Bench alone; a halt or a breakpoint stops the lead core where its trace ends, with the waiting changes
replayed; a read answers a word and changes nothing else; a change is made to the lead core and recorded with its
count for the replay while there is room for 256; a resumed core starts no slot before the next edge (R287). What IDCODE
and a read of the register map answer is a free value and a choice, and so is what a write to a register of the map does
there (log entry 70). -/
def Obligations.SplitAndDebug : Prop :=
  (∀ (who : Who) (job : BitVec 4) (d : BitVec 16) (s : State),
     let c := s.cpr
     let state := operating s = true ∧ (∀ k, k < nStr s → strState s k ≠ .precharge) ∧ s.img.stage ≠ .reloadPending
       ∧ s.cpr.coupling = .joined ∧ coresRun s = true
     let reaches := unconfigured s = false ∧ writeRole s who ≠ 0 ∧ s.cpr.run ≠ .halted
     (¬ reaches → exec (.split who job d) s = .next s ∧ exec (.rejoin who) s = .next s)
     ∧ (reaches → isMaintain s who = false →
       exec (.split who job d) s = .next { s with cpr := { c with splitRes := 2 } }
       ∧ exec (.rejoin who) s = .next { s with cpr := { c with splitRes := 2 } })
     ∧ (reaches → isMaintain s who = true →
       (¬ state → exec (.split who job d) s = .next { s with cpr := { c with splitRes := 3 } })
       ∧ (state → (job ≠ 1 ∨ d = 0) → exec (.split who job d) s = .next { s with cpr := { c with splitRes := 4 } })
       ∧ (state → d ≠ 0 → exec (.split who 1 d) s
         = .next { s with cpr := { c with splitRes := 1, splitDue := some (1, d.toNat) } })
       ∧ (c.coupling ≠ .split → exec (.rejoin who) s = .next { s with cpr := { c with splitRes := 3 } })
       ∧ (c.coupling = .split → exec (.rejoin who) s = .next { s with cpr := { c with splitRes := 1, rejoinDue := true } }))
     ∧ ((c.coupling = .split ∧ c.coursesLeft ≤ 1) →
       exec .splitDurationExpiry s = .next { s with cpr := { c with rejoinDue := true } })
     ∧ ((c.coupling ≠ .split ∨ 1 < c.coursesLeft) → exec .splitDurationExpiry s = .next s)
     ∧ ((c.job = 1 ∧ c.coupling = .split) →
       exec (.splitJobComplete false) s = .next { s with cpr := { c with job := 3 } }
       ∧ (3136 + c.jobPage < ringEnd s → exec (.splitJobComplete true) s = .next s)
       ∧ (ringEnd s ≤ 3136 + c.jobPage →
         completes (.splitJobComplete true) s [.cpr] (fun t => t.cpr.job = 2 ∧ t.cpr.jobRes.length = 4 * nCells s)))
     ∧ ((c.job ≠ 1 ∨ c.coupling ≠ .split) → ∀ ok, exec (.splitJobComplete ok) s = .next s))
  ∧ (∀ (s : State) (e : DebugEdit) (l k : CoreTrace) (r : Fin 8),
       let c := s.cpr
       let answered := fun (w : Word) => { s with cpr := { c with dbgOut := some w } }
       let stops := fun (op : DebugOp) => completes (.debugInstruction op) s [.cpr, .priv] (fun t =>
         t.cpr.dbgHalted = true ∧ t.cpr.lead.pc = l.pc ∧ t.cpr.lead.regs = regFile l ∧ t.cpr.dbgWaiting = []
         ∧ t.cpr.dbgReplayed = satAdd 16 c.dbgReplayed c.dbgWaiting.length ∧ t.cpr.run = c.run)
       let room := inBench s = true ∧ c.dbgOn = true ∧ c.dbgWaiting.length < 256
       exec (.debugInstruction .idcode) s
         = .next { s with fresh := s.fresh + 1, cpr := { c with dbgOut := some (Config.debugIdcode s.fresh) } }
       ∧ exec (.debugInstruction .bypass) s = .next s
       ∧ (inBench s = false → ∀ op, op ≠ .idcode → exec (.debugInstruction op) s = .next s)
       ∧ (inBench s = true →
         exec (.debugInstruction .attach) s = .next { s with cpr := { c with dbgOn := true } }
         ∧ ((c.dbgOn = true ∧ coresRun s = true) → stops (.halt l k r)
           ∧ (l.pc ∈ c.breakpoints → stops (.breakpointHit l k r))
           ∧ (l.pc ∉ c.breakpoints → exec (.debugInstruction (.breakpointHit l k r)) s = .next s))
         ∧ ((c.dbgOn = false ∨ coresRun s = false) →
           exec (.debugInstruction (.halt l k r)) s = .next s
           ∧ exec (.debugInstruction (.breakpointHit l k r)) s = .next s)
         ∧ (c.dbgHalted = true → exec (.debugInstruction .resume) s
           = .next { s with cpr := { c with dbgHalted := false, resume := true }, bat := { s.bat with ended := true } })
         ∧ (c.dbgHalted = false → exec (.debugInstruction .resume) s = .next s)
         ∧ (∀ a, completes (.debugInstruction (.setBreakpoint a)) s [.cpr] (fun t =>
             t.cpr = { c with breakpoints := t.cpr.breakpoints } ∧ ∀ x, x ∈ t.cpr.breakpoints ↔ x = a ∨ x ∈ c.breakpoints))
         ∧ (∀ a, completes (.debugInstruction (.clearBreakpoint a)) s [.cpr] (fun t =>
             t.cpr = { c with breakpoints := t.cpr.breakpoints } ∧ ∀ x, x ∈ t.cpr.breakpoints ↔ x ≠ a ∧ x ∈ c.breakpoints))
         ∧ (∀ i : Fin 32, exec (.debugInstruction (.readCore i)) s = .next (answered (vget c.lead.regs i.val)))
         ∧ exec (.debugInstruction .readPc) s = .next (answered c.lead.pc)
         ∧ (∀ off, exec (.debugInstruction (.readPrivate off)) s
             = .next (answered (BitVec.ofNat 32 (leNat (memGets ramBlank s.priv.lead off.toNat 4)))))
         ∧ (∀ a, completes (.debugInstruction (.readRegister a)) s [.fresh, .cpr] (fun t =>
             t.cpr = { c with dbgOut := t.cpr.dbgOut } ∧ t.cpr.dbgOut ≠ none)))
       ∧ (room → (∀ a v, e ≠ .memWrite a v) → completes (.debugChange e) s [.cpr, .priv] (fun t =>
           t.cpr.dbgWaiting = c.dbgWaiting ++ [(c.lead.retired, e)] ∧ t.cpr.check = c.check
           ∧ t.priv.check = s.priv.check ∧ t.cpr.curC = c.curC
           ∧ (∀ (i : Fin 32) (v : Word), e = .regWrite i v → i ≠ 0 →
               vget t.cpr.lead.regs i.val = v ∧ ∀ j : Fin 32, j ≠ i → vget t.cpr.lead.regs j.val = vget c.lead.regs j.val)
           ∧ (∀ v, e = .pcWrite v → t.cpr.lead.pc = v ∧ t.cpr.lead.regs = c.lead.regs)
           ∧ (∀ off v, e = .privWrite off v → memSafe s →
               memGets ramBlank t.priv.lead off.toNat 4 = natLe 4 v.toNat ∧ t.cpr.lead = c.lead)))
       ∧ (room → ∀ a v, e = .memWrite a v →
           ∃ sig, exec (.debugChange e) s = exec (.registerWrite .gable a v) { s with cpr := { c with
             curL := sig, dbgWaiting := c.dbgWaiting ++ [(c.lead.retired, e)] } })
       ∧ (¬ room → exec (.debugChange e) s = .next s))

/-- CHECKPOINT_A (R269, R272, R275, R276, R283, R417): after slot 7 alone; a checkpoint of the joined pair that finds
nothing is recorded, saves both register files, commits the journals, lets the waiting event entries out and starts
the signatures anew; one that finds a single difference of a protective partition brings the protective reaction; a
single one of a restartable partition puts both cores back to what was saved and lets them resume at the next edge;
in a shadow course what is found is only recorded. CLOSING_CHECKPOINT (R33, R271, R272, R383): after slot 8 no
further work starts in the batten, nothing runs, and the module is not in Run when the cores Doze; a joined pair that
shows no difference has its clean checkpoint recorded, and the NOR writes of staging leave. -/
def Obligations.Checkpoints : Prop :=
  (∀ (o : CheckObs) (s : State),
     let runs := slotsRun s = true ∧ slotNext s 8 = true
     let init := Vector.replicate 8 0xFFFFFFFF#32
     (¬ runs → exec (.checkpointA o) s = .next s)
     ∧ ((runs ∧ s.cpr.coupling = .joined) →
       (found s o = [] → completes (.checkpointA o) s [.bat, .cpr, .priv, .gtr] (fun t =>
         t.cpr.cleanBatten = s.bat.num % 2 ^ 24 ∧ t.cpr.cleanClosing = false ∧ t.cpr.recorded = []
         ∧ t.cpr.curL = init ∧ t.cpr.curC = init
         ∧ t.cpr.lag = o.lag.toNat ∧ t.cpr.lagNow = o.lag.toNat ∧ t.gtr.held = [] ∧ t.bat.worked = []
         ∧ t.bat.fixedDone = 9 ∧ t.cpr.run = s.cpr.run
         ∧ t.cpr.lead.regs = regFile o.lead ∧ t.cpr.lead.savedRegs = regFile o.lead ∧ t.cpr.lead.pc = o.lead.pc
         ∧ t.cpr.lead.journal = [] ∧ t.cpr.check.journal = [] ∧ t.cpr.check.savedRegs = t.cpr.check.regs))
       ∧ ∀ p k, found s o = [(p, k)] →
         (protectivePart s p = true → completes (.checkpointA o) s
           [.fresh, .img, .bat, .owl, .est, .led, .pgr, .rdg, .cpr, .priv, .eav, .hst, .can, .gtr] (fun t =>
             reacted s t ∧ t.cpr.lastPart = p ∧ t.cpr.lastKind = k))
         ∧ (protectivePart s p = false → overflowed s o = false →
             (s.cpr.recent.filter (fun b => s.bat.num ≤ b + 1000)).length < 2 →
           completes (.checkpointA o) s [.fresh, .img, .bat, .est, .led, .pgr, .cpr, .priv, .hst, .gtr] (fun t =>
             t.cpr.run = s.cpr.run ∧ t.cpr.resume = true ∧ t.cpr.lastPart = p ∧ t.cpr.lastKind = k
             ∧ t.cpr.restartable = satAdd 16 s.cpr.restartable 1 ∧ t.bat.todo = []
             ∧ t.cpr.lead.regs = s.cpr.lead.savedRegs ∧ t.cpr.check.regs = s.cpr.check.savedRegs
             ∧ ∀ j ∈ t.cpr.lead.journal, j.part ≠ p)))
     ∧ ((runs ∧ s.cpr.coupling = .shadow ∧ found s o ≠ []) →
       completes (.checkpointA o) s [.bat, .cpr, .priv, .gtr] (fun t =>
         t.cpr.shadowClean = false ∧ t.cpr.run = s.cpr.run ∧ t.cpr.coupling = .shadow
         ∧ t.cpr.protective = s.cpr.protective ∧ t.cpr.restartable = s.cpr.restartable
         ∧ t.cpr.cleanBatten = s.cpr.cleanBatten)))
  ∧ (∀ (cycle : Nat) (o : CheckObs) (s : State), cycle < 240000 →
       let runs := slotsRun s = true ∧ slotNext s 9 = true
       (¬ runs → exec (.closingCheckpoint cycle o) s = .next s)
       ∧ (runs → completes (.closingCheckpoint cycle o) s
           [.fresh, .nor, .psram, .img, .bat, .owl, .est, .led, .pgr, .rdg, .spar, .cpr, .priv, .eav, .hst, .can, .pwr, .cdc,
             .gtr] (fun t =>
         t.bat.todo = [] ∧ t.bat.running = none ∧ t.bat.pausing = false ∧ t.pwr.power ≠ .run
         ∧ (s.cpr.coupling = .joined → found s o = [] →
           t.cpr.cleanBatten = s.bat.num % 2 ^ 24 ∧ t.cpr.cleanClosing = true ∧ t.cpr.recorded = []
           ∧ t.img.norHeld = [] ∧ t.img.norSaved = none ∧ t.cpr.run = s.cpr.run))))

/-- A cycle operand outside the batten's 240 000 (R25) names no cycle of it: SLOT_ENTRY_START and CLOSING_CHECKPOINT stop
there (the model's reading, log entry 41). A debug instruction code that R285 does not list stops in Bench, where the debug
unit would take it (the model's choice, log entry 42). -/
def Obligations.NamedStops : Prop :=
  ∀ s : State,
    (∀ cycle adc, 240000 ≤ cycle → exec (.slotEntryStart cycle adc) s = .fault .noSuchCycle)
    ∧ (∀ cycle o, 240000 ≤ cycle → exec (.closingCheckpoint cycle o) s = .fault .noSuchCycle)
    ∧ ∀ code, inBench s = true → exec (.debugInstruction (.other code)) s = .refused (.debugUnit code)

/-! ## The batten -/

/-- BATTEN_EDGE (R25, R26, R33, R80, R82, R391, R406): the batten's number is one more than the last, but for an image's
or a wake's first edge; the all-off word halts the cores, an armed reload starts the restart at batten 0 of a course,
and where Bench is left at this edge (the model's reading, log entry 31); otherwise the batten begins at cycle 0 in Run
with the bulk window closed, every exchange open and the orders of the last batten taken, and where the cores run an
entry due in its own batten runs once, with a deferral count of 0 and no earlier instance pending (R35). Without an
image, before the core pair's restart of a load has ended, in Dormant and Ship, in a halt and in a restart no edge
comes. -/
def Obligations.BattenEdges : Prop :=
  ∀ s : State,
    let none_ := unconfigured s = true ∨ mapUp s = false ∨ s.pwr.halted = true ∨ s.img.restarting = true
      ∨ s.cpr.loading = true
    let n := if s.bat.first then s.bat.num else s.bat.num + 1
    let restarts := restartArmed s = true ∧ (n % 10 = 0 ∨ s.img.benchExit = true)
    (none_ → exec .battenEdge s = .next s)
    ∧ (¬ none_ → completes .battenEdge s
        [.fresh, .img, .bat, .owl, .tha, .est, .led, .pgr, .rdg, .spar, .cpr, .priv, .eav, .hst, .can, .vrg, .fbk, .pwr, .cdc,
          .gtr] (fun t =>
      t.bat.num = n ∧ t.bat.first = false
      ∧ ((s.pwr.offSent = false ∧ restarts) →
        t.img.restarting = true ∧ t.bat.todo = [])
      ∧ (s.pwr.offSent = true → t.pwr.halted = true ∧ t.bat.todo = [])
      ∧ ((s.pwr.offSent = false ∧ ¬ restarts) →
        t.bat.cycle = 0 ∧ t.bat.running = none ∧ t.pwr.power = .run ∧ t.pwr.halted = false ∧ (s.cpr.coupling ≠ .shadow → t.img = s.img)
        ∧ t.owl.bulkOpen = false ∧ t.rdg.evaluated = false ∧ t.rdg.incoming = []
        ∧ ∀ p, p < 32 → p ∈ usedPorts s → (portOf t p).exch = .pending ∧ (portOf t p).meas = none)
      ∧ (coresRun t = true → t.bat.deferred = [] ∧ ∀ e ∈ t.cfg.schedule, e.cls = 2 → maskBit e.mask (phaseOf t) = true →
          ⟨e.id, 0, false, n, false⟩ ∈ t.bat.todo ∧ ∀ w ∈ t.bat.todo, w.slot = e.id → w.count = 0 ∧ w.carried = false)))

/-- SLOT_ENTRY_START (R33, R34, R44): what runs ends at the cycle given; the piece at the front starts when it is critical, or
deferrable with no throttle pause due and its WCET before the ceiling, and its task acts then, but for an instance resumed
where it stopped (the model's reading, log entry 43): HOST_RESERVED forms its session's RESULTs first and serves its requests
up to the capacity (R322, R323); HOST_POOL turns away those past their GUARANTEE and serves up to the capacity (R324);
GUTTER_ROUTE takes the Gutter to its end, HIST_PAGE the staged frames, PAGE_DEMAND its transfers, HOUSEKEEPING a rail (R206,
R209, R313, R402). A deferrable piece that would end after the ceiling is deferred and counted while its MAXDEFER allows;
from the ceiling on nothing starts.
SLOT_WCET_REACHED and FIXED_SLOT_DEADLINE_MISS (R36, R38): a critical piece at its WCET is stopped and counted, demand-driven
work ends, other deferrable work is counted and goes on; a fixed slot's miss ends the batten's work with the protective
reaction of its partition, noted as a kind the model leaves open (log entry 48). -/
def Obligations.SlotEntriesAndOverruns : Prop :=
  (∀ (cycle : Nat) (adc : AdcSample) (s : State), cycle < 240000 →
     let runs := slotsRun s = true ∧ s.bat.pausing = false ∧ slotNext s 9 = true
     (¬ runs → exec (.slotEntryStart cycle adc) s = .next s)
     ∧ (runs →
       (s.bat.todo = [] → completes (.slotEntryStart cycle adc) s [.bat, .pgr, .pwr] (fun t =>
         t.bat.running = none ∧ t.bat.cycle = cycle ∧ t.bat.todo = []
         ∧ t.bat.peak = (if s.bat.running.isSome then max s.bat.peak cycle else s.bat.peak)
         ∧ t.pwr = { s.pwr with power := .run }))
       ∧ (∀ w rest, s.bat.todo = w :: rest → cycle < ceilingCycle →
           (isDeferrable s w = false ∨ (pauseDue s = false ∧ cycle + (workEntry s w).wcet ≤ ceilingCycle)) →
           let e := workEntry s w
           let begun := fun t : State =>
             t.bat.running = some w ∧ t.bat.todo = rest ∧ t.bat.cycle = cycle ∧ t.bat.num = s.bat.num
           (w.ran = true → completes (.slotEntryStart cycle adc) s [.bat, .pgr, .pwr] begun)
           ∧ (w.ran = false → e.task ≠ 1 → e.task ≠ 2 → completes (.slotEntryStart cycle adc) s
               [.fresh, .psram, .bat, .owl, .tha, .est, .led, .pgr, .cpr, .hst, .pwr, .gtr] (fun t =>
             begun t
             ∧ (e.task = 4 → t.gtr = { s.gtr with routed := s.gtr.total })
             ∧ (e.task = 5 → s.pgr.psramOk = true → t.pgr.seconds = [] ∧ t.pgr.frames = [])
             ∧ (e.task = 6 → t.pgr = { s.pgr with budget := e.wcet / 4192 })
             ∧ (e.task = 10 → 6 ≤ courseOf s % 10 → ∀ lead check, adc = .ok lead check →
               t.pwr = { s.pwr with
                 power := .run, rails := vset s.pwr.rails (courseOf s % 10 - 6) (satTo 16 lead.toNat) })))
           ∧ (w.ran = false → e.task = 1 → ∀ n : Fin 8, n.val = e.inst →
             let owed := s.hst.results.filter (fun x => x.n == n)
             let turn := (s.hst.queue.filter (fun x => !x.pool && x.who == .session n)).take (capacity e - owed.length)
             (∀ x ∈ turn, ∀ a c m d, x.body ≠ .write a c m d) → completes (.slotEntryStart cycle adc) s
               [.fresh, .bat, .owl, .est, .led, .pgr, .rdg, .cpr, .eav, .hst, .can, .vrg, .fbk, .pwr, .cdc, .gtr] (fun t =>
               begun t ∧ t.hst.results = s.hst.results.filter (fun x => x.n != n)
               ∧ t.hst.queue = turn.foldl List.erase s.hst.queue
               ∧ (wordsWait s 6 = true → (t.hst.release.drop s.hst.release.length).map (fun x => (x.1.kind, x.1.seq))
                 = owed.map (fun x => (kindRESULT, x.seq)) ++ turn.map (fun x => (kindREPLY, x.seq)))))
           ∧ (w.ran = false → e.task = 2 →
             let late := s.hst.queue.filter (fun x => x.pool && overdue s x)
             let left := late.foldl List.erase s.hst.queue
             let turn := (left.filter (·.pool)).take (capacity e)
             (∀ x ∈ turn, ∀ a c m d, x.body ≠ .write a c m d) → completes (.slotEntryStart cycle adc) s
               [.fresh, .bat, .owl, .est, .led, .pgr, .rdg, .cpr, .eav, .hst, .can, .vrg, .fbk, .pwr, .cdc, .gtr] (fun t =>
               begun t ∧ t.hst.queue = turn.foldl List.erase left
               ∧ (wordsWait s 6 = true → (t.hst.release.drop s.hst.release.length).map (fun x => (x.1.kind, x.1.seq))
                 = turn.map (fun x => (kindREPLY, x.seq))))))
       ∧ (∀ w, s.bat.todo = [w] → cycle < ceilingCycle → isDeferrable s w = true → pauseDue s = false →
           ceilingCycle < cycle + (workEntry s w).wcet → w.count + 1 ≤ (workEntry s w).maxDefer →
           completes (.slotEntryStart cycle adc) s [.bat, .pgr, .pwr] (fun t =>
             t.bat.running = none ∧ t.bat.todo = [] ∧ t.bat.deferCnt = satAdd 16 s.bat.deferCnt 1
             ∧ t.bat.deferred = s.bat.deferred ++ [{ w with count := w.count + 1, carried := true }]))
       ∧ (ceilingCycle ≤ cycle → completes (.slotEntryStart cycle adc) s [.fresh, .bat, .pgr, .hst, .pwr, .gtr] (fun t =>
           t.bat.running = none ∧ t.bat.todo = [] ∧ t.bat.cycle = cycle))))
  ∧ (∀ s : State,
       ((slotsRun s = false ∨ s.bat.running = none) → exec .slotWcetReached s = .next s)
       ∧ (∀ w, slotsRun s = true → s.bat.running = some w →
         (isDeferrable s w = false → (s.bat.overRuns.find? (fun x => x.1 == w.slot)) = none →
           completes .slotWcetReached s [.fresh, .bat, .gtr] (fun t =>
             t.bat.running = none ∧ t.bat.overrunCnt = satAdd 16 s.bat.overrunCnt 1 ∧ (w.slot, 1) ∈ t.bat.overRuns
             ∧ w.slot ∈ t.bat.unfinished ∧ t.bat.todo = s.bat.todo))
         ∧ (isDeferrable s w = true → demandDriven (workEntry s w).task = true → completes .slotWcetReached s [.bat, .pgr] (fun t =>
             t.bat = { s.bat with running := none }
             ∧ ((workEntry s w).task = 6 → t.pgr = { s.pgr with budget := 0 })
             ∧ ((workEntry s w).task ≠ 6 → t.pgr = s.pgr)))
         ∧ (isDeferrable s w = true → demandDriven (workEntry s w).task = false →
           completes .slotWcetReached s [.fresh, .bat, .gtr] (fun t =>
             t.bat = { s.bat with overrunCnt := satAdd 16 s.bat.overrunCnt 1 })))
       ∧ ∀ i : Fin 9,
         let missed := slotsRun s = true ∧ s.bat.fixedDone ≤ i.val
         let noted := fun t : State =>
           (i.val < 8 → t.cpr.lastPart = (fixedPart s i.val).1) ∧ 1 ≤ t.cpr.lastPart ∧ t.cpr.lastPart ≤ 8
           ∧ 1 ≤ t.cpr.lastKind ∧ t.cpr.lastKind ≤ 8
         (¬ missed → exec (.fixedSlotDeadlineMiss i) s = .next s)
         ∧ (missed → s.cpr.coupling ≠ .shadow → completes (.fixedSlotDeadlineMiss i) s
             [.fresh, .img, .bat, .owl, .est, .led, .pgr, .rdg, .cpr, .priv, .eav, .hst, .can, .gtr] (fun t =>
           t.bat.ended = true ∧ reacted s t ∧ noted t ∧ t.cpr.byMismatch = satAdd 8 s.cpr.byMismatch 1))
         ∧ (missed → s.cpr.coupling = .shadow → completes (.fixedSlotDeadlineMiss i) s [.fresh, .bat, .cpr] (fun t =>
           t.bat.ended = true ∧ noted t ∧ t.cpr.run = s.cpr.run ∧ t.cpr.protective = s.cpr.protective
           ∧ t.cpr.shadowClean = false)))

/-- CEILING_REACHED, THROTTLE_PAUSE_END and DOZE_WAKE (R33, R34, R37, R38, R44, R383): at the ceiling what runs is
suspended and the rest is deferred: every deferrable piece within its MAXDEFER, and none that is critical, waits for
a later batten, a suspended one with its task marked as run (the model's reading, log entry 43); a pause ends and the work
goes on; the cores wake from Doze. -/
def Obligations.CeilingPauseDoze : Prop :=
  ∀ s : State,
    let within := fun (w : Work) => isDeferrable s w = true ∧ w.count + 1 ≤ (workEntry s w).maxDefer
    (slotsRun s = false → exec .ceilingReached s = .next s)
    ∧ (slotsRun s = true → completes .ceilingReached s [.fresh, .bat, .hst, .gtr] (fun t =>
      t.bat.running = none ∧ t.bat.todo = [] ∧ t.bat.pausing = false ∧ t.bat.cycle = 211200
      ∧ t.bat.peak = (if s.bat.running.isSome then max s.bat.peak 211200 else s.bat.peak)
      ∧ (∀ w ∈ s.bat.deferred, w ∈ t.bat.deferred)
      ∧ (∀ w, s.bat.running = some w → within w → { w with ran := true, count := w.count + 1, carried := true } ∈ t.bat.deferred)
      ∧ (∀ w ∈ s.bat.todo, within w → { w with count := w.count + 1, carried := true } ∈ t.bat.deferred)
      ∧ (∀ w ∈ t.bat.deferred, w ∈ s.bat.deferred ∨ isDeferrable s w = true)))
    ∧ (s.bat.pausing = true →
      let b : Bat := { s.bat with pausing := false, pauseTaken := true }
      let p : Pwr := { s.pwr with power := .run }
      exec .throttlePauseEnd s = .next { s with bat := b, pwr := p })
    ∧ (s.bat.pausing = false → exec .throttlePauseEnd s = .next s)
    ∧ (s.pwr.power = .doze → exec .dozeWake s = .next { s with pwr := { s.pwr with power := .run } })
    ∧ (s.pwr.power ≠ .doze → exec .dozeWake s = .next s)

/-- PTP_SYNC_RECEIVED (R39, R40, R41, R333, R336): a Sync of an accepted master is noted on its port; one from the port
in use with a grandmaster is a measurement: offset and frequency estimate are taken, the trim stays within ±60 ppm, an
offset above 1 µs leaves LOCKED and the fourth within it in a row reaches it. PTP_ANNOUNCE_RECEIVED, SYNC_LOSS_TIMEOUT,
PDELAY_TIMER and PDELAY_MESSAGE_RECEIVED (R40, R42, R333): the Announce a port holds, which lapses after three intervals of
1 s (presumed, log entry 26); 3 s without a usable Sync are HOLDOVER with the trim at the last estimate, and the grandmaster
is dropped (the model's choice, log entry 65); requests leave on each port that can send, are answered, and a response
gives the port's path delay. -/
def Obligations.PtpEvents : Prop :=
  (∀ (m : SyncMeas) (s : State),
     let off := ptpOn s = false ∨ netHears s = false ∨ portUsed s m.port = false ∨ syncKnown s m = false
     (off → exec (.ptpSyncReceived m) s = .next s)
     ∧ (¬ off → completes (.ptpSyncReceived m) s [.fresh, .bat, .hst, .gtr] (fun t =>
       (m.port = .netA → t.hst.syncA = some s.bat.num) ∧ (m.port = .netB → t.hst.syncB = some s.bat.num)
       ∧ t.bat.num = s.bat.num
       ∧ (s.hst.gm ≠ none → s.hst.ptpPort = ptpCode m.port → (s.bat.sync = .acquiring ∨ s.bat.sync = .locked) →
         t.bat.offset = m.offset ∧ t.bat.freqEst = holdTrim m.freq ∧ -6000 ≤ t.bat.trim ∧ t.bat.trim ≤ 6000
         ∧ t.hst.syncAt = s.bat.num ∧ t.bat.utc = some (s.bat.num, m.edge)
         ∧ (1000 < absI m.offset → t.bat.sync = .acquiring ∧ t.bat.goodRun = 0)
         ∧ (absI m.offset ≤ 1000 → s.bat.sync = .locked → t.bat.sync = .locked)
         ∧ (absI m.offset ≤ 1000 → s.bat.sync = .acquiring →
             t.bat.sync = if 3 ≤ s.bat.goodRun then .locked else .acquiring)))))
  ∧ (∀ s : State,
       (∀ a : Announce,
         let off := ptpOn s = false ∨ netHears s = false ∨ portUsed s a.port = false ∨ a.domain.toNat ≠ (netRec s).domain
         (off → exec (.ptpAnnounceReceived a) s = .next s)
         ∧ (¬ off → completes (.ptpAnnounceReceived a) s [.fresh, .bat, .hst, .gtr] (fun t =>
           (a.port = .netA → t.hst.gmA = holdAnnounce (liveAnnounce s .netA) a ∧ t.hst.gmB = s.hst.gmB)
           ∧ (a.port = .netB → t.hst.gmB = holdAnnounce (liveAnnounce s .netB) a ∧ t.hst.gmA = s.hst.gmA))))
       ∧ (let due := (s.bat.sync = .locked ∨ s.bat.sync = .acquiring) ∧ s.hst.syncAt + 3000 ≤ s.bat.num
         (due → completes .syncLossTimeout s [.fresh, .bat, .hst, .gtr] (fun t =>
           t.bat.sync = .holdover ∧ t.bat.trim = s.bat.freqEst ∧ t.bat.holdMs = 0 ∧ t.hst.gm = none))
         ∧ (¬ due → exec .syncLossTimeout s = .next s))
       ∧ (ptpOn s = false → exec .pdelayTimer s = .next s)
       ∧ (ptpOn s = true →
         let l := (if portSends s .netA then [SentFrame.mk (.pdelayReq .netA) none] else [])
           ++ (if portSends s .netB then [SentFrame.mk (.pdelayReq .netB) none] else [])
         exec .pdelayTimer s = .next { s with hst := { s.hst with netSent := s.hst.netSent ++ l } })
       ∧ ∀ (p : NetPort) (d : Nat),
         let off := ptpOn s = false ∨ netHears s = false ∨ portUsed s p = false
         (off → ∀ m, exec (.pdelayMessageReceived p m) s = .next s)
         ∧ (¬ off →
           exec (.pdelayMessageReceived p (.response d)) s = .next (match p with
             | .netA => { s with hst := { s.hst with pdelayA := d } }
             | .netB => { s with hst := { s.hst with pdelayB := d } })
           ∧ (portSends s p = true → exec (.pdelayMessageReceived p .request) s
             = .next { s with hst := { s.hst with netSent := s.hst.netSent ++ [⟨.pdelayResp p, none⟩] } })
           ∧ (portSends s p = false → exec (.pdelayMessageReceived p .request) s = .next s)))

/-! ## Hosts, networks, CAN -/

/-- A host's frame on a network port (R308, R314, R315, R319, R321, R332): unheard where the port does not receive;
discarded by PRP as a duplicate, or as no datagram for the module; counted as discarded with a wrong CRC or from no
session's peer; refused with the status of the first test that fails and counted, DUPLICATE with the GUARANTEE given
before; a window READ whose pages are not resident is refused. The row that brings the frame does not matter, its
octets do (the model's reading, log entry 55), and what is no datagram of the module is counted nowhere (the model's choice,
log entry 68). An OPEN, END, NOP, WRITE or READ that passes Purlin's tests and finds room in its session's reserved share
(R319, R320, R323) is queued behind what waits, answered with ACCEPT, and noted for the session with its SEQ. -/
def Obligations.HostFramesJudged : Prop :=
  (∀ (f : HostFrame) (s : State), f.via ≠ .gable →
     ∀ c ∈ [Instr.sessionOpen f, .sessionEnd f, .readRequest f, .writeRequest f, .eventAck f, .nopRequest f],
     let m := reqMsg f.octets
     let (u, kept) := prpHear s (f.via == .netB) f.mac f.trailer
     let heard := hears s (netPortOf f)
     let mine := kept = true ∧ datagramOk u f = true
     (¬ heard → exec c s = .next s)
     ∧ (heard → ¬ mine → exec c s = .next u)
     ∧ (heard → mine → (msgCrcOk f.octets = false ∨ writerOf u f = none) →
         exec c s = .next { u with hst := { u.hst with discarded := satAdd 16 u.hst.discarded 1 } })
     ∧ (heard → mine → msgCrcOk f.octets = true → ∀ who, writerOf u f = some who →
         (∀ st, firstRefusal u who f.via f.octets.length m = some st →
           let was := (((seqsOf u who).find? (fun x => x.1 == m.seq)).map (·.2)).getD 0
           completes c s [.hst] (fun t =>
             t.hst.refused = satAdd 16 u.hst.refused 1 ∧ t.hst.queue = u.hst.queue ∧ t.hst.sess = u.hst.sess
             ∧ (overNet u who → t.hst.sent = u.hst.sent ++ [message u who kindREFUSE m.seq st
                 (if st = stDUPLICATE then was else s.bat.num % 2 ^ 32) []])))
         ∧ (firstRefusal u who f.via f.octets.length m = none → haltedReset u who f.via m = false →
           (windowPages m).all (resident u) = false →
           completes c s [.pgr, .hst] (fun t =>
             t.hst.refused = satAdd 16 u.hst.refused 1 ∧ t.hst.queue = u.hst.queue ∧ t.hst.sess = u.hst.sess
             ∧ (t.pgr.missFull = s.pgr.missFull ∨ t.pgr.missRes = s.pgr.missRes)
             ∧ (overNet u who → ∃ st, (st = stNOTRESIDENT ∨ st = stQUEUEFULL)
                 ∧ t.hst.sent = u.hst.sent ++ [message u who kindREFUSE m.seq st (s.bat.num % 2 ^ 32) []])))))
  ∧ (∀ (f : HostFrame) (n : Fin 8) (s : State),
       ∀ c ∈ [Instr.sessionOpen f, .sessionEnd f, .readRequest f, .writeRequest f, .eventAck f, .nopRequest f],
       let m := reqMsg f.octets
       let (u, kept) := prpHear s (f.via == .netB) f.mac f.trailer
       f.via ≠ .gable → hears s (netPortOf f) → kept = true → datagramOk u f = true → msgCrcOk f.octets = true →
       writerOf u f = some (.session n) → firstRefusal u (.session n) f.via f.octets.length m = none →
       s.cpr.run = .running → m.kind ≠ 5 → isOrder m = false →
       (windowPages m).all (resident u) = true → (hostPins u).length < 8 →
       resHeld u n < (sessOf u n).defn.reserve →
       completes c s [.pgr, .hst] (fun t =>
         (windowPages m = [] → t.pgr = s.pgr)
         ∧ ∃ g, t.hst.queue = u.hst.queue ++ [⟨.session n, m.seq, bodyOf m, g, false, f.via⟩]
           ∧ (sessOf t n).lastReq = s.bat.num ∧ (sessOf t n).seqs.head? = some (m.seq, g)
           ∧ (overNet u (.session n) → t.hst.sent = u.hst.sent ++ [{ message u (.session n) kindACCEPT m.seq 0
               (s.bat.num % 2 ^ 32) (natLe 4 g ++ [1#8, 0#8, 0#8, 0#8]) with mac := some f.mac }])
           ∧ t.hst.refused = u.hst.refused ∧ t.hst.discarded = u.hst.discarded))

/-- An order that passes Purlin's tests and finds room (R218, R320, R325) is latched for the coming edge and ends the
quiet time; an EVENT_ACK of the outstanding EVENT's SEQ acts at once; the kind of a message's octets decides, whichever
row brings them (the model's reading, log entry 55). EVENT_RESEND_TIMEOUT and SESSION_IDLE_TIMEOUT (R313, R329): an
EVENT unacknowledged for 100 battens is sent again three times, to the MAC of the last accepted request (R314), then its
delivery stops; a session without an accepted request for 60 000 battens has its delivery stopped. -/
def Obligations.HostOrdersAndDelivery : Prop :=
  (∀ (f : HostFrame) (n : Fin 8) (s : State),
     ∀ c ∈ [Instr.sessionOpen f, .sessionEnd f, .readRequest f, .writeRequest f, .eventAck f, .nopRequest f],
     let m := reqMsg f.octets
     let (u, kept) := prpHear s (f.via == .netB) f.mac f.trailer
     f.via ≠ .gable → hears s (netPortOf f) → kept = true → datagramOk u f = true → msgCrcOk f.octets = true →
     writerOf u f = some (.session n) → firstRefusal u (.session n) f.via f.octets.length m = none →
     s.cpr.run = .running →
     (isOrder m = true → coresRun s = true → s.rdg.incoming.any (fun o => o.src == some n) = false →
       resHeld u n < (sessOf u n).defn.reserve →
       completes c s [.rdg, .hst, .pwr] (fun t =>
         t.rdg = { s.rdg with incoming := s.rdg.incoming ++ [orderOf n ((reqData m).headD 0).toNat m.seq true false] }
         ∧ t.pwr = { s.pwr with quietMs := 0 } ∧ t.hst.queue = u.hst.queue))
     ∧ (m.kind = 5 → ∀ e k b r, (sessOf s n).outstanding = some (e, k, b, r) → e.seq = fieldLe m.body 0 2 →
       completes c s [.hst] (fun t =>
         (sessOf t n).outstanding = none ∧ (sessOf t n).routed = (sessOf s n).routed.drop k
         ∧ (sessOf t n).evtSeq = ((sessOf s n).evtSeq + 1) % 65536)))
  ∧ (∀ (n : Fin 8) (s : State),
       let x := sessOf s n
       (∀ m k b r, x.outstanding = some (m, k, some b, r) →
         (s.bat.num < b + 100 → exec (.eventResendTimeout n) s = .next s)
         ∧ (b + 100 ≤ s.bat.num → r < 3 → completes (.eventResendTimeout n) s [.hst] (fun t =>
           (sessOf t n).outstanding = some (m, k, some s.bat.num, r + 1)
           ∧ (m.via ≠ .gable → s.pwr.last = false → t.hst.sent = s.hst.sent ++ [{ m with trailer := (takeTrailer s).1, mac := peerMac s m.who }])
           ∧ (m.via = .gable → t.hst.gableOut = s.hst.gableOut ++ [m])))
         ∧ (b + 100 ≤ s.bat.num → 3 ≤ r → x.delivering = true → completes (.eventResendTimeout n) s [.fresh, .hst, .gtr] (fun t =>
           (sessOf t n).delivering = false ∧ (sessOf t n).outstanding = none)))
       ∧ ((x.outstanding = none ∨ ∃ m k r, x.outstanding = some (m, k, none, r)) → exec (.eventResendTimeout n) s = .next s)
       ∧ ((x.lastReq + 60000 ≤ s.bat.num ∧ x.delivering = true) →
         completes (.sessionIdleTimeout n) s [.fresh, .hst, .gtr] (fun t =>
           (sessOf t n).delivering = false ∧ (sessOf t n).outstanding = none ∧ (sessOf t n).routed = []))
       ∧ ((s.bat.num < x.lastReq + 60000 ∨ x.delivering = false) → exec (.sessionIdleTimeout n) s = .next s))

/-- GABLE_STATUS, GABLE_READ and GABLE_WRITE (R76, R339, R387): in Ship nothing answers; where the fabric sleeps the
select wakes the module and zeros come out; otherwise the STATUS octet comes first, a message read to its end leaves
the queue, a reserved operation and a transaction that is no message are discarded and counted, and a NOP in
Unconfigured is accepted and answered at once. -/
def Obligations.GablePort : Prop :=
  ∀ (w : GableSend) (n : Nat) (s : State),
    (s.pwr.power = .ship →
      exec .gableStatus s = .next s ∧ exec (.gableRead n) s = .next s ∧ exec (.gableWrite w) s = .next s)
    ∧ (s.pwr.power ≠ .ship → mapUp s = false → ∀ c ∈ [Instr.gableStatus, .gableRead n, .gableWrite w],
      completes c s [.fresh, .hst, .pwr, .gtr] (fun t =>
        t.hst.gableShift ≠ [] ∧ (∀ x ∈ t.hst.gableShift, x = 0) ∧ t.hst.gableOut = s.hst.gableOut
        ∧ (s.pwr.asleep = true → s.pwr.shipOrdered = false → s.pwr.waking = false →
            t.pwr.waking = true ∧ t.pwr.wake = 2)))
    ∧ (mapUp s = true →
      completes .gableStatus s [.fresh, .hst, .pwr, .gtr] (fun t =>
        t.hst.gableShift.head? = some (gableStatus s) ∧ t.hst.gableShift.length = 5 ∧ t.hst.gableOut = s.hst.gableOut)
      ∧ completes (.gableRead n) s [.fresh, .hst, .pwr, .gtr] (fun t =>
        t.hst.gableShift.head? = some (gableStatus s)
        ∧ ∀ m l, s.hst.gableOut = m :: l →
          t.hst.gableOut = (if (msgOctets m).length ≤ n - 2 then l else s.hst.gableOut)
          ∧ ((msgOctets m).length ≤ n - 2 → (t.hst.gableShift.drop 1).take (msgOctets m).length = msgOctets m))
      ∧ ((w.reserved = true ∨ s.hst.gableRx = 0 ∨ msgCrcOk w.octets = false) →
        completes (.gableWrite w) s [.fresh, .hst, .pwr, .gtr] (fun t =>
          t.hst.discarded = satAdd 16 s.hst.discarded 1 ∧ t.hst.gableOut = s.hst.gableOut))
      ∧ (w.reserved = false → s.hst.gableRx ≠ 0 → msgCrcOk w.octets = true → unconfigured s = true →
        s.pwr.entering = none → (reqMsg w.octets).kind = 6 → haltedReset s .gable .gable (reqMsg w.octets) = false →
        firstRefusal s .gable .gable w.octets.length (reqMsg w.octets) = none → completes (.gableWrite w) s [.hst] (fun t =>
        t.hst.gableOut.map (fun m => (m.kind, m.seq, m.status)) = s.hst.gableOut.map (fun m => (m.kind, m.seq, m.status))
          ++ [(kindACCEPT, (reqMsg w.octets).seq, 0), (kindREPLY, (reqMsg w.octets).seq, 0)])))

/-- LINK_POLL, ARP_REQUEST and ICMP_ECHO_REQUEST (R330): the PHYs of the used ports are taken as read and a lost link is
counted; a request for the port's own address is answered, an echo at most ten times a second and within 1 528 octets.
The PRP rows (R332): one supervision frame, with the trailer's next sequence number, leaves where a port can send; a
source heard is kept in the table while it has room, counted on its LAN by its trailer, and a duplicate, by the other LAN
within 400 battens, is discarded (the model's choices on the wrong LAN, the window and the sources noted, log entry 68);
one heard on one LAN alone for 5 s is logged, once until it is heard on the other. -/
def Obligations.LinksAndPrp : Prop :=
  (∀ (s : State) (a b : LinkState) (p : NetPort) (target : Word) (src : LanSource) (data : List Byte),
     (netHears s = false → exec (.linkPoll a b) s = .next s)
     ∧ (netHears s = true → completes (.linkPoll a b) s [.fresh, .hst, .gtr] (fun t =>
       t.hst.linkA = (if portUsed s .netA then a else s.hst.linkA) ∧ t.hst.linkB = (if portUsed s .netB then b else s.hst.linkB)
       ∧ (portUsed s .netA = true → linkUp s.hst.linkA = true → linkUp a = false → t.hst.lossA = satAdd 16 s.hst.lossA 1)))
     ∧ (let (u, kept) := prpHear s (p == .netB) src.mac src.trailer
       let mine := kept = true ∧ portSends s p = true ∧ portIp s p ≠ 0 ∧ target.toNat = portIp s p
       let fits := 46 + data.length + 6 * b2n src.trailer.isSome ≤ 1528
       (¬ hears s p → exec (.arpRequest p target src) s = .next s ∧ exec (.icmpEchoRequest p target src data) s = .next s)
       ∧ ((hears s p ∧ mine) → completes (.arpRequest p target src) s [.hst] (fun t =>
         t.hst.netSent = u.hst.netSent ++ [⟨.arpReply p src.mac, (takeTrailer s).1⟩]))
       ∧ ((hears s p ∧ ¬ mine) → exec (.arpRequest p target src) s = .next u)
       ∧ (¬ fits → exec (.icmpEchoRequest p target src data) s = .next s)
       ∧ ((hears s p ∧ fits ∧ mine ∧ echoes s p < 10) → completes (.icmpEchoRequest p target src data) s [.hst] (fun t =>
         t.hst.netSent = u.hst.netSent ++ [⟨.echoReply p src.mac data, (takeTrailer s).1⟩]
         ∧ t.hst.icmpA + t.hst.icmpB = s.hst.icmpA + s.hst.icmpB + 1))
       ∧ ((hears s p ∧ fits ∧ (¬ mine ∨ 10 ≤ echoes s p)) → exec (.icmpEchoRequest p target src data) s = .next u)))
  ∧ (∀ (s : State) (lanB : Bool) (src : LanSource) (mac : BitVec 48),
       let sends := prpMode s = true ∧ (portSends s .netA = true ∨ portSends s .netB = true)
       let on := prpMode s = true ∧ hears s (if lanB then .netB else .netA)
       (¬ sends → exec .prpSupervisionTimer s = .next s)
       ∧ (sends → exec .prpSupervisionTimer s = .next { s with hst := { s.hst with
           netSent := s.hst.netSent ++ [⟨.supervision, some s.hst.prpSeq⟩], prpSeq := (s.hst.prpSeq + 1) % 65536 } })
       ∧ (¬ on → exec (.prpSupervisionFrameReceived lanB src) s = .next s)
       ∧ (on → completes (.prpSupervisionFrameReceived lanB src) s [.hst] (fun t =>
         t.hst.prpA = (if lanB = false ∧ src.trailer ≠ none then satAdd 32 s.hst.prpA 1 else s.hst.prpA)
         ∧ t.hst.prpB = (if lanB = true ∧ src.trailer ≠ none then satAdd 32 s.hst.prpB 1 else s.hst.prpB)
         ∧ (∀ x, src.trailer = some x → x.lanB ≠ lanB → t.hst.prpWrong = satAdd 16 s.hst.prpWrong 1)
         ∧ (∀ x d, src.trailer = some x → x.lanB = lanB → d ∈ s.hst.dups → s.bat.num < d.at_ + 400 → d.mac = src.mac →
             d.seq = x.seq → d.lanB ≠ lanB → t.hst.prpDup = satAdd 16 s.hst.prpDup 1)
         ∧ ((s.hst.nodes.any (fun n => n.mac == src.mac) = true ∨ s.hst.nodes.length < 64) →
             ∃ n ∈ t.hst.nodes, n.mac = src.mac ∧ (if lanB then n.seenB else n.seenA) = some s.bat.num)
         ∧ ∀ n ∈ s.hst.nodes, n.mac = src.mac → ∃ m ∈ t.hst.nodes, m.mac = src.mac
             ∧ m.logged = (if n.logged = some (!lanB) then none else n.logged)))
       ∧ (∀ n lan, s.hst.nodes.find? (fun n => n.mac == mac) = some n → singleLan s.bat.num n = some lan → n.logged = none →
         completes (.prpSingleLanTimeout mac) s [.fresh, .hst, .gtr] (fun t =>
           ∀ x ∈ t.hst.nodes, x.mac = mac → x.logged = some lan))
       ∧ (∀ n, s.hst.nodes.find? (fun n => n.mac == mac) = some n → (singleLan s.bat.num n = none ∨ n.logged ≠ none) →
         exec (.prpSingleLanTimeout mac) s = .next s)
       ∧ (s.hst.nodes.find? (fun n => n.mac == mac) = none → exec (.prpSingleLanTimeout mac) s = .next s))

/-- GOOSE_FRAME_RECEIVED and GOOSE_SUBSCRIPTION_LOST (R332, R337, R338): a frame that the port does not hear, or that no
subscription matches, does nothing there; one that a subscription matches refreshes it; in simulation, or with other
members, it is counted and its values are not taken, otherwise they are; the first frame of an OPEN REQUEST latches an
OPEN of the PROTECT session; a duplicate is counted and discarded; a subscription unheard for its time is lost and
waits for a first frame. -/
def Obligations.GooseReceived : Prop :=
  ∀ (g : GooseFrame) (k : Fin 24) (s : State),
    let (u, kept) := prpHear s (g.port == .netB) g.src.mac g.src.trailer
    let matching := (List.range s.cfg.goose.length).filter (fun j => gooseMatches (gooseRec s j) g)
    (¬ hears s g.port → exec (.gooseFrameReceived g) s = .next s)
    ∧ (hears s g.port → kept = false → completes (.gooseFrameReceived g) s [.hst] (fun t =>
        t.hst.prpDup = satAdd 16 s.hst.prpDup 1 ∧ t.hst.goose = s.hst.goose ∧ t.hst.notActed = s.hst.notActed))
    ∧ (hears s g.port → kept = true → matching = [] → exec (.gooseFrameReceived g) s = .next u)
    ∧ (hears s g.port → kept = true →
      completes (.gooseFrameReceived g) s [.fresh, .rdg, .hst, .pwr, .gtr] (fun t =>
        let r := vget t.hst.goose k
        let acts := g.simulation = false ∧ membersOk (gooseRec s k).content g.members = true
        (k.val ∉ matching → r = vget s.hst.goose k)
        ∧ (k.val ∈ matching → r.st = .valid ∧ r.lastAt = s.bat.num ∧ r.ttl = g.ttl
          ∧ (¬ acts → r.vals = (vget s.hst.goose k).vals)
          ∧ (acts → r.stNum = g.stNum.toNat ∧ r.first = false
            ∧ ∀ (i : Fin 8) m v, g.members[i.val]? = some m → m.value = some v → vget r.vals i = v))
        ∧ (matching = [k.val] → ¬ acts → t.hst.notActed = satAdd 16 s.hst.notActed 1 ∧ t.rdg = s.rdg)
        ∧ (matching = [k.val] → acts → t.hst.notActed = s.hst.notActed
          ∧ ((vget s.hst.goose k).first = true → (gooseRec s k).content = 0x41 → requestedStrings s g.members ≠ 0 →
              operating s = true → coresRun s = true → ∀ n, protectSess s = some n →
              s.rdg.incoming.find? (fun o => o.src == some n) = none →
              t.rdg.incoming = s.rdg.incoming
                ++ [⟨some n, .opening, requestedStrings s g.members, false, 0, 0, false, false⟩]))))
    ∧ (let lost := (vget s.hst.goose k).st = .valid ∧ (vget s.hst.goose k).lastAt + gooseWait s k ≤ s.bat.num
      (lost → completes (.gooseSubscriptionLost k) s [.fresh, .hst, .gtr] (fun t =>
        (vget t.hst.goose k).st = .lost ∧ (vget t.hst.goose k).first = true))
      ∧ (¬ lost → exec (.gooseSubscriptionLost k) s = .next s))

/-- LIMIT_PUBLICATION (R18, R185, R186, R236, R270): slot 7, once a batten, publishes the set in force, bounded by the
ceilings, and its flags; they wait in the output compare gate while that is on, and where it is not the limit frame goes, in
batten 2 of a course, to each controller that sends it; outside Operating every limit is 0 (the model's reading, log entry
46) and nothing is sent; in a core-pair reset and out of turn nothing happens. GOOSE_REPEAT (R18, R335, R336): a
published dataset is sent again once its interval has passed, with the next SQNUM and the t and quality it was formed
with, and the interval doubles up to HEARTBEAT; a state that no link has carried yet is tried again as a new one, and in
Bench no limits are repeated (the model's readings, log entry 46). -/
def Obligations.LimitsPublished : Prop :=
  (∀ s : State,
     let runs := slotsRun s = true ∧ slotNext s 7 = true
     (¬ runs → exec .limitPublication s = .next s)
     ∧ (runs → operating s = false → completes .limitPublication s [.bat, .est] (fun t =>
       t.est.pPub = List.replicate 6 0 ∧ t.est.sPub = Vector.replicate 4 (List.replicate 6 0)
       ∧ t.est.pubFlag = pubFlags s (setStale s)))
     ∧ (runs → operating s = true → completes .limitPublication s [.fresh, .bat, .est, .hst, .can] (fun t =>
       t.est.pPub = plantPubs (strPubs s) ∧ t.est.pubFlag = pubFlags s (setStale s)
       ∧ (∀ k, k < 4 → vget t.est.sPub k = (strPubs s).getD k [])
       ∧ (∀ k j, k < 4 → j < 6 → publishes s k = false → (vget t.est.sPub k).getD j 1 = 0)
       ∧ (gateOn s = true → t.can = s.can
         ∧ t.hst = { s.hst with limitsGate := some ⟨pubFlags s (setStale s), plantPubs (strPubs s), strPubs s⟩ })
       ∧ ∀ c : Fin 2, gateOn s = false → phaseOf s = 2 → canSends s c = true → (canOf s c).frameBatten ≠ s.bat.num →
           (canOf t c).handed = true ∧ (canOf t c).frameBatten = s.bat.num
           ∧ (canOf t c).frame = limitFrame s (pubFlags s (setStale s)) (plantPubs (strPubs s)) (strPubs s))))
  ∧ (∀ (k : Fin 24) (s : State),
       let g := vget s.hst.goose k
       let c := gooseRec s k
       let idle := c.dir ≠ 1 ∨ g.interval = 0 ∨ s.bat.num < g.lastAt + g.interval ∨ unconfigured s = true
         ∨ (c.content = 1 ∧ inBench s = true)
       let next := if g.unsent then g.interval else min (2 * g.interval) c.heartbeat
       let sends := goosePortUp s c.port = true ∧ mapUp s = true ∧ s.pwr.last = false ∧ s.pwr.halted = false
       (idle → exec (.gooseRepeat k) s = .next s)
       ∧ (¬ idle → completes (.gooseRepeat k) s [.hst] (fun t =>
         let r := vget t.hst.goose k
         r.interval = next ∧ r.ttl = 2 * next ∧ r.members = g.members ∧ r.t = g.t ∧ r.quality = g.quality
         ∧ r.lastAt = s.bat.num
         ∧ (¬ sends → r.stNum = g.stNum ∧ r.sqNum = g.sqNum ∧ r.unsent = g.unsent ∧ t.hst.netSent = s.hst.netSent)
         ∧ (sends → r.unsent = false
           ∧ r.stNum = (if g.unsent then wrapOne g.stNum else g.stNum)
           ∧ r.sqNum = (if g.unsent then 0 else wrapOne g.sqNum)
           ∧ t.hst.netSent = s.hst.netSent ++ [⟨gooseTx t k, (takeTrailer s).1⟩]))))

/-- The limit frame's way out (R347, R348, R349, R350): at its time, in its own batten, it is pending; a complete
attempt sends it; a lost arbitration leaves it pending or drops it after a cancellation; an error is retried and raises
the counter by ISO 11898-1's steps of 8 (presumed, log entry 57), a stuff error in arbitration only by what follows its
flag (the model's reading, log entry 45); the deadline drops one that has not begun and asks an attempt under way to be
the last; which of the two a pending frame is, the model leaves open (log entry 45). Reception and recovery on CAN
(R342, R346, R349, R350): a frame received is counted, and once more when it matches the limit frame's identifier, and
shows the controller is not alone; errors raise the counter; a controller off the bus returns with both counters 0;
integration ends. -/
def Obligations.CanController : Prop :=
  (∀ (c : Fin 2) (s : State),
     let k := canOf s c
     let live := canCompletes s c = true
     let parts : List Part := [.fresh, .est, .can, .gtr]
     ((k.handed = true ∧ k.stopped = false ∧ k.frameBatten = s.bat.num) →
       exec (.canTransmitTime c) s = .next (modCan s c (fun k => { k with handed := false, mb := 1 })))
     ∧ ((k.handed = false ∨ k.stopped = true ∨ k.frameBatten ≠ s.bat.num) → exec (.canTransmitTime c) s = .next s)
     ∧ (live → ∀ x : FlagTail, completes (.canFrameComplete c (.complete x)) s parts (fun t =>
       let j := canOf t c
       j.mb = 0 ∧ j.sent = satAdd 16 k.sent 1 ∧ j.txRes = (if k.cancel then 2 else 1)
       ∧ j.txBatten = k.frameBatten % 2 ^ 24 ∧ j.tecCnt = k.tecCnt - 1 + 8 * (x.flagErrors + x.dominantRuns)
       ∧ j.alone = false ∧ j.onBus = k.onBus ++ [canTx k]))
     ∧ ((live ∧ k.cancel = false) →
       exec (.canFrameComplete c .lostArbitration) s = .next (modCan s c (fun k => { k with mb := 1 }))
       ∧ ∀ x : FlagTail,
         completes (.canFrameComplete c (.error x)) s parts (fun t =>
           (canOf t c).tecCnt = k.tecCnt + 8 * (1 + x.flagErrors + x.dominantRuns)
           ∧ (canOf t c).mb = min k.mb 1 ∧ (canOf t c).dropped = k.dropped)
         ∧ completes (.canFrameComplete c (.stuffInArbitration x)) s parts (fun t =>
           (canOf t c).tecCnt = k.tecCnt + 8 * (x.flagErrors + x.dominantRuns)
           ∧ (canOf t c).mb = min k.mb 1 ∧ (canOf t c).dropped = k.dropped))
     ∧ ((live ∧ k.cancel = true) →
       completes (.canFrameComplete c .lostArbitration) s parts (fun t =>
         (canOf t c).mb = 0 ∧ (canOf t c).txRes = (if k.byReset then 5 else 4)
         ∧ (canOf t c).dropped = satAdd 16 k.dropped 1 ∧ t.est.canDrop = satAdd 16 s.est.canDrop 1)
       ∧ ∀ x : FlagTail,
         completes (.canFrameComplete c (.error x)) s parts (fun t => (canOf t c).mb = 0 ∧ (canOf t c).txRes = 3)
         ∧ completes (.canFrameComplete c (.stuffInArbitration x)) s parts (fun t =>
           (canOf t c).mb = 0 ∧ (canOf t c).txRes = 3))
     ∧ (¬ live → (∀ e, exec (.canFrameComplete c e) s = .next s)
       ∧ ∀ x : CanNoAck, x.on = c → exec (.canAckError x) s = .next s)
     ∧ (live → ∀ x : CanNoAck, x.on = c → completes (.canAckError x) s parts (fun t =>
       let ups := if k.err = .passive ∧ x.dominantInFlag = false then 0 else 1
       (canOf t c).tecCnt = k.tecCnt + 8 * (ups + x.tail.flagErrors + x.tail.dominantRuns)
       ∧ (canOf t c).ackErrs = satAdd 8 k.ackErrs 1 ∧ (15 ≤ k.ackErrs → (canOf t c).alone = true)
       ∧ (k.cancel = false → (canOf t c).mb = min k.mb 1)))
     ∧ (let due := (k.mb ≠ 0 ∨ k.handed = true) ∧ k.cancel = false ∧ k.frameBatten < s.bat.num ∧ k.stopped = false
       (¬ due → exec (.canDeadline c) s = .next s)
       ∧ ((due ∧ canOnBus s c = false) → completes (.canDeadline c) s parts (fun t =>
         (canOf t c).mb = 0 ∧ (canOf t c).txRes = (if k.err = .busOff then 6 else 4)
         ∧ (canOf t c).dropped = satAdd 16 k.dropped 1))
       ∧ ((due ∧ canOnBus s c = true) → completes (.canDeadline c) s parts (fun t =>
         ((canOf t c).mb = 2 ∧ (canOf t c).cancel = true ∧ (canOf t c).dropped = k.dropped)
         ∨ (k.mb ≠ 2 ∧ (canOf t c).mb = 0 ∧ (canOf t c).txRes = 4 ∧ (canOf t c).dropped = satAdd 16 k.dropped 1)))))
  ∧ (∀ (c : Fin 2) (f : CanRx) (x : CanRxError) (s : State),
       let k := canOf s c
       (canOnBus s c = false → exec (.canFrameReceived c f) s = .next s ∧ exec (.canReceiveError c x) s = .next s)
       ∧ (canOnBus s c = true → completes (.canFrameReceived c f) s [.fresh, .can, .gtr] (fun t =>
           (canOf t c).received = satAdd 16 k.received 1 ∧ (canOf t c).matched = satAdd 16 k.matched (b2n (canMatches s c f))
           ∧ (canOf t c).alone = false ∧ (canOf t c).mb = k.mb ∧ (canOf t c).tecCnt = k.tecCnt)
         ∧ completes (.canReceiveError c x) s [.fresh, .can, .gtr] (fun t =>
           (canOf t c).recCnt = satAdd 8 k.recCnt
             (b2n x.detected + 8 * (b2n x.dominantAfterFlag + x.tail.flagErrors + x.tail.dominantRuns)) ∧ (canOf t c).tecCnt = k.tecCnt))
       ∧ ((k.err = .busOff ∧ k.stopped = false) → completes (.canBusOffRecovery c) s [.fresh, .can, .gtr] (fun t =>
         (canOf t c).err = .active ∧ (canOf t c).tecCnt = 0 ∧ (canOf t c).recCnt = 0 ∧ (canOf t c).mb = k.mb))
       ∧ ((k.err ≠ .busOff ∨ k.stopped = true) → exec (.canBusOffRecovery c) s = .next s)
       ∧ ((k.configured = true ∧ k.integrated = false ∧ k.stopped = false ∧ beforeFirst s = false) →
         exec (.canIntegration c) s = .next (modCan s c (fun k => { k with integrated := true })))
       ∧ ((k.configured = false ∨ k.integrated = true ∨ k.stopped = true ∨ beforeFirst s = true) → exec (.canIntegration c) s = .next s))

/-! ## Ridge -/

/-- The precharge's stages (R216, R223, R224, R225): main-negative has settled; 95 % comes too fast, in time, or not in
time; a third failure in a row is Lockout; the wait to join ends with its third passing test or with its window. -/
def Obligations.PrechargeRoad : Prop :=
  ∀ (k : Fin 4) (s : State), ridgeRuns s k = true →
    let x := strOf s k
    let wait := x.joinMode = true ∨ (strValid s k = true ∧ 0 < vString s k ∧ vString s k ≤ 2 * vLink s k)
    ((x.phase = .mnSettle ∧ pullBattens s k 0 ≤ inPhase s k) →
      (wait → 0 < (strRec s k).preWindow → completes (.mnSettleExpiry k) s ridgeParts (fun t =>
        (strOf t k).phase = .joinWait ∧ (strOf t k).began = s.bat.num ∧ (strOf t k).st = x.st ∧ stringsBut k s t))
      ∧ (x.joinMode = false → (strValid s k = false ∨ vString s k ≤ 0) →
        completes (.mnSettleExpiry k) s ridgeParts (fun t =>
          (strOf t k).st = .opened ∧ (strOf t k).phase = .idle ∧ (strOf t k).cause = .prechargeVoltage ∧ stringsBut k s t))
      ∧ (¬ wait → strValid s k = true → 0 < vString s k → completes (.mnSettleExpiry k) s ridgeParts (fun t =>
          (strOf t k).phase = .charging ∧ (strOf t k).bB = s.bat.num ∧ (strOf t k).vS = vString s k
          ∧ (strOf t k).v0 = vLink s k ∧ (strOf t k).st = x.st ∧ stringsBut k s t)))
    ∧ ((x.phase = .charging ∧ at95 s k = true) →
      (x.nFast ≤ ((s.bat.num - x.bB : Nat) : Rat) → completes (.precharge95Reached k) s ridgeParts (fun t =>
        (strOf t k).st = .closed ∧ (strOf t k).phase = .overlap ∧ (strOf t k).preFails = 0 ∧ (strOf t k).preOn = true
        ∧ stringsBut k s t))
      ∧ (((s.bat.num - x.bB : Nat) : Rat) < x.nFast → x.preFails < 2 →
        completes (.precharge95Reached k) s ridgeParts (fun t =>
          (strOf t k).st = .opened ∧ (strOf t k).cause = .prechargeFast ∧ (strOf t k).preFails = x.preFails + 1
          ∧ (strOf t k).cooldown = some (s.bat.num + 30000) ∧ stringsBut k s t))
      ∧ (((s.bat.num - x.bB : Nat) : Rat) < x.nFast → 2 ≤ x.preFails → x.st ≠ .lockout →
        completes (.precharge95Reached k) s ridgeParts (fun t =>
          (strOf t k).st = .lockout ∧ (strOf t k).cause = .prechargeRepeated ∧ (strOf t k).preFails = 0 ∧ stringsBut k s t)))
    ∧ ((x.phase = .charging ∧ at95 s k = false ∧ x.nSlow ≤ s.bat.num - x.bB ∧ x.preFails < 2) →
      completes (.prechargeSlowExpiry k) s ridgeParts (fun t =>
        (strOf t k).st = .opened ∧ (strOf t k).phase = .idle ∧ (strOf t k).cause = .prechargeSlow ∧ stringsBut k s t))
    ∧ ((x.phase = .joinWait ∧ 3 ≤ x.joinRun) → ∀ c ∈ [Instr.joinTestPass k, .joinTimeout k],
      completes c s ridgeParts (fun t =>
        (strOf t k).st = .closed ∧ (strOf t k).phase = .overlap ∧ (strOf t k).preOn = false ∧ (strOf t k).preFails = 0
        ∧ stringsBut k s t))
    ∧ ((x.phase = .joinWait ∧ x.joinRun < 3 ∧ (strRec s k).preWindow ≤ inPhase s k) →
      completes (.joinTimeout k) s ridgeParts (fun t =>
        (strOf t k).st = .opened ∧ (strOf t k).cause = .joinTimeout ∧ stringsBut k s t))

/-- The stages of a closed string (R216, R226, R228, R230, R406): the overlap ends in RUN, or in Standstill with a cause
present; a ramp ends on its second low batten or at its deadline and opens by OPEN_ORDER; a missing acknowledgement is
noted; the sequence ends Open; Standstill returns to RUN after a clear course, and opens on current or for the thermal
stop. -/
def Obligations.RunAndOpening : Prop :=
  ∀ (k : Fin 4) (s : State), ridgeRuns s k = true →
    let x := strOf s k
    let opens := fun (c : Instr) (why : Cause) => completes c s ridgeParts (fun t =>
      (strOf t k).st = .opened ∧ (strOf t k).phase = .idle ∧ (strOf t k).cause = why ∧ stringsBut k s t)
    ((x.phase = .overlap ∧ pullBattens s k 1 ≤ inPhase s k) →
      (standstillCause x = false → completes (.overlapExpiry k) s ridgeParts (fun t =>
        (strOf t k).phase = .run ∧ (strOf t k).st = x.st ∧ (strOf t k).preOn = false ∧ stringsBut k s t))
      ∧ (standstillCause x = true → completes (.overlapExpiry k) s ridgeParts (fun t =>
        (strOf t k).phase = .hold ∧ (strOf t k).st = .standstill ∧ stringsBut k s t)))
    ∧ ((x.phase = .ramp ∧ (2 ≤ x.lowRun ∨ x.bR + (strRec s k).rampMs ≤ s.bat.num)) →
      ((strRec s k).openOrder = 2 → opens (.rampEnd k) x.cause)
      ∧ ((strRec s k).openOrder ≠ 2 → completes (.rampEnd k) s ridgeParts (fun t =>
        (strOf t k).phase = .sequence ∧ (strOf t k).ramp = false ∧ (strOf t k).began = s.bat.num
        ∧ (strOf t k).st = x.st ∧ stringsBut k s t)))
    ∧ ((x.phase = .ramp ∧ x.ramp = true ∧ x.bR + 20 ≤ s.bat.num ∧ x.rampAck = false) →
      completes (.rampUnacknowledged k) s ridgeParts (fun t =>
        strOf t k = { x with unackLogged := true } ∧ stringsBut k s t))
    ∧ ((x.phase = .sequence ∧ 20 ≤ inPhase s k) → opens (.sequenceExpiry k) x.cause)
    ∧ ((x.phase = .hold ∧ s.bat.num % 10 = 0 ∧ 10 ≤ x.clearRun ∧ standstillCause x = false) →
      completes (.standstillClearCourse k) s ridgeParts (fun t =>
        (strOf t k).st = .closed ∧ (strOf t k).phase = .run ∧ stringsBut k s t))
    ∧ (holdCurrent s k = true → opens (.standstillCurrent k) .standstillCurrent)
    ∧ (thermalDue s k = true → opens (.thermalStopOpening k) .thermalShutdown)

/-- Ridge's counters (R216, R223 to R235) as rows of their own (log entry 18): outside Operating, while the cores do not
run and for a string the image has not, they end without effect; otherwise they change the record of their string
alone, and where no counter's time has come they leave that one too. Persistence and the string's timers (R224, R226, R231,
R233, R235): a cell's voltage or temperature beyond its bound for PERSIST battens locks the string, current over the limit
begins its ramp, a weld locks it; a cooldown, an override and the reset window end. -/
def Obligations.LockoutsAndTimers : Prop :=
  ∀ (k : Fin 4) (s : State),
    let x := strOf s k
    let locks := fun (c : Instr) (why : Cause) => completes c s ridgeParts (fun t =>
      (strOf t k).st = .lockout ∧ (strOf t k).phase = .locked ∧ (strOf t k).cause = why ∧ stringsBut k s t)
    (ridgeRuns s k = false → ∀ c ∈ ridgeRows k, exec c s = .next s)
    ∧ (ridgeRuns s k = true → ∀ c ∈ ridgeRows k, completes c s ridgeParts (fun t => stringsBut k s t))
    ∧ (ridgeRuns s k = true → (strOf s k).phase = .idle → (strOf s k).cntV = 0 → (strOf s k).cntT = 0 →
        (strOf s k).cooldown = none → (strOf s k).overrideTo = none → (strOf s k).weldRun < 10 → strState s k = .opened →
        ∀ c ∈ ridgeRows k, completes c s ridgeParts (fun t => strOf t k = strOf s k))
    ∧ (ridgeRuns s k = true →
      ((persists s k x.cntV = true ∧ x.st ≠ .lockout) → locks (.persistenceReached k) .cellVoltage)
      ∧ ((persists s k x.cntV = false ∧ persists s k x.cntT = true ∧ x.st ≠ .lockout) →
        locks (.persistenceReached k) .cellTemperature)
      ∧ ((persists s k x.cntV = false ∧ persists s k x.cntT = false ∧ persists s k x.cntI = true ∧ x.phase = .run
          ∧ (strRec s k).rampMs ≠ 0) → completes (.persistenceReached k) s ridgeParts (fun t =>
        (strOf t k).phase = .ramp ∧ (strOf t k).ramp = true ∧ (strOf t k).bR = s.bat.num ∧ (strOf t k).st = x.st
        ∧ (strOf t k).cause = .currentOverLimit ∧ stringsBut k s t))
      ∧ ((x.st = .opened ∧ 10 ≤ x.weldRun) → locks (.weld k) .weld)
      ∧ (∀ e, x.cooldown = some e → e ≤ s.bat.num → completes (.prechargeCooldownExpiry k) s ridgeParts (fun t =>
        strOf t k = { x with cooldown := none } ∧ stringsBut k s t))
      ∧ (∀ e, x.overrideTo = some e → e ≤ s.bat.num → completes (.wearOverrideExpiry k) s ridgeParts (fun t =>
        strOf t k = { x with overrideTo := none } ∧ stringsBut k s t)))
    ∧ (∀ b, s.rdg.resetAt = some b →
      (b + 10000 < s.bat.num → exec .lockoutResetWindowExpiry s = .next { s with rdg := { s.rdg with resetAt := none } })
      ∧ (s.bat.num ≤ b + 10000 → exec .lockoutResetWindowExpiry s = .next s))
    ∧ (s.rdg.resetAt = none → exec .lockoutResetWindowExpiry s = .next s)

/-- The order rows (R15, R218, R325): an order of a defined session is latched for the next edge, one to a session, in
Operating with the cores running, and restarts the quiet count; otherwise it changes nothing (the model's row for an
order that arrives outside a WRITE, log entry 19). -/
def Obligations.OrdersLatched : Prop :=
  ∀ (n : Fin 8) (q : BitVec 16) (m : BitVec 4) (dis : Bool) (v : BitVec 16) (s : State),
    let may := sessRole s n ≠ 0 ∧ operating s = true ∧ coresRun s = true ∧ ∀ o ∈ s.rdg.incoming, o.src ≠ some n
    let rows : List (Instr × Order) := [
      (.close n q m, ⟨some n, .close, m, false, 0, q.toNat, true, false⟩),
      (.orderOpen n q m, ⟨some n, .opening, m, false, 0, q.toNat, true, false⟩),
      (.limit n q m dis v, ⟨some n, .limit, m, dis, v.toNat, q.toNat, true, false⟩),
      (.limitClear n q m dis, ⟨some n, .limitClear, m, dis, 0, q.toNat, true, false⟩),
      (.rampAck n q m, ⟨some n, .rampAck, m, false, 0, q.toNat, true, false⟩),
      (.lockoutAck n q m, ⟨some n, .lockoutAck, m, false, 0, q.toNat, true, false⟩),
      (.wearOverride n q m, ⟨some n, .wearOverride, m, false, 0, q.toNat, true, false⟩)]
    ∀ r ∈ rows,
      (may → exec r.1 s = .next { s with
        rdg := { s.rdg with incoming := s.rdg.incoming ++ [r.2] }
        pwr := { s.pwr with quietMs := 0 } })
      ∧ (¬ may → exec r.1 s = .next s)

/-- RIDGE_EVALUATION (R27, R214, R215, R219, R220, R222, R233, R236, R325): slot 5, once per batten in its turn with the cores
running. In Operating the latched orders are answered, a Spar status word that is missing or shows TRIPPED, START or
UNCONFIGURED puts every string in Lockout, a press it shows opens the reset window, and the coils are those of the
strings' phases. The orders are arbitrated on what the evaluation gathers first: OPEN beats CLOSE, begins the ramp of a
string in RUN and opens one in Precharge; a Standstill cause holds a string in RUN; a CLOSE that meets the conditions of
R222, no string in Precharge and no lower string's CLOSE passing, enters Precharge, and one refused gets the code of the
first condition that fails; the lowest LIMIT sets the ceiling; a valid LOCKOUT ACK moves Lockout to Open. Outside Operating
the orders are answered, with NOT OPERATING for every addressed string, and no string changes its state. -/
def Obligations.RidgeEvaluates : Prop :=
  ∀ s : State,
    let runs := slotsRun s = true ∧ slotNext s 5 = true
    let owed := fun t : State => ∀ o ∈ s.rdg.latched, ∀ n, o.src = some n → o.result = true → 
      ∃ x ∈ t.hst.results, x.n = n ∧ x.seq = o.seq ∧ x.pool = o.pool
    let r := ridgeGather (endSlot s 5)
    let w := ridgeWord s
    let os := s.rdg.latched ++ localOrder s w
    let quiet := fun k : Fin 4 => k.val < nStr s ∧ sparTripSeen w = false ∧ lockCause r k = none
    let opens := fun k : Fin 4 => ordersFor r os .opening k ≠ []
    let passes := fun k : Fin 4 => quiet k ∧ ¬ opens k ∧ closeRefusal r k w = none
    let wins := fun k : Fin 4 => passes k ∧ (∀ j : Fin 4, j.val < nStr s → strState r j ≠ .precharge)
      ∧ ∀ j : Fin 4, j < k → ordersFor r os .close j = [] ∨ closeOutcome r os w j ≠ none
    (¬ runs → exec .ridgeEvaluation s = .next s)
    ∧ (runs → operating s = true → completes .ridgeEvaluation s
        [.fresh, .nor, .img, .bat, .led, .pgr, .rdg, .spar, .cpr, .hst, .vrg, .pwr, .gtr] (fun t =>
      t.rdg.evaluated = true ∧ t.rdg.latched = [] ∧ t.rdg.incoming = s.rdg.incoming ∧ t.rdg.coils = coilMask t
      ∧ t.bat = { s.bat with fixedDone := 6 }
      ∧ (sparTripSeen (ridgeWord s) = true → ∀ k : Fin 4, k.val < nStr s → strState t k = .lockout)
      ∧ (∀ w, ridgeWord s = some w → w.getLsbD 3 = true → t.rdg.resetAt = some s.bat.num)
      ∧ owed t
      ∧ (∀ k : Fin 4, wins k → ordersFor r os .close k ≠ [] → (strOf s k).phase ≠ .run →
          strState t k = .precharge ∧ (strOf t k).phase = .mnSettle)
      ∧ (∀ k : Fin 4, quiet k → s.rdg.expired = false → s.rdg.reclaim = false →
        (opens k → strState s k = .precharge → strState t k = .opened ∧ (strOf t k).phase = .idle)
        ∧ (opens k → strState s k = .closed → (strOf s k).phase = .run → hardCauses r k = [] → (strRec s k).rampMs ≠ 0 →
          strState t k = .closed ∧ (strOf t k).phase = .ramp ∧ (strOf t k).ramp = true)
        ∧ (¬ opens k → strState s k = .closed → (strOf s k).phase = .run → hardCauses r k = [] → softCauses r k false = [] →
          standstillCause (strOf r k) = true → strState t k = .standstill ∧ (strOf t k).phase = .hold))
      ∧ (∀ (k : Fin 4) b, quiet k → ordersFor r os .lockoutAck k ≠ [] → strState s k = .lockout → s.rdg.resetAt = some b →
          b < s.bat.num → s.bat.num ≤ b + 10000 → strState t k = .opened ∧ (strOf t k).phase = .idle)
      ∧ (∀ (k : Fin 4) (dis : Bool), k.val < nStr s →
        let l := limitsFor r os k dis
        let ceil := fun x : Str => if dis then x.ceilDis else x.ceilChg
        (l = [] → ceil (strOf t k) = ceil (strOf s k))
        ∧ (∀ o ∈ l, (∀ x ∈ l, limitValue o ≤ limitValue x) →
          ceil (strOf t k) = if limitValue o = 65536 then none else some (limitValue o)))
      ∧ (∀ o ∈ s.rdg.latched, ∀ n, o.src = some n → (∀ x ∈ s.rdg.latched, x.src = some n → x = o) → ∀ k : Fin 4,
        let told := fun x : OrderResult => (vget t.rdg.resA n).res.getD k .notAddressed = x
        (o.strings.getLsbD k = true → orderPermitted o.kind (sourceRole s o) = false → told .notPermitted)
        ∧ (o.kind = .close → takesPart r o k = true →
          (opens k → told .lostToOpen)
          ∧ (¬ opens k → (sparTripSeen w = true ∨ lockCause r k ≠ none) → told .lockout)
          ∧ (∀ x, quiet k → ¬ opens k → strState s k = .opened → closeRefusal r k w = some x → told x)
          ∧ (passes k → (∃ j : Fin 4, j.val < nStr s ∧ strState r j = .precharge) → told .prechargeBusy)
          ∧ (wins k → ordersFor r os .close k = [o] → told .done))
        ∧ (o.kind = .limit → takesPart r o k = true →
          (∃ x ∈ limitsFor r os k o.discharge, limitValue x < o.value) → told .lostToLowerLimit)
        ∧ (o.kind = .lockoutAck → takesPart r o k = true →
          (strState s k ≠ .lockout → told .noLockout)
          ∧ (strState s k = .lockout → sparTripSeen w = true → told .sparLatched)))))
    ∧ (runs → operating s = false → completes .ridgeEvaluation s [.bat, .rdg, .hst] (fun t =>
      t.rdg.latched = [] ∧ t.rdg.coils = s.rdg.coils ∧ t.bat = { s.bat with fixedDone := 6 }
      ∧ (∀ k, strState t k = strState s k) ∧ owed t
      ∧ ∀ o n, s.rdg.latched = [o] → o.src = some n → o.strings ≠ 0 → ∀ k : Fin 4, o.strings.getLsbD k = true →
          (vget t.rdg.resA n).res.getD k .notAddressed = .notOperating))

/-! ## Verge and feedback -/

/-- VERGE_FRAME_RECEIVED (R357, R358): a frame of a die without power or configuration, one already taken or missed, and
one in Unconfigured counts for nothing. Any other is taken once: what it holds is kept where the frame counts, the
channel is converted and the code lies inside its range; the rest keeps its last valid value. A counted frame 0 brings
a cycle's insulation result with it (R364). -/
def Obligations.VergeFrames : Prop :=
  ∀ (f : VergeFrame) (s : State),
    let gone := s.vrg.powered = false ∨ s.vrg.configured = false ∨ s.vrg.seen.getLsbD f.k = true ∨ unconfigured s = true
    (gone → exec (.vergeFrameReceived f) s = .next s)
    ∧ (¬ gone → completes (.vergeFrameReceived f) s [.vrg] (fun t =>
      t.vrg.seen = setBit s.vrg.seen f.k true
      ∧ t.vrg.missing = (if f.k.val = 0 then 0 else s.vrg.missing)
      ∧ (∀ k : Fin 4,
        let code := vget f.amps k
        let ok := frameGood s f && shuntUsed s k && inside 8388608 code
        (ok = true →
          vget (vget t.vrg.amps k) f.k = ampOf s k code ∧ (vget t.vrg.iOk k).getLsbD f.k = true
          ∧ (f.k.val = 0 → iString t k = ampOf s k code) ∧ (f.k.val ≠ 0 → iString t k = iString s k))
        ∧ (ok = false → vget t.vrg.amps k = vget s.vrg.amps k ∧ vget t.vrg.iOk k = vget s.vrg.iOk k
          ∧ iString t k = iString s k))
      ∧ (∀ n : Fin 8,
        let code := vget f.volts n
        let ok := decide (f.k.val = 0) && frameGood s f && voltUsed s n && inside 131072 code
        (ok = true → vget t.vrg.v n = voltOf s n code ∧ t.vrg.vOk.getLsbD n = true)
        ∧ (ok = false → vget t.vrg.v n = vget s.vrg.v n ∧ t.vrg.vOk.getLsbD n = s.vrg.vOk.getLsbD n))
      ∧ ((f.k.val ≠ 0 ∨ frameGood s f = false) →
        t.vrg.firstValid = s.vrg.firstValid ∧ t.vrg.result = s.vrg.result ∧ t.vrg.resultDue = s.vrg.resultDue)
      ∧ (f.k.val = 0 → frameGood s f = true → t.vrg.firstValid = true ∧ t.vrg.resultDue = none
        ∧ ∀ rp rn dead above below mains, s.vrg.resultDue = some (rp, rn, dead, above, below, mains) →
          t.vrg.rPos = rp ∧ t.vrg.rNeg = rn ∧ t.vrg.result = min rp rn ∧ t.vrg.busDead = dead
          ∧ t.vrg.resAt = some (s.bat.num / 2000 * 2000) ∧ t.vrg.noResult = 0)))

/-- The Verge die's rows (R358 to R361, R365, R396). VERGE_FRAME_DEADLINE: a frame not yet arrived counts as taken, frame 0
as one more missing in a row, and one that comes later counts for nothing; nothing in Unconfigured. VERGE_POWER_UP: the die
is powered, configured where an image is loaded, its barrier delay measured, its clock good up to 400 cycles of it, its
comparators inactive and their lanes toggling, no sample valid and no insulation result; in Dormant and Ship it does not power
up. VERGE_POWER_LOSS: no lane toggles, no sample is valid, values and charges stay, frames count for nothing, and what waits
in crossings 2 and 3 is dropped and counted. HVS_CLOCK_FAULT: the status shows the clock not good while the samples taken
stand; whether the clock has stopped, and with it every lane, the model leaves open (log entry 16). COMPARATOR_ACTIVE: a
powered and configured die's lane stops toggling. COMPARATOR_RELEASE: it toggles again where the die is powered and its clock
has not stopped (the model's reading, log entry 16). No other lane changes by either. -/
def Obligations.VergeDie : Prop :=
  ∀ (k : Fin 4) (delay : Nat) (l : Fin 5) (s : State),
    ((s.vrg.seen.getLsbD k = true ∨ unconfigured s = true) → exec (.vergeFrameDeadline k) s = .next s)
    ∧ (s.vrg.seen.getLsbD k = false → unconfigured s = false → completes (.vergeFrameDeadline k) s [.vrg] (fun t =>
        t.vrg.seen = setBit s.vrg.seen k true
        ∧ t.vrg.missing = (if k.val = 0 then min 255 (s.vrg.missing + 1) else s.vrg.missing)
        ∧ ∀ f : VergeFrame, f.k = k → exec (.vergeFrameReceived f) t = .next t))
    ∧ (mapUp s = false → s.pwr.waking = false → exec (.vergePowerUp delay) s = .next s)
    ∧ ((mapUp s = true ∨ s.pwr.waking = true) → completes (.vergePowerUp delay) s [.vrg] (fun t =>
        t.vrg.powered = true ∧ t.vrg.configured = !unconfigured s ∧ t.vrg.delay = delay ∧ t.vrg.cfg = s.cfg.verge
        ∧ t.vrg.clockGood = decide (delay ≤ 400) ∧ t.vrg.firstValid = false ∧ t.vrg.cycleOk = false ∧ t.vrg.resAt = none ∧ t.vrg.noResult = 0
        ∧ (∀ j, laneToggles t j = true) ∧ ∀ j, j < 4 → strValid t j = false))
    ∧ completes .vergePowerLoss s [.vrg, .cdc] (fun t =>
        (∀ j, laneToggles t j = false) ∧ (∀ j, strValid t j = false) ∧ t.vrg.v = s.vrg.v ∧ t.vrg.i = s.vrg.i
        ∧ t.vrg.charge = s.vrg.charge ∧ t.vrg.result = s.vrg.result
        ∧ (∀ n ∈ [2, 3], vget t.cdc.fill n = 0 ∧ vget t.cdc.dropped n = satAdd 16 (vget s.cdc.dropped n) (vget s.cdc.fill n))
        ∧ ∀ f : VergeFrame, exec (.vergeFrameReceived f) t = .next t)
    ∧ completes .hvsClockFault s [.fresh, .vrg] (fun t =>
        t.vrg = { s.vrg with clockGood := false, stopped := t.vrg.stopped }
        ∧ (∀ j, strValid t j = strValid s j) ∧ (t.vrg.stopped = true → ∀ j, laneToggles t j = false))
    ∧ ((s.vrg.powered = false ∨ s.vrg.configured = false) → exec (.comparatorActive l) s = .next s)
    ∧ (s.vrg.powered = true → s.vrg.configured = true → completes (.comparatorActive l) s [.vrg] (fun t =>
        laneToggles t l = false ∧ ∀ m : Fin 5, m ≠ l → laneToggles t m = laneToggles s m))
    ∧ completes (.comparatorRelease l) s [.vrg] (fun t =>
        laneToggles t l = (s.vrg.powered && !s.vrg.stopped) ∧ ∀ m : Fin 5, m ≠ l → laneToggles t m = laneToggles s m)

/-- INSULATION_CYCLE_END (R362 to R364, R436), of the cycle that ended last, once, with an image loaded: one with an
unsettled half, of the chassis or of the bus, or with a half in which the current limiter acted, gives no result, nor does one
that began before the die's first valid frame or ends with the die not up (the model's readings, log entry 71), and the fifth
in a row is to be logged; a settled one gives resistances whose conductances solve the node equations of the chassis, or
with the bus dead the equation of R363, a negative one lying below the range (the model's reading, log entry 71). The result
enters CORE with the next frame 0 and not before. -/
def Obligations.InsulationCycle : Prop :=
  ∀ (c : InsCycle) (s : State),
    let v := s.vrg
    let u1 := mkRat c.late1 1000000
    let u2 := mkRat c.late2 1000000
    let due := unconfigured s = false ∧ v.cycleOver = true
    let settled := fun b : InsBus => c.limited1 = false ∧ c.limited2 = false ∧ (∀ u ∈ [c.early1, c.late1, c.early2, c.late2], absI u ≤ 100000000)
      ∧ absI (c.early1 - c.late1) ≤ 250000 ∧ absI (c.early2 - c.late2) ≤ 250000
      ∧ absR (b.early1 - b.late1) ≤ 1 / 4 ∧ absR (b.early2 - b.late2) ≤ 1 / 4
    (¬ due → exec (.insulationCycleEnd c) s = .next s)
    ∧ (due → (vergeUp s = false ∨ ∀ b, v.ended = some b → ¬ settled b) → completes (.insulationCycleEnd c) s [.vrg] (fun t =>
        t.vrg.cycleOver = false ∧ t.vrg.ended = none ∧ t.vrg.unsettled = true ∧ t.vrg.noResult = satTo 16 (v.noResult + 1)
        ∧ t.vrg.insEvents = (if v.noResult = 4 then v.insEvents ++ [(3, 0)] else v.insEvents)
        ∧ t.vrg.result = v.result ∧ t.vrg.resAt = v.resAt ∧ t.vrg.resultDue = v.resultDue))
    ∧ (∀ b, due → vergeUp s = true → v.ended = some b → settled b → completes (.insulationCycleEnd c) s [.fresh, .vrg] (fun t =>
        t.vrg.cycleOver = false ∧ t.vrg.ended = none ∧ t.vrg.unsettled = false ∧ t.vrg.insEvents = v.insEvents ∧ t.vrg.result = v.result ∧ t.vrg.resAt = v.resAt
        ∧ ∃ (gp gn : Rat) (dead : Bool),
          t.vrg.resultDue = some ((insResistance gp).1, (insResistance gn).1, dead,
            (insResistance gp).2.1 || (insResistance gn).2.1, (insResistance gp).2.2 || (insResistance gn).2.2, b.mains)
          ∧ (gp < 0 → (insResistance gp).1 = 20) ∧ (gn < 0 → (insResistance gn).1 = 20)
          ∧ (dead = true ↔ b.late1 < 50 ∧ b.late2 < 50)
          ∧ (dead = true → u1 ≠ u2 → gn = gp ∧ (gp + 1 / 200) * (200 * (u1 - u2)) = 50)
          ∧ (dead = false → b.late2 * u1 ≠ b.late1 * u2 →
            b.late1 * gp - u1 * (gp + gn) = (u1 - 25) / 200 ∧ b.late2 * gp - u2 * (gp + gn) = (u2 + 25) / 200)))

/-- FEEDBACK_LINE_CHANGE and FEEDBACK_STANDSTILL (R369 to R374, R377, R378): the levels stand at the lands and, with
PASS, at FBOUT; hall and pulse counts, errors that leave the count, the index edges of a quadrature channel, whose
counts QuadratureChange states, counted and compared; nothing is counted outside Run and Doze. STANDSTILL ms without a
counted event, told by the battens counted while these run (the model's reading, log entry 18), stop speed and period.
No other channel changes. -/
def Obligations.FeedbackCounts : Prop :=
  ∀ (ch : Fin 4) (ls : LineSample) (s : State),
    let f := fbkOf s ch
    let hall := fun (x y z : Bool) => b2n x + 2 * b2n y + 4 * b2n z
    let others := fun (t : State) => ∀ m : Fin 4, m ≠ ch → fbkOf t m = fbkOf s m
    let shown := fun (t : State) => landLevels t ch = (ls.a, ls.b, ls.c)
      ∧ (f.cfg.pass = 1 → unconfigured s = false → s.pwr.power ≠ .ship →
        fbkOut t ch 0 = ls.a ∧ fbkOut t ch 1 = ls.b ∧ fbkOut t ch 2 = ls.c)
      ∧ (f.cfg.pass ≠ 1 → ∀ j, fbkOut t ch j = false)
    (fbkRuns s = false → completes (.feedbackLineChange ch ls) s [.lands] (fun t =>
        shown t ∧ t.lands = { s.lands with fb := t.lands.fb } ∧ ∀ m : Fin 4, m ≠ ch → landLevels t m = landLevels s m))
    ∧ (fbkRuns s = true → completes (.feedbackLineChange ch ls) s [.fresh, .lands, .fbk, .gtr] (fun t =>
      let g := fbkOf t ch
      others t ∧ shown t ∧ t.lands = { s.lands with fb := t.lands.fb } ∧ (∀ m : Fin 4, m ≠ ch → landLevels t m = landLevels s m)
      ∧ g.a = ls.a ∧ g.b = ls.b ∧ g.c = ls.c ∧ g.cfg = f.cfg
      ∧ ((f.cfg.mode = 1 → ∀ old, f.hallRef = some old →
          let new := hall ls.a ls.b ls.c
          new ≠ hall f.a f.b f.c →
          (hallNext old = new → new ≠ 0 → g.pos = wrap32 (f.pos + 1) ∧ g.errs = f.errs ∧ g.hallRef = some new)
          ∧ (hallNext new = old → hallNext old ≠ new → new ≠ 0 → new ≠ 7 → g.pos = wrap32 (f.pos - 1) ∧ g.errs = f.errs)
          ∧ ((new = 0 ∨ new = 7) → g.pos = f.pos ∧ g.errs = satAdd 16 f.errs 1 ∧ g.hallRef = none ∧ g.restart = true)
          ∧ (new ≠ 0 → new ≠ 7 → new ≠ old → hallNext old ≠ new → hallNext new ≠ old →
            g.pos = f.pos ∧ g.errs = satAdd 16 f.errs 1))
        ∧ (f.cfg.mode = 2 →
          (f.c = false → ls.c = true → g.edges = satAdd 16 f.edges 1 ∧ g.indexPos = g.pos
            ∧ (f.a = ls.a → f.b = ls.b → f.indexSeen = true → f.dirChanged = false → f.dir = .forward → f.indexDir = .forward →
              let d := satInt 16 (wrap32 (f.pos - f.indexPos) - 4 * f.cfg.lines)
              g.deviation = d ∧ g.mismatches = (if d = 0 then f.mismatches else satAdd 16 f.mismatches 1)))
          ∧ ((f.c = true ∨ ls.c = false) → g.edges = f.edges))
        ∧ (f.cfg.mode = 3 →
          (f.a = false → ls.a = true → g.pos = wrap32 (f.pos + 1) ∧ g.still = false ∧ g.countAt = s.bat.num
            ∧ (f.restart = false → f.since + ls.ticks ≠ 0 → g.period = satTo 32 (f.since + ls.ticks)))
          ∧ ((f.a = true ∨ ls.a = false) → g.pos = f.pos ∧ g.speed = f.speed)))))
    ∧ (let due := fbkRuns s = true ∧ f.cfg.mode ≠ 0 ∧ f.still = false
        ∧ (battensRun s = false ∨ f.countAt + f.cfg.standstill ≤ s.bat.num)
      (¬ due → exec (.feedbackStandstill ch) s = .next s)
      ∧ (due → completes (.feedbackStandstill ch) s [.fresh, .fbk, .gtr] (fun t =>
        let g := fbkOf t ch
        others t ∧ g.still = true ∧ g.speed = 0 ∧ g.period = 0 ∧ g.restart = true ∧ g.pos = f.pos)))

/-- R371: with the quadrature state A + 2B, a change of one line of a channel counts +1 when FBnA leads FBnB and −1 when FBnB
leads FBnA; a change of both in one sample is QUAD ERROR, which holds the count, adds 1 to the errors and restarts the period
measurement. -/
def Obligations.QuadratureChange : Prop :=
  ∀ (ch : Fin 4) (ls : LineSample) (s : State), fbkRuns s = true → (fbkOf s ch).cfg.mode = 2 →
    let f := fbkOf s ch
    let change := (b2n f.a + 2 * b2n f.b, b2n ls.a + 2 * b2n ls.b)
    completes (.feedbackLineChange ch ls) s [.fresh, .lands, .fbk, .gtr] (fun t =>
      let g := fbkOf t ch
      g.a = ls.a ∧ g.b = ls.b
      ∧ (change.1 = change.2 → g.pos = f.pos ∧ g.errs = f.errs)
      ∧ (change ∈ [(0, 1), (1, 3), (3, 2), (2, 0)] → g.pos = wrap32 (f.pos + 1) ∧ g.errs = f.errs)
      ∧ (change ∈ [(1, 0), (3, 1), (2, 3), (0, 2)] → g.pos = wrap32 (f.pos - 1) ∧ g.errs = f.errs)
      ∧ (change ∈ [(0, 3), (3, 0), (1, 2), (2, 1)] →
        g.pos = f.pos ∧ g.errs = satAdd 16 f.errs 1 ∧ g.restart = true ∧ g.logged.getLsbD 2 = true))

/-! ## Ledger, pager, registers -/

/-- LEDGER_COMMIT_COMPLETE (R197, R198, R203): with no commit in progress nothing completes. A commit read back right
has put its record into the slot without the newer copy, and a wipe then writes the other one; a readback that fails
spoils that slot alone, which is tried once more, and then counts as failed. The other slot, and every byte outside the
64, read as before. PFAIL_ASSERTED, PFAIL_CLEARED and VHOLD_OK_CHANGE (R199, R380, R381): a commit in progress goes on; with
none, PFAIL brings one CHARGE commit with CAUSE 1 while VHOLD_OK stands and no other, and staged commits go on when both
allow it; in Ship VHOLD is not charged. -/
def Obligations.LedgerCommits : Prop :=
  (∀ (ok : Bool) (s : State), memSafe s →
      (s.led.busy = none → exec (.ledgerCommitComplete ok) s = .next s)
      ∧ ∀ c again payload, s.led.busy = some (c, again, payload) →
        completes (.ledgerCommitComplete ok) s [.fresh, .mram, .led, .gtr] (fun t =>
          let r := commitRec c
          let b := commitTarget s c
          (∀ a, ¬ (recOffset r b ≤ a ∧ a < recOffset r b + 64) → memGet ramBlank t.mram a = memGet ramBlank s.mram a)
          ∧ recSlotBytes t r (!b) = recSlotBytes s r (!b)
          ∧ (ok = true → recSlotBytes t r b = commitBytes s c payload ∧ t.led.failed = s.led.failed ∧ t.gtr = s.gtr)
          ∧ (ok = true → (∀ x, c ≠ .wipe x none) → t.led.commits = satAdd 16 s.led.commits 1)
          ∧ (ok = true → ∀ x, c = .wipe x none → mayCommit s = true →
            ∃ pl, t.led.busy = some (.wipe x (some (!b)), false, pl))
          ∧ (ok = false → slotSeq t r b = none)
          ∧ (ok = false → again = false → commitTarget t c = b ∧ t.led.failed = s.led.failed ∧ t.led.commits = s.led.commits
            ∧ (mayCommit s = true → ∃ pl, t.led.busy = some (c, true, pl)))
          ∧ (ok = false → again = true → t.led.failed = satAdd 16 s.led.failed 1 ∧ t.led.commits = satAdd 16 s.led.commits 1)))
  ∧ (∀ s : State,
      let l := s.led
      (l.pfail = true → exec .pfailAsserted s = .next s)
      ∧ (l.pfail = false → completes .pfailAsserted s [.fresh, .led, .gtr] (fun t =>
          t.led.pfail = true ∧ t.led.staged = l.staged ∧ (l.busy ≠ none → t.led.busy = l.busy)
          ∧ (l.busy = none → l.vholdOk = true → unconfigured s = false →
            ∃ pl, t.led.busy = some (.write (.charge 1), false, pl))
          ∧ ((l.vholdOk = false ∨ unconfigured s = true) → t.led.busy = l.busy)))
      ∧ (l.pfail = false → exec .pfailCleared s = .next s)
      ∧ (l.pfail = true → completes .pfailCleared s [.fresh, .led, .gtr] (fun t =>
          t.led.pfail = false
          ∧ (∀ x again rest, l.busy = none → l.vholdOk = true → l.staged = (x, again) :: rest →
            t.led.staged = rest ∧ ∃ pl, t.led.busy = some (x, again, pl))))
      ∧ completes (.vholdOkChange false) s [.fresh, .led] (fun t => t.led = { l with vholdOk := false })
      ∧ (s.pwr.power = .ship → completes (.vholdOkChange true) s [.fresh, .led] (fun t => t.led = { l with vholdOk := false }))
      ∧ (s.pwr.power ≠ .ship → completes (.vholdOkChange true) s [.fresh, .led] (fun t =>
          t.led.vholdOk = true ∧ (l.busy ≠ none → t.led.busy = l.busy ∧ t.led.staged = l.staged)
          ∧ (∀ x again rest, l.busy = none → l.pfail = false → l.staged = (x, again) :: rest →
            t.led.staged = rest ∧ ∃ pl, t.led.busy = some (x, again, pl)))))

/-- PAGE_TRANSFER_COMPLETE and PAGE_QUEUE_ENTRY_EXPIRY (R23, R206): while a PAGE_DEMAND run is under
way, within its budget, a modified page is written back
before any fetch, and the fetched page is resident; entries whose page has been resident for 100 battens leave the
queues. SEGMENT_FREEZE and PGR_FCLEAR_WRITE (R211): the collecting segment freezes 2 000 battens after its latest
trigger or 2 288 after its first, and the lowest free segment becomes live; a write of PGR_FCLEAR frees frozen
segments alone. -/
def Obligations.PagesAndSegments : Prop :=
  (∀ s : State,
     let p := s.pgr
     ((p.budget = 0 ∨ p.psramOk = false ∨ demandRuns s = false) → exec .pageTransferComplete s = .next s)
     ∧ (p.budget ≠ 0 → p.psramOk = true → demandRuns s = true → completes .pageTransferComplete s [.pgr] (fun t =>
         (∀ x, p.cache.find? (·.modified) = some x →
           t.pgr.budget = p.budget - 1 ∧ t.pgr.queue = p.queue ∧ t.pgr.cache.map (·.no) = p.cache.map (·.no)
           ∧ ∀ y ∈ t.pgr.cache, y.no = x.no → y.modified = false)
         ∧ (p.cache.find? (·.modified) = none → ∀ n, nextFetch s = some n → p.cache.length < 64 →
           t.pgr.budget = p.budget - 1 ∧ resident t n = true
           ∧ ∀ r ∈ t.pgr.queue, r.page = n → r.residentSince.isSome = true)
         ∧ (p.cache.find? (·.modified) = none → nextFetch s = none → t = s)))
     ∧ completes .pageQueueEntryExpiry s [.pgr] (fun t =>
         t.pgr.cache = p.cache
         ∧ ∀ r, r ∈ t.pgr.queue ↔ (r ∈ p.queue ∧ ∀ b, r.residentSince = some b → s.bat.num < b + 100)))
  ∧ (∀ (who : Who) (m : BitVec 4) (s : State),
       let seg := fun (t : State) (i : Nat) => vget t.pgr.segs i
       let due := fun (i : Nat) => liveSeg s = some i ∧ (seg s i).st = .collecting
         ∧ ((seg s i).latest + 2000 ≤ s.bat.num ∨ (seg s i).start + 2288 ≤ s.bat.num)
       ((∀ i, ¬ due i) → exec .segmentFreeze s = .next s)
       ∧ (∀ i, due i → completes .segmentFreeze s [.fresh, .pgr, .gtr] (fun t =>
           ∀ j, j < 4 → (seg s j).st = .free → (∀ k, k < j → (seg s k).st ≠ .free) →
             seg t i = { seg s i with st := .frozen, frozenAt := s.bat.num } ∧ (seg t j).st = .live
             ∧ ∀ k, k < 4 → k ≠ i → k ≠ j → seg t k = seg s k))
       ∧ ((isSupervise s who = true ∧ unconfigured s = false ∧ s.cpr.run ≠ .halted) → completes (.pgrFclearWrite who m) s [.pgr] (fun t =>
           ∀ i, i < 4 → seg t i = (if m.getLsbD i = true ∧ (seg s i).st = .frozen then {} else seg s i)))
       ∧ ((isSupervise s who = false ∨ unconfigured s = true ∨ s.cpr.run = .halted) → exec (.pgrFclearWrite who m) s = .next s))

/-- EST_SEL_WRITE, EST_ZSEL_WRITE and LED_CSEL_WRITE (R166, R188, R212, R309 to R311): the words of the cell selected are
latched in the writer's own copy and in no other; any role but CONVERTER may. BAT_COUNT_LO_READ, GTR_ENTRY_READ and
READ_CLEAR_REGISTER (R7, R44, R310, R311, R418): a reader without read rights changes nothing; a read of BAT_COUNT_LO
latches the high word, and one of a Gutter entry its other words, in the reader's copy alone; a read clears a counting
register for SUPERVISE and MAINTAIN, and for no other role. -/
def Obligations.RegisterReads : Prop :=
  (∀ (who : Who) (c : BitVec 9) (j : BitVec 2) (s : State),
     let may := unconfigured s = false ∧ s.cpr.run ≠ .halted ∧ writeRole s who ≠ 0 ∧ writeRole s who ≠ roleCONVERTER
     let copy := fun (t : State) (n : Nat) => vget t.hst.latches n
     let me := copyOf s who
     let mine := fun (t : State) => t.hst = { s.hst with latches := t.hst.latches } ∧ ∀ n, n ≠ me → copy t n = copy s n
     (may → completes (.estSelWrite who c) s [.hst] (fun t =>
       mine t ∧ copy t me = { copy s me with estSel := c.toNat, est := estLatch s c.toNat }))
     ∧ (may → completes (.estZselWrite who c j) s [.hst] (fun t =>
       mine t ∧ copy t me = { copy s me with zSel := c.toNat, zIdx := j.toNat, z := zLatch s c.toNat j.toNat }))
     ∧ (may → completes (.ledCselWrite who c) s [.hst] (fun t =>
       mine t ∧ copy t me = { copy s me with ledSel := c.toNat, led := ledLatch s c.toNat }))
     ∧ (¬ may → exec (.estSelWrite who c) s = .next s ∧ exec (.estZselWrite who c j) s = .next s
       ∧ exec (.ledCselWrite who c) s = .next s))
  ∧ (∀ (who : Who) (i : Fin 1024) (s : State),
       let full := readRole s who = roleSUPERVISE ∨ readRole s who = roleMAINTAIN
       let copy := fun (t : State) (n : Nat) => vget t.hst.latches n
       let me := copyOf s who
       let mine := fun (t : State) => t.hst = { s.hst with latches := t.hst.latches } ∧ ∀ n, n ≠ me → copy t n = copy s n
       (readRole s who = 0 → exec (.batCountLoRead who) s = .next s ∧ exec (.gtrEntryRead who i) s = .next s
         ∧ ∀ a, exec (.readClearRegister who a) s = .next s)
       ∧ (readRole s who ≠ 0 → readRole s who ≤ 5 → completes (.batCountLoRead who) s [.fresh, .hst] (fun t =>
           mine t ∧ copy t me = { copy s me with batHi := s.bat.num / 2 ^ 32 % 65536 }))
       ∧ (full → completes (.gtrEntryRead who i) s [.fresh, .hst] (fun t =>
           mine t ∧ copy t me = { copy s me with
             gtrIdx := i.val, gtr := [1, 2, 3].map (fun w => BitVec.ofNat 32 (entryWord s i w)) }))
       ∧ (full →
         exec (.readClearRegister who 0x40000020) s
           = .next { s with fresh := s.fresh + 1, bat := { s.bat with dropCnt := 0 } }
         ∧ exec (.readClearRegister who 0x4002B004) s
           = .next { s with fresh := s.fresh + 1, led := { s.led with commits := 0, failed := 0 } }
         ∧ exec (.readClearRegister who 0x40040008) s
           = .next { s with fresh := s.fresh + 1, cpr := { s.cpr with restartable := 0, protective := 0 } }
         ∧ ∀ k : Fin 24, completes (.readClearRegister who (BitVec.ofNat 32 (0x40024200 + 4 * k.val))) s [.fresh, .eav]
             (fun t => chanOnly k s t ∧ chanOf t k = { chanOf s k with fails := 0, clamps := 0 }))
       ∧ (¬ full → ∀ a, ∃ t, exec (.readClearRegister who a) s = .next t ∧ only [.fresh, .hst] s t))

/-- SERVICE_OUT, SERVICE_IN, RESET_PORT, RESET_CONTACTOR and EST_REINIT_WRITE (R112, R166, R203, R309): a MAINTAIN
writer's alone; a service order waits for the next edge while its string is Open or in Lockout; the resets of the
ledger answer 2 without the role and 3 in a wrong state, and else make due what they reset, a port's cells with LIFETIME 0
(R200); a reinitialisation that names a cell that is not there is taken without effect (the model's choice, log entry 72). -/
def Obligations.MaintenanceWrites : Prop :=
  ∀ (who : Who) (s : State),
    let m := isMaintain s who = true ∧ unconfigured s = false ∧ s.cpr.run ≠ .halted
    let here := unconfigured s = false ∧ writeRole s who ≠ 0 ∧ s.cpr.run ≠ .halted
    let quiet := fun (k : Nat) => strState s k = .opened ∨ strState s k = .lockout
    (∀ k : Fin 4,
      let may := m ∧ operating s = true ∧ hasStr s k = true ∧ quiet k
      (may → exec (.serviceOut who k) s = .next { s with owl := { s.owl with service := s.owl.service ++ [(k.val, true)] } }
        ∧ exec (.serviceIn who k) s = .next { s with owl := { s.owl with service := s.owl.service ++ [(k.val, false)] } })
      ∧ (¬ may → exec (.serviceOut who k) s = .next s ∧ exec (.serviceIn who k) s = .next s))
    ∧ (∀ p : Fin 32,
      let right := (portOf s p).st = .outOfService ∨ (0 < portCells s p ∧ quiet (portRec s p).string)
      (¬ here → exec (.resetPort who p) s = .next s)
      ∧ (here → isMaintain s who = false → exec (.resetPort who p) s = .next (ledResult s 2))
      ∧ (m → ¬ right → exec (.resetPort who p) s = .next (ledResult s 3))
      ∧ (m → right → completes (.resetPort who p) s [.led, .cpr] (fun t =>
          t.led.cmdResult = 4 ∧ vget t.led.idents p = none ∧ Commit.wipe (.port p) none ∈ t.led.work.due
          ∧ (∀ l, l < 16 → Commit.wipe (.cell (16 * p + l)) none ∈ t.led.work.due)
          ∧ (∀ c ∈ cellsOfPort s p, c < 512 → (vget t.led.cells c).lifetime = 0 ∧ (vget t.led.cells c).socRec = none)
          ∧ ∀ q, q ≠ p.val → vget t.led.idents q = vget s.led.idents q)))
    ∧ (∀ (k : Fin 4) (r : BitVec 2),
      let right := hasStr s k = true ∧ r.toNat < 3 ∧ quiet k
      let i := 3 * k.val + r.toNat
      (¬ here → exec (.resetContactor who k r) s = .next s)
      ∧ (here → isMaintain s who = false → exec (.resetContactor who k r) s = .next (ledResult s 2))
      ∧ (m → ¬ right → exec (.resetContactor who k r) s = .next (ledResult s 3))
      ∧ (m → right → completes (.resetContactor who k r) s [.led, .cpr] (fun t =>
          t.led.cmdResult = 4 ∧ Commit.write (.contactor i) ∈ t.led.work.due
          ∧ vget t.led.wear i = { identity := ((contactorOf s k r.toNat).map (·.2.identity)).getD 0 }
          ∧ ∀ n, n ≠ i → vget t.led.wear n = vget s.led.wear n)))
    ∧ (∀ (c : BitVec 9) (whole : Bool),
      (m → c.toNat < nCells s → completes (.estReinitWrite who c whole) s [.est] (fun t =>
        t.est = { s.est with reinit := t.est.reinit }
        ∧ ∀ d, d < 512 → t.est.reinit.getLsbD d = (s.est.reinit.getLsbD d
          || (if whole then (cellsOfStr s (cellStr s c.toNat)).contains d else d == c.toNat))))
      ∧ ((¬ m ∨ nCells s ≤ c.toNat) → exec (.estReinitWrite who c whole) s = .next s))

/-- REGISTER_WRITE (R6, R7, R76, R280, R309, R312): with both cores halted a soft reset alone is served; a writer
without the role the register asks for changes nothing, one without any role has HST_BENCH at most; in Unconfigured only
the image stage, PWR_CMD and HST_BENCH can be written; a register with a command of its own has one meaning, whichever
names it; the words of the balance hold and of LOCAL are kept. -/
def Obligations.RegisterWrites : Prop :=
  ∀ (who : Who) (a v : Word) (s : State),
    let served := s.cpr.run ≠ .halted
    (¬ served → (a ≠ 0x40029018 ∨ v.toNat % 16 ≠ 2) → exec (.registerWrite who a v) s = .next s)
    ∧ (mayWrite s who a.toNat = false → exec (.registerWrite who a v) s = .next s)
    ∧ (writeRole s who = 0 → inBench s = false → a ≠ 0x40027108 → exec (.registerWrite who a v) s = .next s)
    ∧ (unconfigured s = true → a ∉ [0x40001034#32, 0x40001038, 0x4000103C, 0x40029018, 0x40027108] →
      exec (.registerWrite who a v) s = .next s)
    ∧ (isMaintain s who = true → unconfigured s = false → served →
      exec (.registerWrite who 0x40014110 v) s = .next { s with tha := { s.tha with balHold := v.setWidth 4 } })
    ∧ (isSupervise s who = true → unconfigured s = false → served →
      exec (.registerWrite who 0x40022074 v) s = .next { s with rdg := { s.rdg with localSel := v.setWidth 4 } })
    ∧ exec (.registerWrite who 0x40020020 v) s = exec (.estSelWrite who (v.setWidth 9)) s
    ∧ exec (.registerWrite who 0x40020100 v) s = exec (.estZselWrite who (v.setWidth 9) ((v >>> 9).setWidth 2)) s
    ∧ exec (.registerWrite who 0x4002006C v) s = exec (.estReinitWrite who (v.setWidth 9) (v.getLsbD 9)) s
    ∧ exec (.registerWrite who 0x50000030 v) s = exec (.pgrFclearWrite who (v.setWidth 4)) s
    ∧ exec (.registerWrite who 0x4002A000 v) s = exec (.cdcOvrClear who (v.setWidth 15)) s

/-! ## Starts, low power, heat -/

/-- POWER_ON, POWER_ON_BY_WAKE, START_THRESHOLD_DIP and BROWN_OUT_RESET (R73, R204, R381, R390, R391, R398, R400, R401,
R429): a cold start loads the image of R73 with PSRAM blank; a power-on resets Spar and Eaves with every gate and
channel off, a brown-out leaves Spar's latch and VHOLD_OK and starts Eaves' hold window. Each is counted, with an image
or without. MRAM changes only where a commit was cut. The wake land starts a module in Ship alone, and a brown-out finds
no supply there. -/
def Obligations.ColdStarts : Prop :=
  ∀ s : State,
    let kept := (readRec s .module).getD (List.replicate 52 0#8)
    let cold := fun (kind : Nat) (t : State) =>
      started kind t ∧ coldImage s t ∧ t.psram = [] ∧ (s.led.busy = none → t.mram = s.mram
        ∧ t.led.cold = fieldLe kept 36 4 + b2n (kind ≤ 1) ∧ t.led.brown = fieldLe kept 40 4 + b2n (kind == 2))
    let off := fun (t : State) => t.spar.gateCmd = 0 ∧ t.spar.causes = 0 ∧ t.eav.on = 0 ∧ t.eav.hold = false
    completes .powerOn s startParts (fun t => cold 0 t ∧ off t)
    ∧ (s.pwr.power = .ship → completes .powerOnByWake s startParts (fun t => cold 1 t ∧ off t))
    ∧ (s.pwr.power ≠ .ship → exec .powerOnByWake s = .next s)
    ∧ exec .startThresholdDip s = .next s
    ∧ (s.pwr.power = .ship → exec .brownOutReset s = .next s)
    ∧ (s.pwr.power ≠ .ship → completes .brownOutReset s startParts (fun t =>
        cold 2 t ∧ t.led.vholdOk = s.led.vholdOk ∧ t.spar.causes = s.spar.causes ∧ t.spar.mode = (if t.img.module = .unconfigured
            ∧ (s.spar.mode = .armed ∨ s.spar.mode = .proving) then .unconfigured else s.spar.mode)
        ∧ (s.eav.down = false → eavRuns s = true → t.eav.hold = true)))

/-- WARM_RESTART and SOFT_RESET (R21, R80, R82, R83, R280, R398, R399, R407, R408): at the restart edge the image is
loaded again by R80 and R83, Spar's latch as it was, but never with both cores halted for good; a soft reset is refused
without the role or in the wrong state with its code, and else is a cold start that leaves Spar and the NOR; halted
cores take it from the Gable port while no string is in Lockout, and the thermal halt takes none. -/
def Obligations.WarmAndSoftRestarts : Prop :=
  ∀ (who : Who) (s : State),
    let edge := (s.img.restarting = true ∧ s.cpr.run ≠ .halted) ∨ (restartArmed s = true ∧ (phaseOf s = 9 ∨ s.img.benchExit = true))
    let latch := fun (t : State) => t.spar.causes = s.spar.causes
    let anyone := s.cpr.run = .halted ∧ mapUp s = true ∧ who = .gable
    let mayNow := if s.cpr.run = .halted then anyLockout s = false
      else unconfigured s = true ∨ inBench s = true ∨ allOpen s = true
    let answer := fun (n : Nat) => Host.Outcome.next { s with pwr := { s.pwr with cmdRes := n } }
    (¬ edge → exec .warmRestart s = .next s)
    ∧ (edge → completes .warmRestart s startParts (fun t => started 4 t ∧ warmImage s t ∧ latch t
        ∧ t.pwr.wakeAt = s.pwr.wakeAt ∧ t.pwr.sensors = s.pwr.sensors))
    ∧ (writeRole s who = 0 → ¬ anyone → exec (.softReset who) s = .next s)
    ∧ (s.pwr.halted = true → exec (.softReset who) s = .next s)
    ∧ (s.pwr.halted = false → writeRole s who ≠ 0 → ¬ anyone → isMaintain s who = false → unconfigured s = false →
        exec (.softReset who) s = answer 2)
    ∧ (s.pwr.halted = false → (isMaintain s who = true ∨ anyone) → ¬ mayNow → exec (.softReset who) s = answer 3)
    ∧ (s.pwr.halted = false → (isMaintain s who = true ∨ anyone) → mayNow → completes (.softReset who) s startParts (fun t =>
        started 3 t ∧ coldImage s t ∧ latch t ∧ (s.led.busy = none → t.mram = s.mram)))

/-- DORMANT_ENTRY_ABANDON, DORMANT_ENTRY, WAKE_SOURCE and AON_WAKE_TIMER (R22, R148, R258, R380, R386, R387): the entry
ends in Operating with every string Open, the last batten's samples in the charge counters, PSRAM and NOR put to sleep;
a source abandons an entry in its first steps and wakes a module that sleeps, Spar only with something to wake for; no
wake while another runs or after a Ship order; the timer wakes with the bits it was set with. WAKE_COMPLETE and
WAKE_ROUND_END (R26, R388, R389, R400): the batten number takes the battens slept, a locked clock is in holdover, Spar
leaves Dormant with no gate on against R244, the ports that were up go back to SYNCING, and the feedback channels start
direction, period and standstill timer again from the levels that stand at their lands, a speed of 0 while the direction
is none (R375; its period with it, log entry 47); a wake round ends where its conditions stand. -/
def Obligations.DormantAndWakes : Prop :=
  (∀ (src : WakeSource) (s : State),
     let p := s.pwr
     let wakes := src ≠ .spar ∨ sparWakes s = true
     ((p.entering = none ∨ p.asleep = true) → exec .dormantEntryAbandon s = .next s)
     ∧ (p.entering ≠ none → p.asleep = false → completes .dormantEntryAbandon s [.fresh, .pwr, .gtr] (fun t =>
         t.pwr = { p with entering := none, last := false, abandons := satAdd 8 p.abandons 1 }))
     ∧ ((p.asleep = true ∧ p.shipOrdered = false ∧ p.power ≠ .dormant ∧ operating s = true ∧ allOpen s = true) →
       completes .dormantEntry s [.bat, .owl, .tha, .est, .pgr, .vrg, .pwr] (fun t =>
         t.pwr = { p with power := .dormant, memoriesDown := true, entries := satAdd 8 p.entries 1 } ∧ t.bat.num = s.bat.num ∧ t.bat.todo = []
         ∧ t.vrg.powered = false ∧ t.vrg.charge = (vergeBattenEnd s).vrg.charge ∧ mapUp t = false))
     ∧ ((p.asleep = false ∨ p.shipOrdered = true ∨ p.power = .dormant ∨ operating s = false ∨ allOpen s = false) → exec .dormantEntry s = .next s)
     ∧ (¬ wakes → exec (.wakeSource src) s = .next s)
     ∧ (wakes → p.asleep = false → exec (.wakeSource src) s = exec .dormantEntryAbandon s)
     ∧ (wakes → p.asleep = true → p.shipOrdered = false → p.waking = false → exec (.wakeSource src) s
         = .next { s with pwr := { p with waking := true, wake := BitVec.ofNat 6 (wakeBit src) } })
     ∧ (p.asleep = true → (p.shipOrdered = true ∨ p.waking = true) → exec (.wakeSource src) s = .next s)
     ∧ ((p.power ≠ .dormant ∨ p.timer = none) → exec .aonWakeTimer s = .next s)
     ∧ (∀ b bits, p.power = .dormant → p.timer = some (b, bits) → p.asleep = true → p.shipOrdered = false → p.waking = false →
         exec .aonWakeTimer s = .next { s with pwr := { p with waking := true, wake := BitVec.ofNat 6 bits } }))
  ∧ (∀ (n : Nat) (s : State),
       (s.pwr.waking = false → exec (.wakeComplete n) s = .next s)
       ∧ (s.pwr.waking = true →
         completes (.wakeComplete n) s [.fresh, .bat, .owl, .tha, .est, .led, .pgr, .spar, .cpr, .hst, .can, .fbk, .pwr, .gtr] (fun t =>
           t.bat.num = s.bat.num + n ∧ t.bat.first = true
           ∧ t.bat.sync = (if s.bat.sync = .locked then .holdover else s.bat.sync)
           ∧ t.pwr.power = .run ∧ t.pwr.asleep = false ∧ t.pwr.waking = false ∧ t.pwr.timer = none ∧ t.pwr.memoriesDown = false
           ∧ t.pwr.dormantLen = satTo 16 (n / 1000) ∧ t.spar.dormant = false ∧ gatesSafe t
           ∧ (∀ p ∈ usedPorts s, p < 32 →
             ((portOf s p).st = .inService ∨ (portOf s p).st = .proving ∨ (portOf s p).st = .identifying) →
             (portOf t p).st = .syncing)
           ∧ ∀ ch : Fin 4,
             let g := fbkOf t ch
             g.pos = (fbkOf s ch).pos ∧ (g.a, g.b, g.c) = landLevels s ch ∧ g.dir = .none ∧ g.restart = true
             ∧ g.countAt = t.bat.num ∧ (g.cfg.mode ≠ 3 → g.speed = 0 ∧ g.period = 0)))
       ∧ (let ends := ∃ b, s.pwr.wakeRound = some b ∧ (phaseOf s = 0 ∨ b + 10000 ≤ s.bat.num) ∧ roundOver s b = true
         (¬ ends → exec .wakeRoundEnd s = .next s)
         ∧ (ends → completes .wakeRoundEnd s [.fresh, .owl, .led, .pwr] (fun t => t.pwr.wakeRound = none))))

/-- SHIP and SHIP_ENTRY (R390, R399, R408): SHIP is refused without the role, with a string not Open, and where the
image does not allow it, each with its code; accepted, the stop records fall due and an entry toward Dormant ends. Once
the module sleeps, in Operating with every string Open, the supplies switch off: every gate and channel off, PSRAM lost,
NOR and ledger kept. THERMAL_HALT, THERMAL_HALT_EXIT and CROSSING_WAKE_REQUEST (R280, R392, R397, R406, R407): in
Unconfigured a round that reaches Shutdown halts at once; after the all-off word the cores halt with the isolated
converter, the ports and the networks; the tenth round in a row with every sensor read below 120.0 °C starts the module
again with kind 5, but with both cores halted for good, and a warmer or failed one begins the count anew. A wake request
carries its item, which then waits, and is counted; a reader held in reset drops it, counted as dropped. How many items
the reader had taken before is left open (log entry 5). -/
def Obligations.ShipAndHalt : Prop :=
  (∀ (who : Who) (s : State),
     let ok := s.cfg.power.map (·.shipOk) = some 1
     let answer := fun (n : Nat) => Host.Outcome.next { s with pwr := { s.pwr with cmdRes := n } }
     let served := s.cpr.run ≠ .halted
     ((writeRole s who = 0 ∨ ¬ served) → exec (.ship who) s = .next s)
     ∧ (writeRole s who ≠ 0 → served → (isMaintain s who = false ∨ unconfigured s = true) → exec (.ship who) s = answer 2)
     ∧ (isMaintain s who = true → served → unconfigured s = false → (operating s = false ∨ allOpen s = false) →
         exec (.ship who) s = answer 3)
     ∧ (isMaintain s who = true → served → operating s = true → allOpen s = true → ¬ ok → exec (.ship who) s = answer 4)
     ∧ (isMaintain s who = true → served → operating s = true → allOpen s = true → ok →
       completes (.ship who) s [.owl, .led, .cpr, .pwr] (fun t =>
         t.pwr = { s.pwr with cmdRes := 1, shipOrdered := true, entering := none, last := false }
         ∧ t.led.work.stopCells.isSome = true
         ∧ (s.led.work.stopCells = none → t.led.work.stopCells = some (allIndices s) ∧ t.led.work.periodic = [])))
     ∧ ((s.pwr.shipOrdered = false ∨ s.pwr.asleep = false ∨ operating s = false ∨ allOpen s = false) →
       exec .shipEntry s = .next s)
     ∧ ((s.pwr.shipOrdered = true ∧ s.pwr.asleep = true ∧ operating s = true ∧ allOpen s = true) →
       completes .shipEntry s [.psram, .img, .cfg, .bat, .owl, .tha, .est, .led, .pgr, .rdg, .spar, .cpr, .priv, .eav, .hst, .can,
           .vrg, .fbk, .pwr, .cdc, .gtr] (fun t =>
         t.pwr = { power := .ship } ∧ t.psram = [] ∧ t.spar.gateCmd = 0 ∧ t.eav.on = 0 ∧ t.vrg.powered = false
         ∧ mapUp t = false ∧ sparRuns t = false ∧ eavRuns t = false)))
  ∧ (∀ (r : Vector AdcSample 6) (k : Fin 15) (s : State),
       let p := s.pwr
       let cool := ∀ n : Fin 6, ∃ a b, vget r n = .ok a b ∧ -550 ≤ max a b ∧ max a b < 1200
       let up := p.halted = false ∧ mapUp s = true ∧ s.img.restarting = false
       (¬ up → exec (.thermalHalt r) s = .next s)
       ∧ (up → unconfigured s = false → p.offSent = false → exec (.thermalHalt r) s = .next s)
       ∧ (up → p.offSent = true →
         completes (.thermalHalt r) s [.fresh, .bat, .owl, .est, .led, .cpr, .eav, .hst, .can, .vrg, .pwr, .cdc, .gtr] (fun t =>
           t.pwr.halted = true ∧ t.pwr.stop = 4 ∧ t.pwr.coolRounds = 0 ∧ coresRun t = false ∧ t.bat.todo = []
           ∧ t.owl.bulkOpen = false ∧ t.vrg.powered = false ∧ t.hst.linkA = .down ∧ t.hst.linkB = .down
           ∧ (s.eav.down = false → eavRuns s = true → t.eav.hold = true)))
       ∧ (up → unconfigured s = true →
         completes (.thermalHalt r) s [.fresh, .bat, .owl, .est, .led, .cpr, .eav, .hst, .can, .vrg, .pwr, .cdc, .gtr] (fun t =>
           p.level < 3 → 3 ≤ t.pwr.level → p.stop = 0 → t.pwr.halted = true))
       ∧ (p.halted = false → exec (.thermalHaltExit r) s = .next s)
       ∧ (p.halted = true → ¬ (cool ∧ 9 ≤ p.coolRounds ∧ s.cpr.run ≠ .halted) → completes (.thermalHaltExit r) s [.fresh, .pwr, .gtr] (fun t =>
           t.pwr.halted = true ∧ t.pwr.level = p.level ∧ (cool → t.pwr.coolRounds = p.coolRounds + 1)
           ∧ (¬ cool → t.pwr.coolRounds = 0)))
       ∧ (p.halted = true → cool → 9 ≤ p.coolRounds → s.cpr.run ≠ .halted → completes (.thermalHaltExit r) s startParts (fun t =>
           started 5 t ∧ warmImage s t ∧ t.spar.causes = s.spar.causes ∧ t.pwr.halted = false))
       ∧ (mapUp s = false → exec (.crossingWakeRequest k) s = .next s)
       ∧ (mapUp s = true → readerInReset s k = true → completes (.crossingWakeRequest k) s [.cdc] (fun t =>
           t.cdc = { s.cdc with dropped := t.cdc.dropped } ∧ vget t.cdc.dropped k = satAdd 16 (vget s.cdc.dropped k) 1
           ∧ ∀ j : Fin 15, j ≠ k → vget t.cdc.dropped j = vget s.cdc.dropped j))
       ∧ (mapUp s = true → readerInReset s k = false → completes (.crossingWakeRequest k) s [.fresh, .cdc, .gtr] (fun t =>
           t.cdc.wakes = satAdd 16 s.cdc.wakes 1 ∧ t.cdc.dropped = s.cdc.dropped
           ∧ 1 ≤ vget t.cdc.fill k ∧ vget t.cdc.fill k ≤ vget s.cdc.fill k + 1
           ∧ (∀ j : Fin 15, j ≠ k → vget t.cdc.fill j = vget s.cdc.fill j)
           ∧ (vget s.cdc.fill k = 0 → t.cdc.ovr = s.cdc.ovr ∧ t.cdc.full = s.cdc.full))))

end
end

