-- ==== Sys2Proof/Laws/Memory.lean ====
section
/-! SUPPORT. The memory operations: they keep the canonical form, a byte written reads as written, and every other byte
reads as before. -/

namespace Sys2Proof.Machine

theorem memWfFrom_mono {d : Byte} {a b : Nat} {m : Mem} (hab : a ≤ b) (h : memWfFrom d b m = true) : memWfFrom d a m = true := by
  cases m with
  | nil => rfl
  | cons c m =>
    obtain ⟨x, v⟩ := c
    simp only [memWfFrom, Bool.and_eq_true, decide_eq_true_eq] at h ⊢
    exact ⟨⟨Nat.le_trans hab h.1.1, h.1.2⟩, h.2⟩

theorem memWfFrom_put {d : Byte} (x : Nat) (v : Byte) : ∀ (m : Mem) (lo : Nat), lo ≤ x → memWfFrom d lo m = true → memWfFrom d lo (memPut d m x v) = true
  | [], lo, hlo, _ => by
    unfold memPut
    split
    · rfl
    · simp_all [memWfFrom]
  | (a, b) :: m, lo, hlo, h => by
    simp only [memWfFrom, Bool.and_eq_true, decide_eq_true_eq] at h
    obtain ⟨⟨h1, h2⟩, h3⟩ := h
    unfold memPut
    split
    · rename_i hx
      split
      · simp_all [memWfFrom]
      · simp only [memWfFrom, Bool.and_eq_true, decide_eq_true_eq, bne_iff_ne, ne_eq]
        exact ⟨⟨hlo, ‹_›⟩, ⟨by omega, by simpa using h2⟩, h3⟩
    · split
      · split
        · exact memWfFrom_mono (by omega) h3
        · simp_all [memWfFrom]
      · simp only [memWfFrom, Bool.and_eq_true, decide_eq_true_eq]
        exact ⟨⟨h1, h2⟩, memWfFrom_put x v m (a + 1) (by omega) h3⟩

/-- One byte written keeps the canonical form. -/
theorem memPut_wf {d : Byte} {m : Mem} (x : Nat) (v : Byte) (h : Mem.wf d m = true) : Mem.wf d (memPut d m x v) = true :=
  memWfFrom_put x v m 0 (Nat.zero_le x) h

/-- Bytes written keep the canonical form. -/
theorem memPuts_wf {d : Byte} {m : Mem} (x : Nat) (l : List Byte) (h : Mem.wf d m = true) : Mem.wf d (memPuts d m x l) = true := by
  induction l generalizing m x with
  | nil => exact h
  | cons b l ih => exact ih (x + 1) (memPut_wf x b h)

theorem memWfFrom_erase {d : Byte} (x y : Nat) : ∀ (m : Mem) (lo : Nat), memWfFrom d lo m = true → memWfFrom d lo (memErase m x y) = true
  | [], _, _ => rfl
  | (a, b) :: m, lo, h => by
    simp only [memWfFrom, Bool.and_eq_true, decide_eq_true_eq] at h
    have ih := memWfFrom_erase x y m (a + 1) h.2
    unfold memErase at ih ⊢
    simp only [List.filter]
    split
    · simp only [memWfFrom, Bool.and_eq_true, decide_eq_true_eq]
      exact ⟨h.1, ih⟩
    · exact memWfFrom_mono (by omega) ih

/-- A range erased keeps the canonical form. -/
theorem memErase_wf {d : Byte} {m : Mem} (x y : Nat) (h : Mem.wf d m = true) : Mem.wf d (memErase m x y) = true :=
  memWfFrom_erase x y m 0 h

/-- Below its lowest entry a memory reads as blank. -/
theorem memGet_below {d : Byte} : ∀ (m : Mem) (lo y : Nat), memWfFrom d lo m = true → y < lo → memGet d m y = d
  | [], _, _, _, _ => rfl
  | (a, b) :: m, lo, y, h, hy => by
    simp only [memWfFrom, Bool.and_eq_true, decide_eq_true_eq] at h
    unfold memGet
    rw [if_neg (by omega)]
    exact memGet_below m (a + 1) y h.2 (by omega)

theorem memGet_put_from {d : Byte} (x : Nat) (v : Byte) (y : Nat) : ∀ (m : Mem) (lo : Nat), memWfFrom d lo m = true →
    memGet d (memPut d m x v) y = if y = x then v else memGet d m y
  | [], lo, _ => by
    unfold memPut
    split <;> rename_i hv
    · subst hv; split <;> rfl
    · simp only [memGet, eq_comm]
  | (a, b) :: m, lo, h => by
    have hb := h
    simp only [memWfFrom, Bool.and_eq_true, decide_eq_true_eq] at h
    have below := fun z (hz : z < a + 1) => memGet_below m (a + 1) z h.2 hz
    unfold memPut
    by_cases h1 : x < a
    · rw [if_pos h1]
      by_cases hv : v = d
      · rw [if_pos hv]
        by_cases hy : y = x
        · subst hy; rw [if_pos rfl]; unfold memGet; rw [if_neg (by omega), below y (by omega), hv]
        · rw [if_neg hy]
      · rw [if_neg hv]
        by_cases hy : y = x
        · subst hy; rw [if_pos rfl]; unfold memGet; rw [if_pos rfl]
        · rw [if_neg hy]; conv => lhs; unfold memGet
          rw [if_neg (fun e => hy e.symm)]
    · rw [if_neg h1]
      by_cases h2 : x = a
      · subst h2
        rw [if_pos rfl]
        by_cases hv : v = d
        · rw [if_pos hv]
          by_cases hy : y = x
          · subst hy; rw [if_pos rfl, below y (by omega), hv]
          · rw [if_neg hy]; conv => rhs; unfold memGet
            rw [if_neg (fun e => hy e.symm)]
        · rw [if_neg hv]
          by_cases hy : y = x
          · subst hy; rw [if_pos rfl]; unfold memGet; rw [if_pos rfl]
          · rw [if_neg hy]; unfold memGet; rw [if_neg (fun e => hy e.symm), if_neg (fun e => hy e.symm)]
      · rw [if_neg h2]
        have ih := memGet_put_from x v y m (a + 1) h.2
        conv => lhs; unfold memGet
        by_cases hy : y = x
        · subst hy; rw [if_neg (fun e => h2 e.symm), ih, if_pos rfl, if_pos rfl]
        · rw [ih, if_neg hy, if_neg hy]; conv => rhs; unfold memGet

/-- A byte written reads as written, every other byte as before. -/
theorem memGet_put {d : Byte} {m : Mem} (x : Nat) (v : Byte) (y : Nat) (h : Mem.wf d m = true) :
    memGet d (memPut d m x v) y = if y = x then v else memGet d m y :=
  memGet_put_from x v y m 0 h

/-- Bytes written read as written, every other byte as before. -/
theorem memGet_puts {d : Byte} (y : Nat) : ∀ (l : List Byte) (m : Mem) (x : Nat), Mem.wf d m = true →
    memGet d (memPuts d m x l) y = if x ≤ y ∧ y < x + l.length then l.getD (y - x) d else memGet d m y
  | [], m, x, _ => by
    unfold memPuts; rw [if_neg (by simp only [List.length_nil]; omega)]
  | b :: l, m, x, h => by
    unfold memPuts
    rw [memGet_puts y l _ (x + 1) (memPut_wf x b h), memGet_put x b y h]
    by_cases hy : y = x
    · subst hy
      rw [if_neg (by omega), if_pos rfl, if_pos (by simp only [List.length_cons]; omega), Nat.sub_self]; rfl
    · rw [if_neg hy]
      by_cases hin : x + 1 ≤ y ∧ y < x + 1 + l.length
      · rw [if_pos hin, if_pos (by simp only [List.length_cons]; omega)]
        obtain ⟨k, rfl⟩ : ∃ k, y = x + 1 + k := ⟨y - (x + 1), by omega⟩
        have e : x + 1 + k - x = k + 1 := by omega
        rw [e, Nat.add_sub_cancel_left]; rfl
      · rw [if_neg hin, if_neg (by simp only [List.length_cons]; omega)]

theorem memGet_erase_from {d : Byte} (lo hi y : Nat) : ∀ (m : Mem) (k : Nat), memWfFrom d k m = true →
    memGet d (memErase m lo hi) y = if lo ≤ y ∧ y < hi then d else memGet d m y
  | [], _, _ => by show d = if lo ≤ y ∧ y < hi then d else d; split <;> rfl
  | (a, b) :: m, k, h => by
    simp only [memWfFrom, Bool.and_eq_true, decide_eq_true_eq] at h
    have ih := memGet_erase_from lo hi y m (a + 1) h.2
    unfold memErase at ih ⊢
    simp only [List.filter]
    split <;> rename_i hc
    · simp only [Bool.or_eq_true, decide_eq_true_eq] at hc
      unfold memGet
      by_cases hy : a = y
      · subst hy; rw [if_pos rfl, if_pos rfl, if_neg (by omega)]
      · rw [if_neg hy, if_neg hy]; exact ih
    · simp only [Bool.or_eq_false_iff, decide_eq_false_iff_not] at hc
      rw [ih]
      by_cases hin : lo ≤ y ∧ y < hi
      · rw [if_pos hin, if_pos hin]
      · rw [if_neg hin, if_neg hin]; conv => rhs; unfold memGet
        rw [if_neg (by omega)]

/-- An erased range reads as blank, every other byte as before. -/
theorem memGet_erase {d : Byte} {m : Mem} (lo hi y : Nat) (h : Mem.wf d m = true) :
    memGet d (memErase m lo hi) y = if lo ≤ y ∧ y < hi then d else memGet d m y :=
  memGet_erase_from lo hi y m 0 h

theorem memTake_eq {d : Byte} : ∀ (n x : Nat) (m : Mem), memWfFrom d x m = true →
    memTake d n x m = (List.range n).map (fun i => memGet d m (x + i))
  | 0, _, _, _ => rfl
  | n + 1, x, [], _ => by
    unfold memTake
    rw [memTake_eq n (x + 1) [] rfl, List.range_succ_eq_map, List.map_cons, List.map_map]
    rfl
  | n + 1, x, (a, b) :: m, h => by
    have hw := h
    simp only [memWfFrom, Bool.and_eq_true, decide_eq_true_eq] at h
    unfold memTake
    by_cases ha : a = x
    · subst ha
      rw [if_pos rfl, memTake_eq n (a + 1) m h.2, List.range_succ_eq_map, List.map_cons, List.map_map]
      congr 1
      · simp only [memGet, Nat.add_zero, if_true]
      · apply List.map_congr_left
        intro i _
        simp only [Function.comp, memGet]
        rw [if_neg (by omega), Nat.succ_eq_add_one, show a + (i + 1) = a + 1 + i by omega]
    · have hge : memWfFrom d (x + 1) ((a, b) :: m) = true := by
        simp only [memWfFrom, Bool.and_eq_true, decide_eq_true_eq]; exact ⟨⟨by omega, h.1.2⟩, h.2⟩
      rw [if_neg ha, memTake_eq n (x + 1) _ hge, List.range_succ_eq_map, List.map_cons, List.map_map]
      congr 1
      · exact (memGet_below _ (x + 1) x hge (by omega)).symm
      · apply List.map_congr_left
        intro i _
        simp only [Function.comp]
        rw [Nat.succ_eq_add_one, show x + (i + 1) = x + 1 + i by omega]

theorem memDrop_from {d : Byte} (x : Nat) : ∀ (m : Mem) (lo : Nat), memWfFrom d lo m = true →
    (memWfFrom d x (m.dropWhile (fun c => c.1 < x)) = true
      ∧ ∀ y, x ≤ y → memGet d (m.dropWhile (fun c => c.1 < x)) y = memGet d m y)
  | [], _, _ => ⟨rfl, fun _ _ => rfl⟩
  | (a, b) :: m, lo, h => by
    have hw := h
    simp only [memWfFrom, Bool.and_eq_true, decide_eq_true_eq] at h
    simp only [List.dropWhile]
    split <;> rename_i hc
    · simp only [decide_eq_true_eq] at hc
      have ih := memDrop_from x m (a + 1) h.2
      refine ⟨ih.1, fun y hy => ?_⟩
      rw [ih.2 y hy]; conv => rhs; unfold memGet
      rw [if_neg (by omega)]
    · simp only [decide_eq_false_iff_not] at hc
      refine ⟨?_, fun _ _ => rfl⟩
      simp only [memWfFrom, Bool.and_eq_true, decide_eq_true_eq]
      exact ⟨⟨by omega, h.1.2⟩, h.2⟩

/-- Several bytes read one by one. -/
theorem memGets_eq {d : Byte} {m : Mem} (x n : Nat) (h : Mem.wf d m = true) :
    memGets d m x n = (List.range n).map (fun i => memGet d m (x + i)) := by
  have k := memDrop_from (d := d) x m 0 h
  unfold memGets
  rw [memTake_eq n x _ k.1]
  exact List.map_congr_left fun i _ => k.2 (x + i) (by omega)

/-- As many bytes are read as are asked for. -/
theorem memGets_length {d : Byte} {m : Mem} (x n : Nat) (h : Mem.wf d m = true) : (memGets d m x n).length = n := by
  rw [memGets_eq x n h, List.length_map, List.length_range]

/-- What was written is read back. -/
theorem memGets_puts {d : Byte} {m : Mem} (x : Nat) (l : List Byte) (h : Mem.wf d m = true) :
    memGets d (memPuts d m x l) x l.length = l := by
  rw [memGets_eq x _ (memPuts_wf x l h)]
  apply List.ext_getElem
  · rw [List.length_map, List.length_range]
  · intro i h1 h2
    rw [List.getElem_map, List.getElem_range, memGet_puts _ l m x h, if_pos (by omega), Nat.add_sub_cancel_left,
      List.getD_eq_getElem?_getD, List.getElem?_eq_getElem h2]; rfl

end Sys2Proof.Machine
end

