-- ==== Sys2Proof/Laws/Frames.lean ====
section
/-! SUPPORT. What an operation leaves alone: `Leaves us s t` says that `t` differs from `s` in the parts `us` alone and
that canonical memories stay canonical. Its rules, and one lemma per set of fields updated. -/

namespace Sys2Proof.Machine

/-- A step of the model that changes the named parts alone and keeps canonical memories canonical. -/
structure Leaves (us : List Part) (s t : State) : Prop where
  rest : only us s t
  wf : memSafe s → memSafe t

/-- One list of parts lies in another. -/
def among (c us : List Part) : Bool := c.all (us.contains ·)

theorem mem_of_among {c us : List Part} {p : Part} (h : among c us = true) (hp : p ∈ c) : p ∈ us := by
  simpa using List.all_eq_true.mp h p hp

theorem Leaves.refl {us : List Part} {s : State} : Leaves us s s := ⟨fun p => .inr (by cases p <;> rfl), id⟩

theorem same_trans {s t u : State} {p : Part} (h : p.same s t) (k : p.same t u) : p.same s u := by
  cases p <;> exact Eq.trans k h

theorem Leaves.trans {us : List Part} {s t u : State} (h : Leaves us s t) (k : Leaves us t u) : Leaves us s u :=
  ⟨fun p => (h.rest p).elim .inl fun a => (k.rest p).imp_right (same_trans a), fun w => k.wf (h.wf w)⟩

theorem Leaves.step {c us : List Part} {s t u : State} (k : Leaves c t u) (hu : among c us = true) (h : Leaves us s t) :
    Leaves us s u :=
  h.trans ⟨fun p => (k.rest p).imp_left (mem_of_among hu), k.wf⟩

theorem Leaves.ite {us : List Part} {s a b : State} {c : Prop} [Decidable c] (ha : Leaves us s a) (hb : Leaves us s b) :
    Leaves us s (if c then a else b) := by split <;> assumption

theorem Leaves.forEach {α : Type} {us : List Part} {f : State → α → State} {l : List α} {s t : State}
    (hf : ∀ u a, Leaves us u (f u a)) (h : Leaves us s t) : Leaves us s (forEach l f t) := by
  unfold Machine.forEach
  induction l generalizing t with
  | nil => exact h
  | cons a l ih => exact ih (h.trans (hf t a))

theorem Leaves.foldl {α : Type} {us : List Part} {f : State → α → State} {l : List α} {s t : State}
    (hf : ∀ u a, Leaves us u (f u a)) (h : Leaves us s t) : Leaves us s (l.foldl f t) := Leaves.forEach hf h

theorem Leaves.foldl_fst {α β : Type} {us : List Part} {f : State × β → α → State × β} {l : List α} {s : State} {x : State × β}
    (hf : ∀ x a, Leaves us x.1 (f x a).1) (h : Leaves us s x.1) : Leaves us s (l.foldl f x).1 := by
  induction l generalizing x with
  | nil => exact h
  | cons a l ih => exact ih (h.trans (hf x a))

/-- An operation that may not apply: what it leaves where it does. -/
def LeavesOpt (us : List Part) (s : State) (o : Option State) : Prop := ∀ t, o = some t → Leaves us s t

/-- A command's outcome: what its next state leaves. -/
def LeavesOut (us : List Part) (s : State) (o : Out) : Prop := ∀ t, o = .next t → Leaves us s t

theorem leavesOpt_some {us : List Part} {s t : State} (h : Leaves us s t) : LeavesOpt us s (some t) := by
  intro u e; injection e with e; exact e ▸ h

theorem leavesOpt_none {us : List Part} {s : State} : LeavesOpt us s none := by intro t e; contradiction

theorem leavesOut_next {us : List Part} {s t : State} (h : Leaves us s t) : LeavesOut us s (.next t) := by
  intro u e; injection e with e; exact e ▸ h

theorem leavesOut_fault {us : List Part} {s : State} {f : Fault} : LeavesOut us s (.fault f) := by intro t e; contradiction

theorem leavesOut_refused {us : List Part} {s : State} {f : Refusal} : LeavesOut us s (.refused f) := by intro t e; contradiction

theorem leavesOpt_step {c us : List Part} {s t : State} {o : Option State} (k : LeavesOpt c t o) (hu : among c us = true)
    (h : Leaves us s t) : LeavesOpt us s o := fun u e => (k u e).step hu h

theorem leavesOut_step {c us : List Part} {s t : State} {o : Out} (k : LeavesOut c t o) (hu : among c us = true)
    (h : Leaves us s t) : LeavesOut us s o := fun u e => (k u e).step hu h

theorem leaves_of_some {c us : List Part} {s t u : State} {o : Option State} (k : LeavesOpt c t o) (e : o = some u)
    (hu : among c us = true) (h : Leaves us s t) : Leaves us s u := (k u e).step hu h

theorem leaves_of_next {c us : List Part} {s t u : State} {o : Out} (k : LeavesOut c t o) (e : o = .next u)
    (hu : among c us = true) (h : Leaves us s t) : Leaves us s u := (k u e).step hu h

theorem leaves_orSame {us : List Part} {s t : State} {o : Option State} (ho : LeavesOpt us s o) (h : Leaves us s t) :
    Leaves us s (orSame t o) := by
  cases o with
  | none => exact h
  | some u => exact ho u rfl

theorem leaves_tookOr {us : List Part} {s t : State} {o : Option State} (ho : LeavesOpt us s o) (h : Leaves us s t) :
    Leaves us s (tookOr t o).2 := by
  cases o with
  | none => exact h
  | some u => exact ho u rfl

theorem leaves_of_snd {α : Type} {us : List Part} {s t : State} {p : α × State} {x : α} (e : p = (x, t)) (h : Leaves us s p.2) :
    Leaves us s t := by rw [e] at h; exact h

theorem leaves_of_fst {α : Type} {us : List Part} {s t : State} {p : State × α} {x : α} (e : p = (t, x)) (h : Leaves us s p.1) :
    Leaves us s t := by rw [e] at h; exact h

/-- More parts may be named. -/
theorem LeavesOpt.wide {c us : List Part} {s : State} {o : Option State} (k : LeavesOpt c s o) (hu : among c us = true) :
    LeavesOpt us s o := leavesOpt_step k hu .refl

/-- More parts may be named. -/
theorem Leaves.wide {c us : List Part} {s t : State} (k : Leaves c s t) (hu : among c us = true) : Leaves us s t :=
  k.step hu .refl

/-- What a write-back of journalled lines leaves is canonical. -/
theorem rewindMem_wf {c : Core} {p : Nat} {m : Mem} (h : Mem.wf ramBlank m = true) : Mem.wf ramBlank (rewindMem c p m) = true := by
  unfold rewindMem
  generalize c.journal.filter (fun j => j.part == p) = l
  induction l generalizing m with
  | nil => exact h
  | cons j l ih => exact ih (memPuts_wf _ _ h)

/-- A change of the debugger keeps private memory canonical. -/
theorem editCore_wf {x : Core × Mem} (e : DebugEdit) (h : Mem.wf ramBlank x.2 = true) : Mem.wf ramBlank (editCore x e).2 = true := by
  cases e with
  | regWrite i v => unfold editCore; dsimp only; split <;> exact h
  | memWrite a v => exact h
  | privWrite off v => exact memPuts_wf _ _ h
  | pcWrite v => exact h

/-- The replay keeps private memory canonical. -/
theorem editCores_wf {α : Type} {x : Core × Mem} (l : List (α × DebugEdit)) (h : Mem.wf ramBlank x.2 = true) :
    Mem.wf ramBlank (l.foldl (fun k x => editCore k x.2) x).2 = true := by
  induction l generalizing x with
  | nil => exact h
  | cons e l ih => exact ih (editCore_wf e.2 h)

/-- An event of a core keeps its private memory canonical. -/
theorem coreEvent_wf {r : Nat → Bool} {x : Core × Mem} (e : CoreEvent) (h : Mem.wf ramBlank x.2 = true) :
    Mem.wf ramBlank (coreEvent r x e).2 = true := by
  cases e with
  | regWrite _ _ _ => exact h
  | store _ _ _ _ => exact h
  | load _ _ _ => exact h
  | privStore part off d size =>
    show Mem.wf ramBlank (storePriv r x (partNo part) off.toNat size d).2 = true
    unfold storePriv
    dsimp only
    split
    · exact h
    · exact memPuts_wf _ _ h

/-- A core's run keeps its private memory canonical. -/
theorem coreRun_wf {r : Nat → Bool} {x : Core × Mem} (t : CoreTrace) (h : Mem.wf ramBlank x.2 = true) :
    Mem.wf ramBlank (coreRun r x t).2 = true := by
  unfold coreRun
  dsimp only
  generalize t.events = l
  induction l generalizing x with
  | nil => exact h
  | cons e l ih => exact ih (coreEvent_wf e h)

/-- What follows for a frame that is taken leaves what the frame's hearing and what follows leave. -/
theorem onTaken_leaves {us : List Part} {s : State} {r : State × Bool} {f : State → State} (h : Leaves us s r.1)
    (hf : ∀ u, Leaves us u (f u)) : Leaves us s (onTaken r f) := .ite (h.trans (hf _)) h

/-- The lead core's run keeps its private memory canonical. -/
theorem leadRun_wf {s : State} {t : CoreTrace} (h : Mem.wf ramBlank s.priv.lead = true) : Mem.wf ramBlank (leadRun s t).2 = true := by
  unfold leadRun; exact coreRun_wf t h

/-- The check core's run keeps its private memory canonical. -/
theorem checkRun_wf {s : State} {t : CoreTrace} (h : Mem.wf ramBlank s.priv.check = true) :
    Mem.wf ramBlank (checkRun s t).2 = true := by
  unfold checkRun
  split
  · exact h
  · exact coreRun_wf t h

theorem leaves_erase_nor {us : List Part} {s t : State} {x y : Nat} (hu : among [.nor] us = true) (h : Leaves us s t) :
    Leaves us s { t with nor := memErase t.nor x y } :=
  ⟨fun p => by cases p <;> first | exact .inl (mem_of_among hu (by decide)) | exact h.rest _,
    fun w => ⟨memErase_wf _ _ (h.wf w).1, (h.wf w).2⟩⟩

theorem leaves_erase_psram {us : List Part} {s t : State} {x y : Nat} (hu : among [.psram] us = true) (h : Leaves us s t) :
    Leaves us s { t with psram := memErase t.psram x y } :=
  ⟨fun p => by cases p <;> first | exact .inl (mem_of_among hu (by decide)) | exact h.rest _,
    fun w => ⟨(h.wf w).1, (h.wf w).2.1, memErase_wf _ _ (h.wf w).2.2.1, (h.wf w).2.2.2⟩⟩

theorem leaves_puts_psram {us : List Part} {s t : State} {x : Nat} {l : List Byte} (hu : among [.psram] us = true) (h : Leaves us s t) :
    Leaves us s { t with psram := memPuts ramBlank t.psram x l } :=
  ⟨fun p => by cases p <;> first | exact .inl (mem_of_among hu (by decide)) | exact h.rest _,
    fun w => ⟨(h.wf w).1, (h.wf w).2.1, memPuts_wf _ _ (h.wf w).2.2.1, (h.wf w).2.2.2⟩⟩

theorem leaves_puts_nor {us : List Part} {s t : State} {x : Nat} {l : List Byte} (hu : among [.nor] us = true) (h : Leaves us s t) :
    Leaves us s { t with nor := memPuts norBlank t.nor x l } :=
  ⟨fun p => by cases p <;> first | exact .inl (mem_of_among hu (by decide)) | exact h.rest _,
    fun w => ⟨memPuts_wf _ _ (h.wf w).1, (h.wf w).2⟩⟩

theorem leaves_cpr_priv {us : List Part} {s t : State} {x0} {x1} (hu : among [.cpr, .priv] us = true)
    (hx : memSafe t → Mem.wf ramBlank x1.lead = true ∧ Mem.wf ramBlank x1.check = true) (h : Leaves us s t) :
    Leaves us s { t with cpr := x0, priv := x1 } :=
  ⟨fun p => by cases p <;> first | exact .inl (mem_of_among hu (by decide)) | exact h.rest _,
    fun w => ⟨(h.wf w).1, (h.wf w).2.1, (h.wf w).2.2.1, hx (h.wf w)⟩⟩

theorem leaves_bat {us : List Part} {s t : State} {x0} (hu : among [.bat] us = true) (h : Leaves us s t) :
    Leaves us s { t with bat := x0 } :=
  ⟨fun p => by cases p <;> first | exact .inl (mem_of_among hu (by decide)) | exact h.rest _, h.wf⟩

theorem leaves_owl {us : List Part} {s t : State} {x0} (hu : among [.owl] us = true) (h : Leaves us s t) :
    Leaves us s { t with owl := x0 } :=
  ⟨fun p => by cases p <;> first | exact .inl (mem_of_among hu (by decide)) | exact h.rest _, h.wf⟩

theorem leaves_tha {us : List Part} {s t : State} {x0} (hu : among [.tha] us = true) (h : Leaves us s t) :
    Leaves us s { t with tha := x0 } :=
  ⟨fun p => by cases p <;> first | exact .inl (mem_of_among hu (by decide)) | exact h.rest _, h.wf⟩

theorem leaves_rdg {us : List Part} {s t : State} {x0} (hu : among [.rdg] us = true) (h : Leaves us s t) :
    Leaves us s { t with rdg := x0 } :=
  ⟨fun p => by cases p <;> first | exact .inl (mem_of_among hu (by decide)) | exact h.rest _, h.wf⟩

theorem leaves_eav {us : List Part} {s t : State} {x0} (hu : among [.eav] us = true) (h : Leaves us s t) :
    Leaves us s { t with eav := x0 } :=
  ⟨fun p => by cases p <;> first | exact .inl (mem_of_among hu (by decide)) | exact h.rest _, h.wf⟩

theorem leaves_hst {us : List Part} {s t : State} {x0} (hu : among [.hst] us = true) (h : Leaves us s t) :
    Leaves us s { t with hst := x0 } :=
  ⟨fun p => by cases p <;> first | exact .inl (mem_of_among hu (by decide)) | exact h.rest _, h.wf⟩

theorem leaves_can {us : List Part} {s t : State} {x0} (hu : among [.can] us = true) (h : Leaves us s t) :
    Leaves us s { t with can := x0 } :=
  ⟨fun p => by cases p <;> first | exact .inl (mem_of_among hu (by decide)) | exact h.rest _, h.wf⟩

theorem leaves_fbk {us : List Part} {s t : State} {x0} (hu : among [.fbk] us = true) (h : Leaves us s t) :
    Leaves us s { t with fbk := x0 } :=
  ⟨fun p => by cases p <;> first | exact .inl (mem_of_among hu (by decide)) | exact h.rest _, h.wf⟩

theorem leaves_fresh {us : List Part} {s t : State} {x0} (hu : among [.fresh] us = true) (h : Leaves us s t) :
    Leaves us s { t with fresh := x0 } :=
  ⟨fun p => by cases p <;> first | exact .inl (mem_of_among hu (by decide)) | exact h.rest _, h.wf⟩

theorem leaves_led_cpr {us : List Part} {s t : State} {x0} {x1} (hu : among [.led, .cpr] us = true) (h : Leaves us s t) :
    Leaves us s { t with led := x0, cpr := x1 } :=
  ⟨fun p => by cases p <;> first | exact .inl (mem_of_among hu (by decide)) | exact h.rest _, h.wf⟩

theorem leaves_gtr {us : List Part} {s t : State} {x0} (hu : among [.gtr] us = true) (h : Leaves us s t) :
    Leaves us s { t with gtr := x0 } :=
  ⟨fun p => by cases p <;> first | exact .inl (mem_of_among hu (by decide)) | exact h.rest _, h.wf⟩

theorem leaves_spar {us : List Part} {s t : State} {x0} (hu : among [.spar] us = true) (h : Leaves us s t) :
    Leaves us s { t with spar := x0 } :=
  ⟨fun p => by cases p <;> first | exact .inl (mem_of_among hu (by decide)) | exact h.rest _, h.wf⟩

theorem leaves_cpr {us : List Part} {s t : State} {x0} (hu : among [.cpr] us = true) (h : Leaves us s t) :
    Leaves us s { t with cpr := x0 } :=
  ⟨fun p => by cases p <;> first | exact .inl (mem_of_among hu (by decide)) | exact h.rest _, h.wf⟩

theorem leaves_est_led {us : List Part} {s t : State} {x0} {x1} (hu : among [.est, .led] us = true) (h : Leaves us s t) :
    Leaves us s { t with est := x0, led := x1 } :=
  ⟨fun p => by cases p <;> first | exact .inl (mem_of_among hu (by decide)) | exact h.rest _, h.wf⟩

theorem leaves_led {us : List Part} {s t : State} {x0} (hu : among [.led] us = true) (h : Leaves us s t) :
    Leaves us s { t with led := x0 } :=
  ⟨fun p => by cases p <;> first | exact .inl (mem_of_among hu (by decide)) | exact h.rest _, h.wf⟩

theorem leaves_pgr {us : List Part} {s t : State} {x0} (hu : among [.pgr] us = true) (h : Leaves us s t) :
    Leaves us s { t with pgr := x0 } :=
  ⟨fun p => by cases p <;> first | exact .inl (mem_of_among hu (by decide)) | exact h.rest _, h.wf⟩

theorem leaves_cdc {us : List Part} {s t : State} {x0} (hu : among [.cdc] us = true) (h : Leaves us s t) :
    Leaves us s { t with cdc := x0 } :=
  ⟨fun p => by cases p <;> first | exact .inl (mem_of_among hu (by decide)) | exact h.rest _, h.wf⟩

theorem leaves_vrg {us : List Part} {s t : State} {x0} (hu : among [.vrg] us = true) (h : Leaves us s t) :
    Leaves us s { t with vrg := x0 } :=
  ⟨fun p => by cases p <;> first | exact .inl (mem_of_among hu (by decide)) | exact h.rest _, h.wf⟩

theorem leaves_fresh_vrg {us : List Part} {s t : State} {x0} {x1} (hu : among [.fresh, .vrg] us = true) (h : Leaves us s t) :
    Leaves us s { t with fresh := x0, vrg := x1 } :=
  ⟨fun p => by cases p <;> first | exact .inl (mem_of_among hu (by decide)) | exact h.rest _, h.wf⟩

theorem leaves_est {us : List Part} {s t : State} {x0} (hu : among [.est] us = true) (h : Leaves us s t) :
    Leaves us s { t with est := x0 } :=
  ⟨fun p => by cases p <;> first | exact .inl (mem_of_among hu (by decide)) | exact h.rest _, h.wf⟩

theorem leaves_fresh_led {us : List Part} {s t : State} {x0} {x1} (hu : among [.fresh, .led] us = true) (h : Leaves us s t) :
    Leaves us s { t with fresh := x0, led := x1 } :=
  ⟨fun p => by cases p <;> first | exact .inl (mem_of_among hu (by decide)) | exact h.rest _, h.wf⟩

theorem leaves_pwr {us : List Part} {s t : State} {x0} (hu : among [.pwr] us = true) (h : Leaves us s t) :
    Leaves us s { t with pwr := x0 } :=
  ⟨fun p => by cases p <;> first | exact .inl (mem_of_among hu (by decide)) | exact h.rest _, h.wf⟩

theorem leaves_led_vrg {us : List Part} {s t : State} {x0} {x1} (hu : among [.led, .vrg] us = true) (h : Leaves us s t) :
    Leaves us s { t with led := x0, vrg := x1 } :=
  ⟨fun p => by cases p <;> first | exact .inl (mem_of_among hu (by decide)) | exact h.rest _, h.wf⟩

theorem leaves_img {us : List Part} {s t : State} {x0} (hu : among [.img] us = true) (h : Leaves us s t) :
    Leaves us s { t with img := x0 } :=
  ⟨fun p => by cases p <;> first | exact .inl (mem_of_among hu (by decide)) | exact h.rest _, h.wf⟩

theorem leaves_img_bat {us : List Part} {s t : State} {x0} {x1} (hu : among [.img, .bat] us = true) (h : Leaves us s t) :
    Leaves us s { t with img := x0, bat := x1 } :=
  ⟨fun p => by cases p <;> first | exact .inl (mem_of_among hu (by decide)) | exact h.rest _, h.wf⟩

theorem leaves_img_cpr {us : List Part} {s t : State} {x0} {x1} (hu : among [.img, .cpr] us = true) (h : Leaves us s t) :
    Leaves us s { t with img := x0, cpr := x1 } :=
  ⟨fun p => by cases p <;> first | exact .inl (mem_of_among hu (by decide)) | exact h.rest _, h.wf⟩

theorem leaves_lands {us : List Part} {s t : State} {x0} (hu : among [.lands] us = true) (h : Leaves us s t) :
    Leaves us s { t with lands := x0 } :=
  ⟨fun p => by cases p <;> first | exact .inl (mem_of_among hu (by decide)) | exact h.rest _, h.wf⟩

theorem leaves_fresh_spar {us : List Part} {s t : State} {x0} {x1} (hu : among [.fresh, .spar] us = true) (h : Leaves us s t) :
    Leaves us s { t with fresh := x0, spar := x1 } :=
  ⟨fun p => by cases p <;> first | exact .inl (mem_of_among hu (by decide)) | exact h.rest _, h.wf⟩

theorem leaves_fresh_tha_pgr {us : List Part} {s t : State} {x0} {x1} {x2} (hu : among [.fresh, .tha, .pgr] us = true) (h : Leaves us s t) :
    Leaves us s { t with fresh := x0, tha := x1, pgr := x2 } :=
  ⟨fun p => by cases p <;> first | exact .inl (mem_of_among hu (by decide)) | exact h.rest _, h.wf⟩

theorem leaves_rdg_spar {us : List Part} {s t : State} {x0} {x1} (hu : among [.rdg, .spar] us = true) (h : Leaves us s t) :
    Leaves us s { t with rdg := x0, spar := x1 } :=
  ⟨fun p => by cases p <;> first | exact .inl (mem_of_among hu (by decide)) | exact h.rest _, h.wf⟩

theorem leaves_rdg_vrg {us : List Part} {s t : State} {x0} {x1} (hu : among [.rdg, .vrg] us = true) (h : Leaves us s t) :
    Leaves us s { t with rdg := x0, vrg := x1 } :=
  ⟨fun p => by cases p <;> first | exact .inl (mem_of_among hu (by decide)) | exact h.rest _, h.wf⟩

theorem leaves_img_led {us : List Part} {s t : State} {x0} {x1} (hu : among [.img, .led] us = true) (h : Leaves us s t) :
    Leaves us s { t with img := x0, led := x1 } :=
  ⟨fun p => by cases p <;> first | exact .inl (mem_of_among hu (by decide)) | exact h.rest _, h.wf⟩

theorem leaves_rdg_pwr {us : List Part} {s t : State} {x0} {x1} (hu : among [.rdg, .pwr] us = true) (h : Leaves us s t) :
    Leaves us s { t with rdg := x0, pwr := x1 } :=
  ⟨fun p => by cases p <;> first | exact .inl (mem_of_among hu (by decide)) | exact h.rest _, h.wf⟩

theorem leaves_rdg_eav {us : List Part} {s t : State} {x0} {x1} (hu : among [.rdg, .eav] us = true) (h : Leaves us s t) :
    Leaves us s { t with rdg := x0, eav := x1 } :=
  ⟨fun p => by cases p <;> first | exact .inl (mem_of_among hu (by decide)) | exact h.rest _, h.wf⟩

theorem leaves_hst_gtr {us : List Part} {s t : State} {x0} {x1} (hu : among [.hst, .gtr] us = true) (h : Leaves us s t) :
    Leaves us s { t with hst := x0, gtr := x1 } :=
  ⟨fun p => by cases p <;> first | exact .inl (mem_of_among hu (by decide)) | exact h.rest _, h.wf⟩

theorem leaves_est_led_pgr {us : List Part} {s t : State} {x0} {x1} {x2} (hu : among [.est, .led, .pgr] us = true) (h : Leaves us s t) :
    Leaves us s { t with est := x0, led := x1, pgr := x2 } :=
  ⟨fun p => by cases p <;> first | exact .inl (mem_of_among hu (by decide)) | exact h.rest _, h.wf⟩

theorem leaves_bat_owl_cpr_eav_hst_gtr {us : List Part} {s t : State} {x0} {x1} {x2} {x3} {x4} {x5} (hu : among [.bat, .owl, .cpr, .eav, .hst, .gtr] us = true) (h : Leaves us s t) :
    Leaves us s { t with bat := x0, owl := x1, cpr := x2, eav := x3, hst := x4, gtr := x5 } :=
  ⟨fun p => by cases p <;> first | exact .inl (mem_of_among hu (by decide)) | exact h.rest _, h.wf⟩

theorem leaves_cpr_gtr {us : List Part} {s t : State} {x0} {x1} (hu : among [.cpr, .gtr] us = true) (h : Leaves us s t) :
    Leaves us s { t with cpr := x0, gtr := x1 } :=
  ⟨fun p => by cases p <;> first | exact .inl (mem_of_among hu (by decide)) | exact h.rest _, h.wf⟩

theorem leaves_bat_cpr {us : List Part} {s t : State} {x0} {x1} (hu : among [.bat, .cpr] us = true) (h : Leaves us s t) :
    Leaves us s { t with bat := x0, cpr := x1 } :=
  ⟨fun p => by cases p <;> first | exact .inl (mem_of_among hu (by decide)) | exact h.rest _, h.wf⟩

theorem leaves_est_pwr {us : List Part} {s t : State} {x0} {x1} (hu : among [.est, .pwr] us = true) (h : Leaves us s t) :
    Leaves us s { t with est := x0, pwr := x1 } :=
  ⟨fun p => by cases p <;> first | exact .inl (mem_of_among hu (by decide)) | exact h.rest _, h.wf⟩

theorem leaves_bat_owl_can_pwr {us : List Part} {s t : State} {x0} {x1} {x2} {x3} (hu : among [.bat, .owl, .can, .pwr] us = true) (h : Leaves us s t) :
    Leaves us s { t with bat := x0, owl := x1, can := x2, pwr := x3 } :=
  ⟨fun p => by cases p <;> first | exact .inl (mem_of_among hu (by decide)) | exact h.rest _, h.wf⟩

theorem leaves_bat_pwr {us : List Part} {s t : State} {x0} {x1} (hu : among [.bat, .pwr] us = true) (h : Leaves us s t) :
    Leaves us s { t with bat := x0, pwr := x1 } :=
  ⟨fun p => by cases p <;> first | exact .inl (mem_of_among hu (by decide)) | exact h.rest _, h.wf⟩

theorem leaves_bat_tha_est_pgr_spar_hst_pwr {us : List Part} {s t : State} {x0} {x1} {x2} {x3} {x4} {x5} {x6} (hu : among [.bat, .tha, .est, .pgr, .spar, .hst, .pwr] us = true) (h : Leaves us s t) :
    Leaves us s { t with bat := x0, tha := x1, est := x2, pgr := x3, spar := x4, hst := x5, pwr := x6 } :=
  ⟨fun p => by cases p <;> first | exact .inl (mem_of_among hu (by decide)) | exact h.rest _, h.wf⟩

theorem leaves_img_cfg {us : List Part} {s t : State} {x0} {x1} (hu : among [.img, .cfg] us = true) (h : Leaves us s t) :
    Leaves us s { t with img := x0, cfg := x1 } :=
  ⟨fun p => by cases p <;> first | exact .inl (mem_of_among hu (by decide)) | exact h.rest _, h.wf⟩

theorem leaves_img_est_led_rdg_spar_vrg {us : List Part} {s t : State} {x0} {x1} {x2} {x3} {x4} {x5} (hu : among [.img, .est, .led, .rdg, .spar, .vrg] us = true) (h : Leaves us s t) :
    Leaves us s { t with img := x0, est := x1, led := x2, rdg := x3, spar := x4, vrg := x5 } :=
  ⟨fun p => by cases p <;> first | exact .inl (mem_of_among hu (by decide)) | exact h.rest _, h.wf⟩

theorem leaves_img_cfg_vrg {us : List Part} {s t : State} {x0} {x1} {x2} (hu : among [.img, .cfg, .vrg] us = true) (h : Leaves us s t) :
    Leaves us s { t with img := x0, cfg := x1, vrg := x2 } :=
  ⟨fun p => by cases p <;> first | exact .inl (mem_of_among hu (by decide)) | exact h.rest _, h.wf⟩

theorem leaves_img_bat_owl {us : List Part} {s t : State} {x0} {x1} {x2} (hu : among [.img, .bat, .owl] us = true) (h : Leaves us s t) :
    Leaves us s { t with img := x0, bat := x1, owl := x2 } :=
  ⟨fun p => by cases p <;> first | exact .inl (mem_of_among hu (by decide)) | exact h.rest _, h.wf⟩

theorem leaves_led_pgr {us : List Part} {s t : State} {x0} {x1} (hu : among [.led, .pgr] us = true) (h : Leaves us s t) :
    Leaves us s { t with led := x0, pgr := x1 } :=
  ⟨fun p => by cases p <;> first | exact .inl (mem_of_among hu (by decide)) | exact h.rest _, h.wf⟩

theorem leaves_bat_hst {us : List Part} {s t : State} {x0} {x1} (hu : among [.bat, .hst] us = true) (h : Leaves us s t) :
    Leaves us s { t with bat := x0, hst := x1 } :=
  ⟨fun p => by cases p <;> first | exact .inl (mem_of_among hu (by decide)) | exact h.rest _, h.wf⟩

theorem leaves_hst_pwr {us : List Part} {s t : State} {x0} {x1} (hu : among [.hst, .pwr] us = true) (h : Leaves us s t) :
    Leaves us s { t with hst := x0, pwr := x1 } :=
  ⟨fun p => by cases p <;> first | exact .inl (mem_of_among hu (by decide)) | exact h.rest _, h.wf⟩

theorem leaves_bat_pgr {us : List Part} {s t : State} {x0} {x1} (hu : among [.bat, .pgr] us = true) (h : Leaves us s t) :
    Leaves us s { t with bat := x0, pgr := x1 } :=
  ⟨fun p => by cases p <;> first | exact .inl (mem_of_among hu (by decide)) | exact h.rest _, h.wf⟩

theorem leaves_rdg_cpr {us : List Part} {s t : State} {x0} {x1} (hu : among [.rdg, .cpr] us = true) (h : Leaves us s t) :
    Leaves us s { t with rdg := x0, cpr := x1 } :=
  ⟨fun p => by cases p <;> first | exact .inl (mem_of_among hu (by decide)) | exact h.rest _, h.wf⟩

theorem leaves_bat_spar_cpr_hst_can_fbk_pwr {us : List Part} {s t : State} {x0} {x1} {x2} {x3} {x4} {x5} {x6} (hu : among [.bat, .spar, .cpr, .hst, .can, .fbk, .pwr] us = true) (h : Leaves us s t) :
    Leaves us s { t with bat := x0, spar := x1, cpr := x2, hst := x3, can := x4, fbk := x5, pwr := x6 } :=
  ⟨fun p => by cases p <;> first | exact .inl (mem_of_among hu (by decide)) | exact h.rest _, h.wf⟩

theorem leaves_eav_pwr {us : List Part} {s t : State} {x0} {x1} (hu : among [.eav, .pwr] us = true) (h : Leaves us s t) :
    Leaves us s { t with eav := x0, pwr := x1 } :=
  ⟨fun p => by cases p <;> first | exact .inl (mem_of_among hu (by decide)) | exact h.rest _, h.wf⟩

theorem leaves_rdg_hst_pwr {us : List Part} {s t : State} {x0} {x1} {x2} (hu : among [.rdg, .hst, .pwr] us = true) (h : Leaves us s t) :
    Leaves us s { t with rdg := x0, hst := x1, pwr := x2 } :=
  ⟨fun p => by cases p <;> first | exact .inl (mem_of_among hu (by decide)) | exact h.rest _, h.wf⟩

end Sys2Proof.Machine
end

