-- ==== Sys2Proof/Laws/FramesPorts.lean ====
section
/-! SUPPORT. What each operation and each command leaves alone: the ports, the cells and the estimator. -/

namespace Sys2Proof.Machine

/-! ## Ops -/

theorem endSlot_leaves (s : State) (k : Nat) : Leaves [.bat] s (endSlot s k) := by
  unfold endSlot
  with_reducible repeat' first
    | exact Leaves.refl | refine leaves_bat rfl ?_

theorem modPort_leaves (s : State) (p : Nat) (f : Port → Port) : Leaves [.owl] s (modPort s p f) := by
  unfold modPort
  with_reducible repeat' first
    | exact Leaves.refl | refine leaves_owl rfl ?_

theorem modCell_leaves (s : State) (c : Nat) (f : CellRec → CellRec) : Leaves [.tha] s (modCell s c f) := by
  unfold modCell
  with_reducible repeat' first
    | exact Leaves.refl | refine leaves_tha rfl ?_

theorem modStr_leaves (s : State) (k : Nat) (f : Str → Str) : Leaves [.rdg] s (modStr s k f) := by
  unfold modStr
  with_reducible repeat' first
    | exact Leaves.refl | refine leaves_rdg rfl ?_

theorem modChan_leaves (s : State) (c : Nat) (f : Chan → Chan) : Leaves [.eav] s (modChan s c f) := by
  unfold modChan
  with_reducible repeat' first
    | exact Leaves.refl | refine leaves_eav rfl ?_

theorem modSess_leaves (s : State) (n : Nat) (f : Sess → Sess) : Leaves [.hst] s (modSess s n f) := by
  unfold modSess
  with_reducible repeat' first
    | exact Leaves.refl | refine leaves_hst rfl ?_

theorem modCan_leaves (s : State) (c : Nat) (f : Can → Can) : Leaves [.can] s (modCan s c f) := by
  unfold modCan
  with_reducible repeat' first
    | exact Leaves.refl | refine leaves_can rfl ?_

theorem modFbk_leaves (s : State) (c : Nat) (f : Fbk → Fbk) : Leaves [.fbk] s (modFbk s c f) := by
  unfold modFbk
  with_reducible repeat' first
    | exact Leaves.refl | refine leaves_fbk rfl ?_

theorem takeFresh_leaves (s : State) : Leaves [.fresh] s (takeFresh s).2 := by
  unfold takeFresh
  with_reducible repeat' first
    | exact Leaves.refl | dsimp only | refine leaves_fresh rfl ?_

theorem oweLedger_leaves (s : State) (f : LedWork → LedWork) : Leaves [.led, .cpr] s (oweLedger s f) := by
  unfold oweLedger
  with_reducible repeat' first
    | exact Leaves.refl | refine leaves_led_cpr rfl ?_

theorem logAt_leaves (s : State) (b : Nat) (src : Nat) (code : Nat) (detail : Nat) :
    Leaves [.fresh, .gtr] s (logAt s b src code detail) := by
  unfold logAt
  with_reducible repeat' first
    | exact Leaves.refl | split | apply Leaves.ite | refine leaves_of_snd (by assumption) ?_
    | refine (takeFresh_leaves _).step rfl ?_ | refine leaves_gtr rfl ?_

theorem logEv_leaves (s : State) (src : Nat) (code : Nat) (detail : Nat) :
    Leaves [.fresh, .gtr] s (logEv s src code detail) := by
  unfold logEv
  with_reducible repeat' first
    | exact Leaves.refl | refine (logAt_leaves _ _ _ _ _).step rfl ?_

theorem orderNew_leaves (a : State) (b : State) : Leaves [.gtr] b (orderNew a b) := by
  unfold orderNew
  with_reducible repeat' first
    | exact Leaves.refl | refine leaves_gtr rfl ?_

theorem releaseEntry_leaves (s : State) (p : Nat) : Leaves [.gtr] s (releaseEntry s p) := by
  unfold releaseEntry
  with_reducible repeat' first
    | exact Leaves.refl | split | refine leaves_gtr rfl ?_

theorem releaseHeld_leaves (s : State) : Leaves [.gtr] s (releaseHeld s) := by
  unfold releaseHeld
  with_reducible repeat' first
    | exact Leaves.refl | refine leaves_gtr rfl ?_

theorem dropHeld_leaves (s : State) (parts : List Nat) : Leaves [.gtr] s (dropHeld s parts) := by
  unfold dropHeld
  with_reducible repeat' first
    | exact Leaves.refl | refine leaves_gtr rfl ?_

/-! ## Access -/

theorem modCopy_leaves (s : State) (who : Who) (f : Latches → Latches) :
    Leaves [.hst] s (modCopy s who f) := by
  unfold modCopy
  with_reducible repeat' first
    | exact Leaves.refl | refine leaves_hst rfl ?_

/-! ## Gates -/

theorem sparGates_leaves (s : State) : Leaves [.spar] s (sparGates s) := by
  unfold sparGates
  with_reducible repeat' first
    | exact Leaves.refl | refine leaves_spar rfl ?_

/-! ## Onwell -/

theorem enterPort_leaves (s : State) (p : Nat) (st : PortState) (cause : PortCause) :
    Leaves [.fresh, .owl, .tha, .gtr] s (enterPort s p st cause) := by
  unfold enterPort
  with_reducible repeat' first
    | exact Leaves.refl | apply Leaves.ite | refine (logEv_leaves _ _ _ _).step rfl ?_
    | (apply Leaves.forEach; intro u a) | refine (modCell_leaves _ _ _).step rfl ?_
    | refine (modPort_leaves _ _ _).step rfl ?_

theorem queueCmd_leaves (s : State) (p : Nat) (code : Nat) (arg : List Nat) :
    Leaves [.owl] s (queueCmd s p code arg) := by
  unfold queueCmd
  with_reducible repeat' first
    | exact Leaves.refl | refine (modPort_leaves _ _ _).step rfl ?_

theorem staleCells_leaves (s : State) (p : Nat) : Leaves [.tha] s (staleCells s p) := by
  unfold staleCells
  with_reducible repeat' first
    | exact Leaves.refl | (apply Leaves.forEach; intro u a) | refine (modCell_leaves _ _ _).step rfl ?_

theorem portOut_leaves (s : State) (p : Nat) (cause : PortCause) :
    Leaves [.fresh, .owl, .tha, .gtr] s (portOut s p cause) := by
  unfold portOut
  with_reducible repeat' first
    | exact Leaves.refl | apply Leaves.ite | refine (queueCmd_leaves _ _ _ _).step rfl ?_
    | refine (modPort_leaves _ _ _).step rfl ?_ | refine (staleCells_leaves _ _).step rfl ?_
    | refine (enterPort_leaves _ _ _ _).step rfl ?_

theorem requestUnmask_leaves (s : State) (p : Nat) : Leaves [.spar] s (requestUnmask s p) := by
  unfold requestUnmask
  with_reducible repeat' first
    | exact Leaves.refl | refine leaves_spar rfl ?_

theorem portSync_leaves (s : State) (p : Nat) (acc : Nat) :
    Leaves [.fresh, .owl, .tha, .spar, .gtr] s (portSync s p acc) := by
  unfold portSync
  with_reducible repeat' first
    | exact Leaves.refl | refine (requestUnmask_leaves _ _).step rfl ?_ | refine (modPort_leaves _ _ _).step rfl ?_
    | refine (enterPort_leaves _ _ _ _).step rfl ?_

theorem missLimit_leaves (s : State) (p : Nat) : Leaves [.fresh, .owl, .tha, .gtr] s (missLimit s p) := by
  unfold missLimit
  with_reducible repeat' first
    | exact Leaves.refl | apply Leaves.ite | refine (portOut_leaves _ _ _).step rfl ?_

theorem execPortMissLimit_leaves (p : Fin 32) (s : State) :
    LeavesOut [.fresh, .owl, .tha, .gtr] s (execPortMissLimit p s) := by
  unfold execPortMissLimit
  with_reducible repeat' first
    | exact Leaves.refl | apply leavesOut_next | refine (missLimit_leaves _ _).step rfl ?_

theorem missBatten_leaves (s : State) (p : Nat) : Leaves [.fresh, .owl, .tha, .gtr] s (missBatten s p) := by
  unfold missBatten
  with_reducible repeat' first
    | exact Leaves.refl | apply Leaves.ite | refine (missLimit_leaves _ _).step rfl ?_
    | refine (modPort_leaves _ _ _).step rfl ?_

theorem syncingDone_leaves (s : State) (p : Nat) : Leaves [.fresh, .owl, .tha, .gtr] s (syncingDone s p) := by
  unfold syncingDone
  with_reducible repeat' first
    | exact Leaves.refl | apply Leaves.ite | refine (modPort_leaves _ _ _).step rfl ?_
    | refine (enterPort_leaves _ _ _ _).step rfl ?_

theorem identFailLimit_leaves (s : State) (p : Nat) :
    Leaves [.fresh, .owl, .tha, .spar, .gtr] s (identFailLimit s p) := by
  unfold identFailLimit
  with_reducible repeat' first
    | exact Leaves.refl | apply Leaves.ite | refine (portSync_leaves _ _ _).step rfl ?_

theorem execIdentFailLimit_leaves (p : Fin 32) (s : State) :
    LeavesOut [.fresh, .owl, .tha, .spar, .gtr] s (execIdentFailLimit p s) := by
  unfold execIdentFailLimit
  with_reducible repeat' first
    | exact Leaves.refl | apply leavesOut_next | refine (identFailLimit_leaves _ _).step rfl ?_

theorem portInService_leaves (s : State) (p : Nat) :
    Leaves [.fresh, .owl, .tha, .gtr] s (portInService s p) := by
  unfold portInService
  with_reducible repeat' first
    | exact Leaves.refl | (apply Leaves.forEach; intro u a) | refine (modCell_leaves _ _ _).step rfl ?_
    | refine (modPort_leaves _ _ _).step rfl ?_ | refine (enterPort_leaves _ _ _ _).step rfl ?_

theorem provingDone_leaves (s : State) (p : Nat) : Leaves [.fresh, .owl, .tha, .gtr] s (provingDone s p) := by
  unfold provingDone
  with_reducible repeat' first
    | exact Leaves.refl | apply Leaves.ite | refine (portInService_leaves _ _).step rfl ?_

theorem execProvingComplete_leaves (p : Fin 32) (s : State) :
    LeavesOut [.fresh, .owl, .tha, .gtr] s (execProvingComplete p s) := by
  unfold execProvingComplete
  with_reducible repeat' first
    | exact Leaves.refl | apply leavesOut_next | refine (provingDone_leaves _ _).step rfl ?_

theorem proveCourse_leaves (s : State) (p : Nat) : Leaves [.fresh, .owl, .tha, .gtr] s (proveCourse s p) := by
  unfold proveCourse
  with_reducible repeat' first
    | exact Leaves.refl | refine (modPort_leaves _ _ _).step rfl ?_ | apply Leaves.ite | split
    | refine (provingDone_leaves _ _).step rfl ?_

theorem serviceOrder_leaves (s : State) (k : Nat) (out : Bool) :
    LeavesOpt [.owl] s (serviceOrder s k out) := by
  unfold serviceOrder
  with_reducible repeat' first
    | exact Leaves.refl | split | apply leavesOpt_some | apply leavesOpt_none | refine leaves_owl rfl ?_

theorem serviceEdge_leaves (s : State) (o : Nat × Bool) :
    Leaves [.fresh, .owl, .tha, .spar, .gtr] s (serviceEdge s o) := by
  unfold serviceEdge
  with_reducible repeat' first
    | exact Leaves.refl | split | refine (sparGates_leaves _).step rfl ?_ | (apply Leaves.forEach; intro u a)
    | apply Leaves.ite | refine (portOut_leaves _ _ _).step rfl ?_ | refine (portSync_leaves _ _ _).step rfl ?_
    | refine (modPort_leaves _ _ _).step rfl ?_ | refine leaves_spar rfl ?_

theorem execMeasFrameReceived_leaves (p : Fin 32) (f : LineFrame) (s : State) :
    LeavesOut [.owl] s (execMeasFrameReceived p f s) := by
  unfold execMeasFrameReceived; dsimp only
  with_reducible repeat' first
    | exact Leaves.refl | split | apply leavesOut_next | refine (modPort_leaves _ _ _).step rfl ?_

theorem exchangeMissed_leaves (s : State) (p : Nat) (e : Exchange) :
    Leaves [.owl] s (exchangeMissed s p e) := by
  unfold exchangeMissed
  with_reducible repeat' first
    | exact Leaves.refl | apply Leaves.ite | refine (modPort_leaves _ _ _).step rfl ?_

theorem execUplinkStartExpiry_leaves (p : Fin 32) (s : State) :
    LeavesOut [.owl] s (execUplinkStartExpiry p s) := by
  unfold execUplinkStartExpiry
  with_reducible repeat' first
    | exact Leaves.refl | apply leavesOut_next | refine (exchangeMissed_leaves _ _ _).step rfl ?_

theorem execUplinkEndExpiry_leaves (p : Fin 32) (s : State) :
    LeavesOut [.owl] s (execUplinkEndExpiry p s) := by
  unfold execUplinkEndExpiry
  with_reducible repeat' first
    | exact Leaves.refl | apply leavesOut_next | refine (exchangeMissed_leaves _ _ _).step rfl ?_

theorem writeSettings_leaves (s : State) (p : Nat) : Leaves [.owl] s (writeSettings s p) := by
  unfold writeSettings
  with_reducible repeat' first
    | exact Leaves.refl | refine (modPort_leaves _ _ _).step rfl ?_

theorem acceptExchange_leaves (s : State) (p : Nat) (m : Meas) (b : Nat) :
    Leaves [.fresh, .owl, .tha, .spar, .gtr] s (acceptExchange s p m b) := by
  unfold acceptExchange
  with_reducible repeat' first
    | exact Leaves.refl | refine (syncingDone_leaves _ _).step rfl ?_ | apply Leaves.ite
    | refine (queueCmd_leaves _ _ _ _).step rfl ?_ | refine (writeSettings_leaves _ _).step rfl ?_
    | refine (logEv_leaves _ _ _ _).step rfl ?_ | refine (portSync_leaves _ _ _).step rfl ?_
    | refine (modPort_leaves _ _ _).step rfl ?_

theorem completePort_leaves (s : State) (p : Nat) :
    Leaves [.fresh, .owl, .tha, .spar, .gtr] s (completePort s p) := by
  unfold completePort; dsimp only
  with_reducible repeat' first
    | exact Leaves.refl | apply Leaves.ite | refine (modPort_leaves _ _ _).step rfl ?_
    | refine (exchangeMissed_leaves _ _ _).step rfl ?_ | split | refine (acceptExchange_leaves _ _ _ _).step rfl ?_
    | refine (missBatten_leaves _ _).step rfl ?_

theorem execExchangeCompletion_leaves (s : State) :
    LeavesOut [.fresh, .bat, .owl, .tha, .spar, .gtr] s (execExchangeCompletion s) := by
  unfold execExchangeCompletion
  with_reducible repeat' first
    | exact Leaves.refl | split | apply leavesOut_next | (apply Leaves.forEach; intro u a)
    | refine (completePort_leaves _ _).step rfl ?_ | refine (endSlot_leaves _ _).step rfl ?_

theorem sendBulk_leaves (s : State) (p : Nat) : Leaves [.owl] s (sendBulk s p) := by
  unfold sendBulk
  with_reducible repeat' first
    | exact Leaves.refl | apply Leaves.ite | split | refine (modPort_leaves _ _ _).step rfl ?_

theorem execSyncingComplete_leaves (p : Fin 32) (s : State) :
    LeavesOut [.fresh, .owl, .tha, .gtr] s (execSyncingComplete p s) := by
  unfold execSyncingComplete
  with_reducible repeat' first
    | exact Leaves.refl | apply leavesOut_next | apply Leaves.ite | refine (sendBulk_leaves _ _).step rfl ?_
    | refine (syncingDone_leaves _ _).step rfl ?_

theorem ledgerDue_leaves (s : State) (r : Rec) : Leaves [.led, .cpr] s (ledgerDue s r) := by
  unfold ledgerDue
  with_reducible repeat' first
    | exact Leaves.refl | refine (oweLedger_leaves _ _).step rfl ?_

theorem relearnCell_leaves (s : State) (first : Bool) (c : Nat) :
    Leaves [.psram, .est, .led, .cpr] s (relearnCell s first c) := by
  unfold relearnCell
  refine (ledgerDue_leaves _ _).step rfl ?_
  have h (t : State) (e : Prop) [Decidable e] (h : Leaves [.psram, .est, .led, .cpr] s t) : Leaves [.psram, .est, .led, .cpr] s
      { t with psram := if e then memErase t.psram (0xC00000 + 512 * c) (0xC00200 + 512 * c) else t.psram } := by
    split
    · exact leaves_erase_psram rfl h
    · exact h
  exact h _ _ (leaves_est_led rfl (leaves_cpr rfl .refl))

theorem admitPort_leaves (s : State) (p : Nat) : Leaves [.fresh, .owl, .tha, .gtr] s (admitPort s p) := by
  unfold admitPort
  with_reducible repeat' first
    | exact Leaves.refl | apply Leaves.ite | refine (queueCmd_leaves _ _ _ _).step rfl ?_
    | refine (writeSettings_leaves _ _).step rfl ?_ | refine (modPort_leaves _ _ _).step rfl ?_
    | refine (enterPort_leaves _ _ _ _).step rfl ?_

theorem identCheck_leaves (s : State) (p : Nat) (i : Machine.Ident) :
    Leaves [.fresh, .psram, .owl, .tha, .est, .led, .cpr, .gtr] s (identCheck s p i) := by
  unfold identCheck
  with_reducible repeat' first
    | exact Leaves.refl | apply Leaves.ite | refine (modPort_leaves _ _ _).step rfl ?_
    | refine (portOut_leaves _ _ _).step rfl ?_ | refine (admitPort_leaves _ _).step rfl ?_
    | (apply Leaves.forEach; intro u a) | refine (relearnCell_leaves _ _ _).step rfl ?_
    | refine (ledgerDue_leaves _ _).step rfl ?_ | refine leaves_led rfl ?_

theorem settingsAcked_leaves (s : State) (p : Nat) : Leaves [.owl] s (settingsAcked s p) := by
  unfold settingsAcked
  with_reducible repeat' first
    | exact Leaves.refl | apply Leaves.ite | refine (queueCmd_leaves _ _ _ _).step rfl ?_
    | refine (modPort_leaves _ _ _).step rfl ?_

theorem bulkFail_leaves (s : State) (p : Nat) : Leaves [.fresh, .owl, .tha, .spar, .gtr] s (bulkFail s p) := by
  unfold bulkFail; dsimp only
  with_reducible repeat' first
    | exact Leaves.refl | split | refine (modPort_leaves _ _ _).step rfl ?_ | apply Leaves.ite
    | refine (missBatten_leaves _ _).step rfl ?_ | refine (identFailLimit_leaves _ _).step rfl ?_

theorem markRecovered_leaves (s : State) (p : Nat) : Leaves [.pgr] s (markRecovered s p) := by
  unfold markRecovered
  with_reducible repeat' first
    | exact Leaves.refl | refine leaves_pgr rfl ?_

theorem repeatAnswer_leaves (s : State) (p : Nat) (f : LineFrame) :
    Leaves [.fresh, .owl, .tha, .pgr, .spar, .gtr] s (repeatAnswer s p f) := by
  unfold repeatAnswer
  with_reducible repeat' first
    | exact Leaves.refl | split | refine (bulkFail_leaves _ _).step rfl ?_ | refine (modPort_leaves _ _ _).step rfl ?_
    | apply Leaves.ite | refine (markRecovered_leaves _ _).step rfl ?_
    | refine (acceptExchange_leaves _ _ _ _).step rfl ?_ | refine (missBatten_leaves _ _).step rfl ?_

theorem closeBulk_leaves (s : State) (p : Nat) : Leaves [.fresh, .owl, .tha, .gtr] s (closeBulk s p) := by
  unfold closeBulk
  with_reducible repeat' first
    | exact Leaves.refl | apply Leaves.ite | refine (missBatten_leaves _ _).step rfl ?_
    | refine (modPort_leaves _ _ _).step rfl ?_

theorem execBulkWindowEnd_leaves (s : State) :
    LeavesOut [.fresh, .owl, .tha, .gtr] s (execBulkWindowEnd s) := by
  unfold execBulkWindowEnd
  with_reducible repeat' first
    | exact Leaves.refl | apply leavesOut_next | (apply Leaves.forEach; intro u a)
    | refine (closeBulk_leaves _ _).step rfl ?_ | refine leaves_owl rfl ?_

theorem putCmd_leaves (s : State) (p : Nat) (c : Cmd) : Leaves [.owl] s (putCmd s p c) := by
  unfold putCmd
  with_reducible repeat' first
    | exact Leaves.refl | refine (modPort_leaves _ _ _).step rfl ?_

theorem sendCmd_leaves (s : State) (p : Nat) (idle : Cmd) : Leaves [.owl] s (sendCmd s p idle) := by
  unfold sendCmd; dsimp only
  with_reducible repeat' first
    | exact Leaves.refl | apply Leaves.ite | refine (putCmd_leaves _ _ _).step rfl ?_
    | refine (modPort_leaves _ _ _).step rfl ?_

theorem openExchange_leaves (s : State) (p : Nat) :
    Leaves [.fresh, .owl, .tha, .gtr] s (openExchange s p) := by
  unfold openExchange
  with_reducible repeat' first
    | exact Leaves.refl | refine (modPort_leaves _ _ _).step rfl ?_ | apply Leaves.ite
    | refine (missBatten_leaves _ _).step rfl ?_

/-! ## Crossing -/

theorem cdcOverrun_leaves (s : State) (k : Nat) : Leaves [.fresh, .cdc, .gtr] s (cdcOverrun s k) := by
  unfold cdcOverrun
  with_reducible repeat' first
    | exact Leaves.refl | apply Leaves.ite | refine (logEv_leaves _ _ _ _).step rfl ?_ | refine leaves_cdc rfl ?_

theorem crossDrop_leaves (s : State) (k : Nat) (n : Nat) : Leaves [.cdc] s (crossDrop s k n) := by
  unfold crossDrop
  with_reducible repeat' first
    | exact Leaves.refl | refine leaves_cdc rfl ?_

theorem crossFill_leaves (s : State) (k : Nat) (n : Nat) : Leaves [.cdc] s (crossFill s k n) := by
  unfold crossFill
  with_reducible repeat' first
    | exact Leaves.refl | refine leaves_cdc rfl ?_

theorem crossWrite_leaves (s : State) (k : Nat) : Leaves [.fresh, .cdc, .gtr] s (crossWrite s k) := by
  unfold crossWrite
  with_reducible repeat' first
    | exact Leaves.refl | split | apply Leaves.ite | refine (crossFill_leaves _ _ _).step rfl ?_
    | refine (cdcOverrun_leaves _ _).step rfl ?_ | refine leaves_cdc rfl ?_

theorem crossTake_leaves (s : State) (k : Nat) : Leaves [.fresh, .cdc] s (crossTake s k) := by
  unfold crossTake
  with_reducible repeat' first
    | exact Leaves.refl | split | refine (crossFill_leaves _ _ _).step rfl ?_
    | refine leaves_of_snd (by assumption) ?_ | refine (takeFresh_leaves _).step rfl ?_

theorem crossReset_leaves (s : State) (k : Nat) : Leaves [.cdc] s (crossReset s k) := by
  unfold crossReset
  with_reducible repeat' first
    | exact Leaves.refl | refine (crossFill_leaves _ _ _).step rfl ?_ | refine (crossDrop_leaves _ _ _).step rfl ?_

theorem crossDrain_leaves (s : State) : Leaves [.cdc] s (crossDrain s) := by
  unfold crossDrain
  with_reducible repeat' first
    | exact Leaves.refl | refine leaves_cdc rfl ?_

theorem crossWord_leaves (s : State) (w : IntentWord) :
    Leaves [.fresh, .eav, .cdc, .gtr] s (crossWord s w) := by
  unfold crossWord
  with_reducible repeat' first
    | exact Leaves.refl | apply Leaves.ite | refine (crossDrop_leaves _ _ _).step rfl ?_
    | refine (cdcOverrun_leaves _ _).step rfl ?_ | refine leaves_eav rfl ?_

/-! ## Verge -/

theorem takeAmps_leaves (s : State) (f : VergeFrame) (good : Bool) (k : Nat) :
    Leaves [.vrg] s (takeAmps s f good k) := by
  unfold takeAmps
  with_reducible repeat' first
    | exact Leaves.refl | apply Leaves.ite | refine leaves_vrg rfl ?_

theorem takeVolt_leaves (s : State) (f : VergeFrame) (good : Bool) (n : Nat) :
    Leaves [.vrg] s (takeVolt s f good n) := by
  unfold takeVolt
  with_reducible repeat' first
    | exact Leaves.refl | apply Leaves.ite | refine leaves_vrg rfl ?_

theorem publishInsulation_leaves (s : State) : Leaves [.vrg] s (publishInsulation s) := by
  unfold publishInsulation
  with_reducible repeat' first
    | exact Leaves.refl | split | refine leaves_vrg rfl ?_

theorem execVergeFrameReceived_leaves (f : VergeFrame) (s : State) :
    LeavesOut [.vrg] s (execVergeFrameReceived f s) := by
  unfold execVergeFrameReceived
  with_reducible repeat' first
    | exact Leaves.refl | split | apply leavesOut_next | apply Leaves.ite
    | refine (publishInsulation_leaves _).step rfl ?_ | (apply Leaves.forEach; intro u a)
    | refine (takeVolt_leaves _ _ _ _).step rfl ?_ | refine (takeAmps_leaves _ _ _ _).step rfl ?_
    | refine leaves_vrg rfl ?_

theorem frameDeadline_leaves (s : State) (k : Nat) : Leaves [.vrg] s (frameDeadline s k) := by
  unfold frameDeadline
  with_reducible repeat' first
    | exact Leaves.refl | apply Leaves.ite | refine leaves_vrg rfl ?_

theorem execVergeFrameDeadline_leaves (k : Fin 4) (s : State) :
    LeavesOut [.vrg] s (execVergeFrameDeadline k s) := by
  unfold execVergeFrameDeadline
  with_reducible repeat' first
    | exact Leaves.refl | apply leavesOut_next | refine (frameDeadline_leaves _ _).step rfl ?_

theorem vergeString_leaves (s : State) (k : Nat) : Leaves [.vrg] s (vergeString s k) := by
  unfold vergeString
  with_reducible repeat' first
    | exact Leaves.refl | refine leaves_vrg rfl ?_

theorem insulationBatten_leaves (s : State) : Leaves [.vrg] s (insulationBatten s) := by
  unfold insulationBatten
  with_reducible repeat' first
    | exact Leaves.refl | apply Leaves.ite | refine leaves_vrg rfl ?_

theorem shuntsValid_leaves (s : State) : Leaves [.vrg] s (shuntsValid s) := by
  unfold shuntsValid
  with_reducible repeat' first
    | exact Leaves.refl | refine leaves_vrg rfl ?_

theorem vergeBattenEnd_leaves (s : State) : Leaves [.vrg] s (vergeBattenEnd s) := by
  unfold vergeBattenEnd
  with_reducible repeat' first
    | exact Leaves.refl | refine (insulationBatten_leaves _).step rfl ?_ | (apply Leaves.forEach; intro u a)
    | refine (vergeString_leaves _ _).step rfl ?_ | refine (shuntsValid_leaves _).step rfl ?_
    | refine (frameDeadline_leaves _ _).step rfl ?_

theorem vergeBattenStart_leaves (s : State) : Leaves [.vrg] s (vergeBattenStart s) := by
  unfold vergeBattenStart
  with_reducible repeat' first
    | exact Leaves.refl | refine leaves_vrg rfl ?_

theorem insNone_leaves (s : State) : Leaves [.vrg] s (insNone s) := by
  unfold insNone
  with_reducible repeat' first
    | exact Leaves.refl | refine leaves_vrg rfl ?_

theorem execInsulationCycleEnd_leaves (c : InsCycle) (s : State) :
    LeavesOut [.fresh, .vrg] s (execInsulationCycleEnd c s) := by
  unfold execInsulationCycleEnd; dsimp only
  with_reducible repeat' first
    | exact Leaves.refl | split | apply leavesOut_next | refine (insNone_leaves _).step rfl ?_
    | refine leaves_fresh_vrg rfl ?_ | refine leaves_vrg rfl ?_

theorem execVergePowerUp_leaves (delay : Nat) (s : State) : LeavesOut [.vrg] s (execVergePowerUp delay s) := by
  unfold execVergePowerUp
  with_reducible repeat' first
    | exact Leaves.refl | split | apply leavesOut_next | refine leaves_vrg rfl ?_

theorem vergeOff_leaves (s : State) : Leaves [.vrg] s (vergeOff s) := by
  unfold vergeOff
  with_reducible repeat' first
    | exact Leaves.refl | refine leaves_vrg rfl ?_

theorem execVergePowerLoss_leaves (s : State) : LeavesOut [.vrg, .cdc] s (execVergePowerLoss s) := by
  unfold execVergePowerLoss
  with_reducible repeat' first
    | exact Leaves.refl | apply leavesOut_next | (apply Leaves.forEach; intro u a)
    | refine (crossReset_leaves _ _).step rfl ?_ | refine (vergeOff_leaves _).step rfl ?_

theorem execHvsClockFault_leaves (s : State) : LeavesOut [.fresh, .vrg] s (execHvsClockFault s) := by
  unfold execHvsClockFault
  with_reducible repeat' first
    | exact Leaves.refl | split | apply leavesOut_next | refine leaves_of_snd (by assumption) ?_
    | refine (takeFresh_leaves _).step rfl ?_ | refine leaves_vrg rfl ?_

theorem execComparatorActive_leaves (l : Fin 5) (s : State) :
    LeavesOut [.vrg] s (execComparatorActive l s) := by
  unfold execComparatorActive
  with_reducible repeat' first
    | exact Leaves.refl | split | apply leavesOut_next | refine leaves_vrg rfl ?_

theorem execComparatorRelease_leaves (l : Fin 5) (s : State) :
    LeavesOut [.vrg] s (execComparatorRelease l s) := by
  unfold execComparatorRelease
  with_reducible repeat' first
    | exact Leaves.refl | apply leavesOut_next | refine leaves_vrg rfl ?_

/-! ## Thatch -/

theorem setFlag_leaves (s : State) (c : Nat) (i : Nat) (on : Bool) : Leaves [.tha] s (setFlag s c i on) := by
  unfold setFlag
  with_reducible repeat' first
    | exact Leaves.refl | refine (modCell_leaves _ _ _).step rfl ?_

theorem setChain_leaves (s : State) (c : Nat) (i : Nat) (on : Bool) : Leaves [.tha] s (setChain s c i on) := by
  unfold setChain
  with_reducible repeat' first
    | exact Leaves.refl | refine (modCell_leaves _ _ _).step rfl ?_

theorem updateCell_leaves (s : State) (p : Nat) (cur : Option Meas) (old : Option Meas) (i : Nat) :
    Leaves [.tha] s (updateCell s p cur old i) := by
  unfold updateCell
  with_reducible repeat' first
    | exact Leaves.refl | refine (modCell_leaves _ _ _).step rfl ?_

theorem takeTemp_leaves (s : State) (p : Nat) (idx : Nat) (val : Nat) :
    Leaves [.tha] s (takeTemp s p idx val) := by
  unfold takeTemp
  with_reducible repeat' first
    | exact Leaves.refl | apply Leaves.ite | refine (modCell_leaves _ _ _).step rfl ?_

theorem takeOvUv_leaves (s : State) (p : Nat) (m : Meas) : Leaves [.tha] s (takeOvUv s p m) := by
  unfold takeOvUv
  with_reducible repeat' first
    | exact Leaves.refl | (apply Leaves.forEach; intro u a) | refine (setFlag_leaves _ _ _ _).step rfl ?_

theorem blankCount_leaves (s : State) (p : Nat) (cur : Option Meas) (old : Option Meas) :
    Leaves [.owl] s (blankCount s p cur old) := by
  unfold blankCount
  with_reducible repeat' first
    | exact Leaves.refl | refine (modPort_leaves _ _ _).step rfl ?_

theorem updatePort_leaves (s : State) (p : Nat) : Leaves [.owl, .tha] s (updatePort s p) := by
  unfold updatePort
  with_reducible repeat' first
    | exact Leaves.refl | refine (blankCount_leaves _ _ _ _).step rfl ?_ | split
    | refine (takeOvUv_leaves _ _ _).step rfl ?_ | refine (takeTemp_leaves _ _ _ _).step rfl ?_
    | (apply Leaves.forEach; intro u a) | refine (updateCell_leaves _ _ _ _ _).step rfl ?_

theorem satFailLimit_leaves (s : State) (p : Nat) :
    Leaves [.fresh, .owl, .tha, .gtr] s (satFailLimit s p) := by
  unfold satFailLimit
  with_reducible repeat' first
    | exact Leaves.refl | apply Leaves.ite | refine (logEv_leaves _ _ _ _).step rfl ?_
    | (apply Leaves.forEach; intro u a) | refine (setChain_leaves _ _ _ _).step rfl ?_
    | refine (modPort_leaves _ _ _).step rfl ?_

theorem execSatelliteCheckFailLimit_leaves (p : Fin 32) (s : State) :
    LeavesOut [.fresh, .owl, .tha, .gtr] s (execSatelliteCheckFailLimit p s) := by
  unfold execSatelliteCheckFailLimit
  with_reducible repeat' first
    | exact Leaves.refl | apply leavesOut_next | refine (satFailLimit_leaves _ _).step rfl ?_

theorem satCheck_leaves (s : State) (p : Nat) (m : Meas) :
    Leaves [.fresh, .owl, .tha, .gtr] s (satCheck s p m) := by
  unfold satCheck
  with_reducible repeat' first
    | exact Leaves.refl | apply Leaves.ite | refine (modPort_leaves _ _ _).step rfl ?_
    | refine (satFailLimit_leaves _ _).step rfl ?_

theorem toneCheck_leaves (s : State) (p : Nat) (m : Meas) : Leaves [.fresh, .gtr] s (toneCheck s p m) := by
  unfold toneCheck
  with_reducible repeat' first
    | exact Leaves.refl | apply Leaves.ite | refine (logEv_leaves _ _ _ _).step rfl ?_

theorem frameChecks_leaves (s : State) (p : Nat) (b : Nat) (m : Meas) :
    Leaves [.fresh, .owl, .tha, .gtr] s (frameChecks s p b m) := by
  unfold frameChecks
  with_reducible repeat' first
    | exact Leaves.refl | apply Leaves.ite | refine (satCheck_leaves _ _ _).step rfl ?_

theorem strFailLimit_leaves (s : State) (k : Nat) : Leaves [.fresh, .tha, .gtr] s (strFailLimit s k) := by
  unfold strFailLimit
  with_reducible repeat' first
    | exact Leaves.refl | apply Leaves.ite | refine (logEv_leaves _ _ _ _).step rfl ?_
    | (apply Leaves.forEach; intro u a) | refine (setChain_leaves _ _ _ _).step rfl ?_

theorem execStringCheckFailLimit_leaves (k : Fin 4) (s : State) :
    LeavesOut [.fresh, .tha, .gtr] s (execStringCheckFailLimit k s) := by
  unfold execStringCheckFailLimit
  with_reducible repeat' first
    | exact Leaves.refl | apply leavesOut_next | refine (strFailLimit_leaves _ _).step rfl ?_

theorem strCheck_leaves (s : State) (k : Nat) (b : Nat) (v : Rat) (ok : Bool) :
    Leaves [.fresh, .owl, .tha, .gtr] s (strCheck s k b v ok) := by
  unfold strCheck
  with_reducible repeat' first
    | exact Leaves.refl | apply Leaves.ite | refine (strFailLimit_leaves _ _).step rfl ?_
    | (apply Leaves.forEach; intro u a) | refine (modPort_leaves _ _ _).step rfl ?_ | refine leaves_tha rfl ?_

theorem deviationLimit_leaves (s : State) (p : Nat) : Leaves [.owl, .tha] s (deviationLimit s p) := by
  unfold deviationLimit
  with_reducible repeat' first
    | exact Leaves.refl | (apply Leaves.forEach; intro u a) | apply Leaves.ite
    | refine (setFlag_leaves _ _ _ _).step rfl ?_ | refine (modPort_leaves _ _ _).step rfl ?_

theorem execDeviationSignatureLimit_leaves (p : Fin 32) (s : State) :
    LeavesOut [.owl, .tha] s (execDeviationSignatureLimit p s) := by
  unfold execDeviationSignatureLimit
  with_reducible repeat' first
    | exact Leaves.refl | apply leavesOut_next | refine (deviationLimit_leaves _ _).step rfl ?_

theorem deviationCheck_leaves (s : State) (p : Nat) (vals : List (Option Int)) :
    Leaves [.owl, .tha] s (deviationCheck s p vals) := by
  unfold deviationCheck
  with_reducible repeat' first
    | exact Leaves.refl | apply Leaves.ite | refine (deviationLimit_leaves _ _).step rfl ?_
    | refine (modPort_leaves _ _ _).step rfl ?_

theorem blankingLimit_leaves (s : State) (p : Nat) : Leaves [.fresh, .owl, .gtr] s (blankingLimit s p) := by
  unfold blankingLimit
  with_reducible repeat' first
    | exact Leaves.refl | apply Leaves.ite | refine (logEv_leaves _ _ _ _).step rfl ?_
    | refine (queueCmd_leaves _ _ _ _).step rfl ?_ | refine (modPort_leaves _ _ _).step rfl ?_

theorem execBlankingFailLimit_leaves (p : Fin 32) (s : State) :
    LeavesOut [.fresh, .owl, .gtr] s (execBlankingFailLimit p s) := by
  unfold execBlankingFailLimit
  with_reducible repeat' first
    | exact Leaves.refl | apply leavesOut_next | refine (blankingLimit_leaves _ _).step rfl ?_

theorem testReading_leaves (s : State) (p : Nat) (b : Nat) (m : Meas) :
    Leaves [.owl] s (testReading s p b m) := by
  unfold testReading
  with_reducible repeat' first
    | exact Leaves.refl | refine (modPort_leaves _ _ _).step rfl ?_

theorem againTest_leaves (s : State) (p : Nat) : Leaves [.owl] s (againTest s p) := by
  unfold againTest
  with_reducible repeat' first
    | exact Leaves.refl | refine (modPort_leaves _ _ _).step rfl ?_

theorem abandonTest_leaves (s : State) (p : Nat) : Leaves [.fresh, .owl, .tha, .gtr] s (abandonTest s p) := by
  unfold abandonTest
  with_reducible repeat' first
    | exact Leaves.refl | apply Leaves.ite | refine (logEv_leaves _ _ _ _).step rfl ?_
    | (apply Leaves.forEach; intro u a) | refine (setChain_leaves _ _ _ _).step rfl ?_
    | refine (againTest_leaves _ _).step rfl ?_ | refine (modPort_leaves _ _ _).step rfl ?_

theorem cutTest_leaves (s : State) (p : Nat) : Leaves [.owl] s (cutTest s p) := by
  unfold cutTest
  with_reducible repeat' first
    | exact Leaves.refl | refine (modPort_leaves _ _ _).step rfl ?_

theorem dropTest_leaves (s : State) (p : Nat) : Leaves [.owl] s (dropTest s p) := by
  unfold dropTest
  with_reducible repeat' first
    | exact Leaves.refl | refine (againTest_leaves _ _).step rfl ?_

theorem testFindings_leaves (s : State) (p : Nat) (t : WireTest) :
    Leaves [.fresh, .owl, .tha, .gtr] s (testFindings s p t) := by
  unfold testFindings
  with_reducible repeat' first
    | exact Leaves.refl | (apply Leaves.forEach; intro u a) | refine (logEv_leaves _ _ _ _).step rfl ?_
    | refine (setChain_leaves _ _ _ _).step rfl ?_ | apply Leaves.ite | refine (modPort_leaves _ _ _).step rfl ?_
    | refine (setFlag_leaves _ _ _ _).step rfl ?_

theorem evaluateTest_leaves (s : State) (p : Nat) :
    Leaves [.fresh, .owl, .tha, .gtr] s (evaluateTest s p) := by
  unfold evaluateTest
  with_reducible repeat' first
    | exact Leaves.refl | split | apply Leaves.ite | refine (dropTest_leaves _ _).step rfl ?_
    | refine (abandonTest_leaves _ _).step rfl ?_ | refine (testFindings_leaves _ _ _).step rfl ?_

theorem testMiss_leaves (s : State) (p : Nat) (b : Nat) : Leaves [.owl] s (testMiss s p b) := by
  unfold testMiss
  with_reducible repeat' first
    | exact Leaves.refl | refine (modPort_leaves _ _ _).step rfl ?_

theorem startTest_leaves (s : State) (p : Nat) (category : Nat) :
    Leaves [.owl] s (startTest s p category) := by
  unfold startTest
  with_reducible repeat' first
    | exact Leaves.refl | refine (modPort_leaves _ _ _).step rfl ?_

theorem openWireSlot_leaves (s : State) : Leaves [.owl] s (openWireSlot s) := by
  unfold openWireSlot; dsimp only
  with_reducible repeat' first
    | exact Leaves.refl | split | (apply Leaves.forEach; intro u a) | apply Leaves.ite
    | refine (startTest_leaves _ _ _).step rfl ?_ | refine leaves_owl rfl ?_

theorem checkTones_leaves (s : State) (p : Nat) : Leaves [.fresh, .gtr] s (checkTones s p) := by
  unfold checkTones; dsimp only
  with_reducible repeat' first
    | exact Leaves.refl | split | refine (toneCheck_leaves _ _ _).step rfl ?_

theorem checkPort_leaves (s : State) (p : Nat) : Leaves [.fresh, .owl, .tha, .gtr] s (checkPort s p) := by
  unfold checkPort
  with_reducible repeat' first
    | exact Leaves.refl | apply Leaves.ite | refine (checkTones_leaves _ _).step rfl ?_
    | refine (blankingLimit_leaves _ _).step rfl ?_ | refine (evaluateTest_leaves _ _).step rfl ?_
    | refine (deviationCheck_leaves _ _ _).step rfl ?_ | split | refine (testReading_leaves _ _ _ _).step rfl ?_
    | refine (frameChecks_leaves _ _ _ _).step rfl ?_ | refine (testMiss_leaves _ _ _).step rfl ?_

theorem checkString_leaves (s : State) (k : Nat) : Leaves [.fresh, .owl, .tha, .gtr] s (checkString s k) := by
  unfold checkString
  with_reducible repeat' first
    | exact Leaves.refl | apply Leaves.ite | refine (strCheck_leaves _ _ _ _ _).step rfl ?_

theorem thatchCourse_leaves (s : State) : Leaves [.owl, .tha] s (thatchCourse s) := by
  unfold thatchCourse
  with_reducible repeat' first
    | exact Leaves.refl | (apply Leaves.forEach; intro u a) | apply Leaves.ite
    | refine (setChain_leaves _ _ _ _).step rfl ?_ | refine (modPort_leaves _ _ _).step rfl ?_
    | refine (modCell_leaves _ _ _).step rfl ?_ | refine (setFlag_leaves _ _ _ _).step rfl ?_
    | refine leaves_tha rfl ?_

theorem uncheckedBatten_leaves (s : State) : Leaves [.owl, .tha] s (uncheckedBatten s) := by
  unfold uncheckedBatten
  with_reducible repeat' first
    | exact Leaves.refl | (apply Leaves.forEach; intro u a) | refine (modPort_leaves _ _ _).step rfl ?_
    | refine leaves_tha rfl ?_

theorem thatchUpdate_leaves (s : State) : Leaves [.fresh, .owl, .tha, .gtr] s (thatchUpdate s) := by
  unfold thatchUpdate
  with_reducible repeat' first
    | exact Leaves.refl | (apply Leaves.forEach; intro u a) | refine (modPort_leaves _ _ _).step rfl ?_
    | apply Leaves.ite | refine (checkString_leaves _ _).step rfl ?_ | refine (checkPort_leaves _ _).step rfl ?_
    | refine (updatePort_leaves _ _).step rfl ?_ | refine (uncheckedBatten_leaves _).step rfl ?_ | split
    | refine (dropTest_leaves _ _).step rfl ?_

/-! ## Balance -/

theorem bled_leaves (s : State) (p : Nat) (i : Nat) (us : Nat) (count : Bool) :
    Leaves [.owl, .tha] s (bled s p i us count) := by
  unfold bled
  with_reducible repeat' first
    | exact Leaves.refl | apply Leaves.ite | refine (modPort_leaves _ _ _).step rfl ?_
    | refine (modCell_leaves _ _ _).step rfl ?_

theorem bleedCourse_leaves (s : State) (p : Nat) : Leaves [.tha] s (bleedCourse s p) := by
  unfold bleedCourse
  with_reducible repeat' first
    | exact Leaves.refl | (apply Leaves.forEach; intro u a) | refine (modCell_leaves _ _ _).step rfl ?_

theorem endBleeds_leaves (s : State) (p : Nat) : Leaves [.owl] s (endBleeds s p) := by
  unfold endBleeds
  with_reducible repeat' first
    | exact Leaves.refl | refine (modPort_leaves _ _ _).step rfl ?_

theorem balanceEdge_leaves (s : State) (p : Nat) : Leaves [.owl, .tha] s (balanceEdge s p) := by
  unfold balanceEdge; dsimp only
  with_reducible repeat' first
    | exact Leaves.refl | apply Leaves.ite | refine (sendCmd_leaves _ _ _).step rfl ?_
    | refine (modPort_leaves _ _ _).step rfl ?_ | refine (queueCmd_leaves _ _ _ _).step rfl ?_
    | refine (endBleeds_leaves _ _).step rfl ?_ | (apply Leaves.forEach; intro u a)
    | refine (bled_leaves _ _ _ _ _).step rfl ?_

theorem balancePort_leaves (s : State) (ref : Option Rat) (p : Nat) :
    Leaves [.owl] s (balancePort s ref p) := by
  unfold balancePort
  with_reducible repeat' first
    | exact Leaves.refl | refine (modPort_leaves _ _ _).step rfl ?_

theorem sendTargets_leaves (s : State) (p : Nat) : Leaves [.owl] s (sendTargets s p) := by
  unfold sendTargets
  with_reducible repeat' first
    | exact Leaves.refl | apply Leaves.ite | refine (modPort_leaves _ _ _).step rfl ?_

theorem balanceString_leaves (s : State) (k : Nat) : Leaves [.owl] s (balanceString s k) := by
  unfold balanceString
  with_reducible repeat' first
    | exact Leaves.refl | (apply Leaves.forEach; intro u a) | refine (balancePort_leaves _ _ _).step rfl ?_

theorem balanceCompute_leaves (s : State) : Leaves [.owl] s (balanceCompute s) := by
  unfold balanceCompute
  with_reducible repeat' first
    | exact Leaves.refl | (apply Leaves.forEach; intro u a) | apply Leaves.ite
    | refine (sendTargets_leaves _ _).step rfl ?_ | refine (balanceString_leaves _ _).step rfl ?_

theorem takeProgress_leaves (s : State) (p : Nat) (pl : List Byte) :
    Leaves [.owl] s (takeProgress s p pl) := by
  unfold takeProgress
  with_reducible repeat' first
    | exact Leaves.refl | refine (modPort_leaves _ _ _).step rfl ?_

/-! ## Impedance -/

theorem modImp_leaves (s : State) (c : Nat) (f : ImpCell → ImpCell) : Leaves [.est] s (modImp s c f) := by
  unfold modImp
  with_reducible repeat' first
    | exact Leaves.refl | refine leaves_est rfl ?_

theorem wireSample_leaves (s : State) (p : Nat) (mask : Nat) (v0 : List Nat) (v1 : List Nat) (dI : Rat)
    (k : Nat) (i : Nat) (w : Nat) : Leaves [.owl] s (wireSample s p mask v0 v1 dI k i w) := by
  unfold wireSample
  with_reducible repeat' first
    | exact Leaves.refl | apply Leaves.ite | refine (modPort_leaves _ _ _).step rfl ?_

theorem wireBurst_leaves (s : State) (p : Nat) (mask : Nat) (v0 : List Nat) (v1 : List Nat) (dI : Rat) :
    Leaves [.owl] s (wireBurst s p mask v0 v1 dI) := by
  unfold wireBurst
  with_reducible repeat' first
    | exact Leaves.refl | (apply Leaves.forEach; intro u a) | refine (wireSample_leaves _ _ _ _ _ _ _ _ _).step rfl ?_
    | apply Leaves.ite

theorem wireUpdate_leaves (s : State) : Leaves [.owl] s (wireUpdate s) := by
  unfold wireUpdate
  with_reducible repeat' first
    | exact Leaves.refl | (apply Leaves.forEach; intro u a) | refine (modPort_leaves _ _ _).step rfl ?_

theorem takeBurst_leaves (s : State) (p : Nat) (t : Nat) (pl : List Byte) :
    Leaves [.owl, .tha, .est] s (takeBurst s p t pl) := by
  unfold takeBurst
  with_reducible repeat' first
    | exact Leaves.refl | split | apply Leaves.ite | refine (wireBurst_leaves _ _ _ _ _ _).step rfl ?_
    | (apply Leaves.forEach; intro u a) | refine (modImp_leaves _ _ _).step rfl ?_
    | refine (setFlag_leaves _ _ _ _).step rfl ?_ | refine (modPort_leaves _ _ _).step rfl ?_

theorem endWindow_leaves (s : State) (c : Nat) (j : Nat) (a : ImpAcc) :
    Leaves [.est] s (endWindow s c j a) := by
  unfold endWindow
  with_reducible repeat' first
    | exact Leaves.refl | refine (modImp_leaves _ _ _).step rfl ?_ | apply Leaves.ite | refine leaves_est rfl ?_

theorem impBattenEnd_leaves (s : State) : Leaves [.owl, .est] s (impBattenEnd s) := by
  unfold impBattenEnd; dsimp only
  with_reducible repeat' first
    | exact Leaves.refl | apply Leaves.ite | (apply Leaves.forEach; intro u a)
    | refine (modPort_leaves _ _ _).step rfl ?_ | split | refine (modImp_leaves _ _ _).step rfl ?_
    | refine (endWindow_leaves _ _ _ _).step rfl ?_

theorem impAsleep_leaves (s : State) (slept : Nat) : Leaves [.est] s (impAsleep s slept) := by
  unfold impAsleep
  with_reducible repeat' first
    | exact Leaves.refl | (apply Leaves.forEach; intro u a) | split | apply Leaves.ite
    | refine (endWindow_leaves _ _ _ _).step rfl ?_ | refine (modImp_leaves _ _ _).step rfl ?_
    | refine leaves_est rfl ?_

theorem compareTcore_leaves (s : State) (c : Nat) (t : Int) :
    Leaves [.fresh, .est, .gtr] s (compareTcore s c t) := by
  unfold compareTcore
  with_reducible repeat' first
    | exact Leaves.refl | apply Leaves.ite | split | refine (modImp_leaves _ _ _).step rfl ?_
    | refine (logEv_leaves _ _ _ _).step rfl ?_

theorem decideWindow_leaves (s : State) (c : Nat) (j : Nat) :
    Leaves [.fresh, .tha, .est, .gtr] s (decideWindow s c j) := by
  unfold decideWindow
  with_reducible repeat' first
    | exact Leaves.refl | split | apply Leaves.ite | refine (modImp_leaves _ _ _).step rfl ?_
    | refine (compareTcore_leaves _ _ _).step rfl ?_ | refine (modCell_leaves _ _ _).step rfl ?_
    | refine leaves_fresh rfl ?_ | refine leaves_est rfl ?_

theorem bleedStop_leaves (s : State) (k : Nat) : Leaves [.owl, .est] s (bleedStop s k) := by
  unfold bleedStop
  with_reducible repeat' first
    | exact Leaves.refl | (apply Leaves.forEach; intro u a) | apply Leaves.ite
    | refine (queueCmd_leaves _ _ _ _).step rfl ?_ | refine (modPort_leaves _ _ _).step rfl ?_
    | refine leaves_est rfl ?_

theorem pulseSettings_leaves (s : State) (k : Nat) : Leaves [.owl] s (pulseSettings s k) := by
  unfold pulseSettings
  with_reducible repeat' first
    | exact Leaves.refl | (apply Leaves.forEach; intro u a) | apply Leaves.ite
    | refine (modPort_leaves _ _ _).step rfl ?_

theorem bleedRule_leaves (s : State) (k : Nat) (ripple : List Nat) (bleed : List Nat) :
    Leaves [.owl, .est] s (bleedRule s k ripple bleed) := by
  unfold bleedRule
  with_reducible repeat' first
    | exact Leaves.refl | apply Leaves.ite | (apply Leaves.forEach; intro u a)
    | refine (modImp_leaves _ _ _).step rfl ?_ | refine (bleedStop_leaves _ _).step rfl ?_
    | refine (pulseSettings_leaves _ _).step rfl ?_ | refine leaves_est rfl ?_

theorem impRun_leaves (s : State) : Leaves [.fresh, .owl, .tha, .est, .gtr] s (impRun s) := by
  unfold impRun
  with_reducible repeat' first
    | exact Leaves.refl | apply Leaves.ite | (apply Leaves.forEach; intro u a)
    | refine (bleedRule_leaves _ _ _ _).step rfl ?_ | refine (decideWindow_leaves _ _ _).step rfl ?_

theorem urgentCmd_leaves (s : State) (p : Nat) (code : Nat) (arg : List Nat) :
    Leaves [.owl] s (urgentCmd s p code arg) := by
  unfold urgentCmd
  with_reducible repeat' first
    | exact Leaves.refl | refine (modPort_leaves _ _ _).step rfl ?_

theorem pulseStart_leaves (s : State) (p : Nat) : Leaves [.owl] s (pulseStart s p) := by
  unfold pulseStart
  with_reducible repeat' first
    | exact Leaves.refl | apply Leaves.ite | refine (urgentCmd_leaves _ _ _ _).step rfl ?_
    | refine (modPort_leaves _ _ _).step rfl ?_

theorem bleedEdge_leaves (s : State) (k : Nat) : Leaves [.owl, .est] s (bleedEdge s k) := by
  unfold bleedEdge
  with_reducible repeat' first
    | exact Leaves.refl | split | apply Leaves.ite | refine (pulseSettings_leaves _ _).step rfl ?_
    | (apply Leaves.forEach; intro u a) | refine (pulseStart_leaves _ _).step rfl ?_ | refine leaves_est rfl ?_

theorem pulseCharge_leaves (s : State) (p : Nat) : Leaves [.owl, .tha] s (pulseCharge s p) := by
  unfold pulseCharge
  with_reducible repeat' first
    | exact Leaves.refl | split | apply Leaves.ite | (apply Leaves.forEach; intro u a)
    | refine (bled_leaves _ _ _ _ _).step rfl ?_

theorem execTcoreExpiry_leaves (cell : Fin 512) (s : State) : LeavesOut [.tha] s (execTcoreExpiry cell s) := by
  unfold execTcoreExpiry; dsimp only
  with_reducible repeat' first
    | exact Leaves.refl | split | apply leavesOut_next | refine (modCell_leaves _ _ _).step rfl ?_

/-! ## Bulk -/

theorem fillBulk_leaves (s : State) (p : Nat) : Leaves [.owl] s (fillBulk s p) := by
  unfold fillBulk
  with_reducible repeat' first
    | exact Leaves.refl | apply Leaves.ite | refine (cutTest_leaves _ _).step rfl ?_
    | refine (sendBulk_leaves _ _).step rfl ?_ | refine (modPort_leaves _ _ _).step rfl ?_

theorem execBulkWindowStart_leaves (s : State) : LeavesOut [.owl] s (execBulkWindowStart s) := by
  unfold execBulkWindowStart
  with_reducible repeat' first
    | exact Leaves.refl | split | apply leavesOut_next | (apply Leaves.forEach; intro u a)
    | refine (fillBulk_leaves _ _).step rfl ?_ | refine leaves_owl rfl ?_

theorem writeAnswer_leaves (s : State) (p : Nat) (o : List Nat) (f : LineFrame) :
    Leaves [.fresh, .owl, .tha, .spar, .gtr] s (writeAnswer s p o f) := by
  unfold writeAnswer
  with_reducible repeat' first
    | exact Leaves.refl | apply Leaves.ite | refine (settingsAcked_leaves _ _).step rfl ?_
    | refine (modPort_leaves _ _ _).step rfl ?_ | refine (bulkFail_leaves _ _).step rfl ?_

theorem bulkAnswer_leaves (s : State) (p : Nat) (f : LineFrame) :
    Leaves [.fresh, .psram, .owl, .tha, .est, .led, .pgr, .spar, .cpr, .gtr] s (bulkAnswer s p f) := by
  unfold bulkAnswer; dsimp only
  with_reducible repeat' first
    | exact Leaves.refl | split | apply Leaves.ite | refine (modPort_leaves _ _ _).step rfl ?_
    | refine (repeatAnswer_leaves _ _ _).step rfl ?_ | refine (identCheck_leaves _ _ _).step rfl ?_
    | refine (bulkFail_leaves _ _).step rfl ?_ | refine (takeBurst_leaves _ _ _ _).step rfl ?_
    | refine (writeAnswer_leaves _ _ _ _).step rfl ?_ | refine (takeProgress_leaves _ _ _).step rfl ?_

theorem execBulkAnswerReceived_leaves (p : Fin 32) (f : LineFrame) (s : State) :
    LeavesOut [.fresh, .psram, .owl, .tha, .est, .led, .pgr, .spar, .cpr, .gtr] s (execBulkAnswerReceived p f s) := by
  unfold execBulkAnswerReceived
  with_reducible repeat' first
    | exact Leaves.refl | split | apply leavesOut_next | refine (modPort_leaves _ _ _).step rfl ?_
    | refine (sendBulk_leaves _ _).step rfl ?_ | refine (bulkAnswer_leaves _ _ _).step rfl ?_

theorem execBulkAnswerTimeout_leaves (p : Fin 32) (s : State) :
    LeavesOut [.fresh, .owl, .tha, .spar, .gtr] s (execBulkAnswerTimeout p s) := by
  unfold execBulkAnswerTimeout
  with_reducible repeat' first
    | exact Leaves.refl | split | apply leavesOut_next | refine (modPort_leaves _ _ _).step rfl ?_
    | refine (sendBulk_leaves _ _).step rfl ?_ | refine (bulkFail_leaves _ _).step rfl ?_

/-! ## Estimator -/

theorem freezeSnapshot_leaves (s : State) : Leaves [.est, .led] s (freezeSnapshot s) := by
  unfold freezeSnapshot
  with_reducible repeat' first
    | exact Leaves.refl | apply Leaves.ite | refine leaves_est_led rfl ?_ | refine leaves_est rfl ?_

theorem refExpiry_leaves (s : State) (c : Nat) (refAt : Nat) :
    Leaves [.fresh, .est, .gtr] s (refExpiry s c refAt) := by
  unfold refExpiry
  with_reducible repeat' first
    | exact Leaves.refl | apply Leaves.ite | refine (logEv_leaves _ _ _ _).step rfl ?_ | refine leaves_est rfl ?_

theorem noteCell_leaves (s : State) (c : Nat) (e : EstCell) (n : RunNote) :
    Leaves [.fresh, .est, .led, .gtr] s (noteCell s c e n) := by
  unfold noteCell
  extract_lets s1 s2 s3 e4 s4 l5 s5 l6 s6 e7 s7
  have h1 : Leaves [.fresh, .est, .led, .gtr] s s1 := by
    unfold s1; exact .ite ((logEv_leaves _ _ _ _).step rfl .refl) .refl
  have h2 : Leaves [.fresh, .est, .led, .gtr] s s2 := by
    unfold s2; exact .ite ((logEv_leaves _ _ _ _).step rfl h1) h1
  have h3 : Leaves [.fresh, .est, .led, .gtr] s s3 := by
    unfold s3; exact .ite ((logEv_leaves _ _ _ _).step rfl h2) h2
  have h4 : Leaves [.fresh, .est, .led, .gtr] s s4 := by
    unfold s4; exact .ite (leaves_est rfl h3) h3
  have h5 : Leaves [.fresh, .est, .led, .gtr] s s5 := by
    unfold s5
    split
    · exact leaves_led rfl h4
    · exact h4
  have h6 : Leaves [.fresh, .est, .led, .gtr] s s6 := by
    unfold s6
    split
    · exact .ite ((logEv_leaves _ _ _ _).step rfl (leaves_est rfl (leaves_led rfl h5))) (leaves_led rfl h5)
    · exact .ite ((refExpiry_leaves _ _ _).step rfl h5) h5
  have h7 : Leaves [.fresh, .est, .led, .gtr] s s7 := by
    unfold s7; exact .ite (leaves_est rfl h6) h6
  exact .ite (leaves_est rfl h7) h7

theorem execEstimatorRunComplete_leaves (estCycles : BitVec 24) (s : State) :
    LeavesOut [.fresh, .est, .led, .gtr] s (execEstimatorRunComplete estCycles s) := by
  unfold execEstimatorRunComplete
  with_reducible repeat' first
    | exact Leaves.refl | split | apply leavesOut_next | (apply Leaves.forEach; intro u a)
    | refine (noteCell_leaves _ _ _ _).step rfl ?_ | refine leaves_est rfl ?_

theorem handOver_leaves (s : State) : Leaves [.fresh, .est, .gtr] s (handOver s) := by
  unfold handOver
  with_reducible repeat' first
    | exact Leaves.refl | split | refine (logEv_leaves _ _ _ _).step rfl ?_ | refine leaves_est rfl ?_

theorem execReferenceAgeExpiry_leaves (cell : Fin 512) (s : State) :
    LeavesOut [.fresh, .est, .gtr] s (execReferenceAgeExpiry cell s) := by
  unfold execReferenceAgeExpiry
  with_reducible repeat' first
    | exact Leaves.refl | apply leavesOut_next | refine (refExpiry_leaves _ _ _).step rfl ?_

theorem quietReached_leaves (s : State) (k : Nat) : Leaves [.est] s (quietReached s k) := by
  unfold quietReached
  with_reducible repeat' first
    | exact Leaves.refl | apply Leaves.ite | refine leaves_est rfl ?_

theorem execQuietTimeReached_leaves (k : Fin 4) (s : State) :
    LeavesOut [.est] s (execQuietTimeReached k s) := by
  unfold execQuietTimeReached
  with_reducible repeat' first
    | exact Leaves.refl | apply leavesOut_next | refine (quietReached_leaves _ _).step rfl ?_

theorem quietBatten_leaves (s : State) (k : Nat) : Leaves [.est] s (quietBatten s k) := by
  unfold quietBatten
  with_reducible repeat' first
    | exact Leaves.refl | apply Leaves.ite | refine (quietReached_leaves _ _).step rfl ?_ | refine leaves_est rfl ?_

end Sys2Proof.Machine
end

