-- ==== Sys2Proof/Laws/FramesPlant.lean ====
section
/-! SUPPORT. What each operation and each command leaves alone: the ledger, the image stage, Spar, the pager, Ridge and CAN. -/

namespace Sys2Proof.Machine

/-! ## Ledger -/

theorem writeSlot_leaves (s : State) (r : Rec) (b : Bool) (l : List Byte) :
    Leaves [.mram] s (writeSlot s r b l) := by
  exact ⟨fun p => by cases p <;> first | exact .inl (by decide) | exact .inr rfl, fun w => ⟨w.1, memPuts_wf _ _ w.2.1, w.2.2⟩⟩

theorem beginCommit_leaves (s : State) (c : Commit) (again : Bool) :
    Leaves [.fresh, .led] s (beginCommit s c again) := by
  unfold beginCommit
  with_reducible repeat' first
    | exact Leaves.refl | refine leaves_fresh_led rfl ?_

theorem startCommit_leaves (s : State) : Leaves [.fresh, .led] s (startCommit s) := by
  unfold startCommit
  with_reducible repeat' first
    | exact Leaves.refl | apply Leaves.ite | refine (beginCommit_leaves _ _ _).step rfl ?_ | split
    | refine leaves_led rfl ?_

theorem commitEnded_leaves (s : State) (c : Commit) (later : Bool) :
    Leaves [.led] s (commitEnded s c later) := by
  unfold commitEnded
  with_reducible repeat' first
    | exact Leaves.refl | refine leaves_led rfl ?_

theorem execLedgerCommitComplete_leaves (readbackOk : Bool) (s : State) :
    LeavesOut [.fresh, .mram, .led, .gtr] s (execLedgerCommitComplete readbackOk s) := by
  unfold execLedgerCommitComplete
  with_reducible repeat' first
    | exact Leaves.refl | split | apply leavesOut_next | refine (startCommit_leaves _).step rfl ?_
    | refine (writeSlot_leaves _ _ _ _).step rfl ?_ | refine (commitEnded_leaves _ _ _).step rfl ?_
    | refine (logEv_leaves _ _ _ _).step rfl ?_ | refine leaves_fresh rfl ?_ | refine leaves_led rfl ?_

theorem execPfailAsserted_leaves (s : State) : LeavesOut [.fresh, .led, .gtr] s (execPfailAsserted s) := by
  unfold execPfailAsserted
  with_reducible repeat' first
    | exact Leaves.refl | split | apply leavesOut_next | refine (startCommit_leaves _).step rfl ?_
    | refine (logEv_leaves _ _ _ _).step rfl ?_ | refine leaves_led rfl ?_

theorem execPfailCleared_leaves (s : State) : LeavesOut [.fresh, .led, .gtr] s (execPfailCleared s) := by
  unfold execPfailCleared
  with_reducible repeat' first
    | exact Leaves.refl | split | apply leavesOut_next | refine (startCommit_leaves _).step rfl ?_
    | refine (logEv_leaves _ _ _ _).step rfl ?_ | refine leaves_led rfl ?_

theorem execVholdOkChange_leaves (ok : Bool) (s : State) :
    LeavesOut [.fresh, .led] s (execVholdOkChange ok s) := by
  unfold execVholdOkChange
  with_reducible repeat' first
    | exact Leaves.refl | apply leavesOut_next | refine (startCommit_leaves _).step rfl ?_ | refine leaves_led rfl ?_

theorem stage_leaves (s : State) (c : Commit) : Leaves [.led] s (stage s c) := by
  unfold stage
  with_reducible repeat' first
    | exact Leaves.refl | apply Leaves.ite | refine leaves_led rfl ?_

theorem releaseCommits_leaves (s : State) : Leaves [.fresh, .led] s (releaseCommits s) := by
  unfold releaseCommits
  with_reducible repeat' first
    | exact Leaves.refl | refine (startCommit_leaves _).step rfl ?_ | (apply Leaves.forEach; intro u a)
    | refine (stage_leaves _ _).step rfl ?_ | refine leaves_led rfl ?_

theorem ledgerRun_leaves (s : State) : Leaves [.fresh, .led] s (ledgerRun s) := by
  unfold ledgerRun
  with_reducible repeat' first
    | exact Leaves.refl | apply Leaves.ite | refine (releaseCommits_leaves _).step rfl ?_ | refine leaves_led rfl ?_

theorem beginStop_leaves (s : State) : Leaves [.led, .cpr] s (beginStop s) := by
  unfold beginStop
  with_reducible repeat' first
    | exact Leaves.refl | apply Leaves.ite | refine (oweLedger_leaves _ _).step rfl ?_

theorem endShip_leaves (s : State) : Leaves [.led, .cpr, .pwr] s (endShip s) := by
  unfold endShip
  with_reducible repeat' first
    | exact Leaves.refl | apply Leaves.ite | refine (oweLedger_leaves _ _).step rfl ?_ | refine leaves_pwr rfl ?_

theorem periodicDue_leaves (s : State) : Leaves [.led, .cpr] s (periodicDue s) := by
  unfold periodicDue
  with_reducible repeat' first
    | exact Leaves.refl | apply Leaves.ite | refine (oweLedger_leaves _ _).step rfl ?_

theorem moduleLoad_leaves (s : State) (kind : Nat) : Leaves [.led] s (moduleLoad s kind) := by
  unfold moduleLoad
  with_reducible repeat' first
    | exact Leaves.refl | refine leaves_led rfl ?_

theorem ledgerLoad_leaves (s : State) : Leaves [.led, .vrg] s (ledgerLoad s) := by
  unfold ledgerLoad
  with_reducible repeat' first
    | exact Leaves.refl | refine leaves_led_vrg rfl ?_

theorem ledResult_leaves (s : State) (n : Nat) : Leaves [.led] s (ledResult s n) := by
  unfold ledResult
  with_reducible repeat' first
    | exact Leaves.refl | refine leaves_led rfl ?_

theorem ledResetPort_leaves (s : State) (maintain : Bool) (p : Nat) :
    Leaves [.led, .cpr] s (ledResetPort s maintain p) := by
  unfold ledResetPort
  with_reducible repeat' first
    | exact Leaves.refl | apply Leaves.ite | refine (ledResult_leaves _ _).step rfl ?_
    | refine (oweLedger_leaves _ _).step rfl ?_ | refine leaves_led_cpr rfl ?_

theorem ledResetContactor_leaves (s : State) (maintain : Bool) (k : Nat) (role : Nat) :
    Leaves [.led, .cpr] s (ledResetContactor s maintain k role) := by
  unfold ledResetContactor
  with_reducible repeat' first
    | exact Leaves.refl | apply Leaves.ite | refine (ledResult_leaves _ _).step rfl ?_
    | refine (ledgerDue_leaves _ _).step rfl ?_ | refine leaves_led rfl ?_

/-! ## Stage -/

theorem setStage_leaves (s : State) (st : Stage) (reason : Nat) :
    Leaves [.fresh, .img, .gtr] s (setStage s st reason) := by
  unfold setStage
  with_reducible repeat' first
    | exact Leaves.refl | apply Leaves.ite | refine (logEv_leaves _ _ _ _).step rfl ?_ | refine leaves_img rfl ?_

theorem eraseSlot_leaves (s : State) (b : Bool) : Leaves [.nor] s (eraseSlot s b) := by
  unfold eraseSlot
  with_reducible repeat' first
    | exact Leaves.refl | refine leaves_erase_nor rfl ?_

theorem programNor_leaves (s : State) (b : Bool) (off : Nat) (l : List Byte) :
    Leaves [.nor] s (programNor s b off l) := by
  unfold programNor
  with_reducible repeat' first
    | exact Leaves.refl | apply Leaves.ite | refine leaves_puts_nor rfl ?_

theorem eraseAnswering_leaves (s : State) (b : Bool) : Leaves [.nor] s (eraseAnswering s b) := by
  unfold eraseAnswering
  with_reducible repeat' first
    | exact Leaves.refl | apply Leaves.ite | refine (eraseSlot_leaves _ _).step rfl ?_

theorem runNor_leaves (s : State) (op : NorOp) : Leaves [.nor] s (runNor s op) := by
  unfold runNor
  with_reducible repeat' first
    | exact Leaves.refl | split | refine (eraseAnswering_leaves _ _).step rfl ?_
    | refine (programNor_leaves _ _ _ _).step rfl ?_

theorem orderNor_leaves (s : State) (before : Img) (op : NorOp) :
    Leaves [.nor, .img] s (orderNor s before op) := by
  unfold orderNor
  with_reducible repeat' first
    | exact Leaves.refl | apply Leaves.ite | refine (runNor_leaves _ _).step rfl ?_ | refine leaves_img rfl ?_

theorem forgetNor_leaves (s : State) : Leaves [.img] s (forgetNor s) := by
  unfold forgetNor
  with_reducible repeat' first
    | exact Leaves.refl | refine leaves_img rfl ?_

theorem discardNor_leaves (s : State) : Leaves [.img] s (discardNor s) := by
  unfold discardNor
  with_reducible repeat' first
    | exact Leaves.refl | split | refine (forgetNor_leaves _).step rfl ?_ | refine leaves_img rfl ?_

theorem releaseNor_leaves (s : State) : Leaves [.nor, .img] s (releaseNor s) := by
  unfold releaseNor
  with_reducible repeat' first
    | exact Leaves.refl | (apply Leaves.forEach; intro u a) | refine (runNor_leaves _ _).step rfl ?_
    | refine (forgetNor_leaves _).step rfl ?_

theorem stageErase_leaves (s : State) (who : Who) (targetB : Bool) :
    LeavesOpt [.fresh, .nor, .img, .gtr] s (stageErase s who targetB) := by
  unfold stageErase
  with_reducible repeat' first
    | exact Leaves.refl | split | apply leavesOpt_some | refine (setStage_leaves _ _ _).step rfl ?_
    | refine (orderNor_leaves _ _ _).step rfl ?_ | apply leavesOpt_none | refine leaves_img rfl ?_

theorem execErase_leaves (who : Who) (targetB : Bool) (s : State) :
    LeavesOut [.fresh, .nor, .img, .gtr] s (execErase who targetB s) := by
  unfold execErase
  with_reducible repeat' first
    | exact Leaves.refl | apply leavesOut_next | apply leaves_orSame
    | refine leavesOpt_step (stageErase_leaves _ _ _) rfl ?_

theorem execEraseComplete_leaves (s : State) : LeavesOut [.fresh, .img, .gtr] s (execEraseComplete s) := by
  unfold execEraseComplete
  with_reducible repeat' first
    | exact Leaves.refl | split | apply leavesOut_next | apply Leaves.ite | refine (setStage_leaves _ _ _).step rfl ?_

theorem stageData_leaves (s : State) (who : Who) (data : Word) :
    LeavesOpt [.nor, .img] s (stageData s who data) := by
  unfold stageData
  with_reducible repeat' first
    | exact Leaves.refl | split | apply leavesOpt_some | refine (orderNor_leaves _ _ _).step rfl ?_
    | apply leavesOpt_none | refine leaves_img rfl ?_

theorem execImgDataWrite_leaves (who : Who) (data : Word) (s : State) :
    LeavesOut [.nor, .img] s (execImgDataWrite who data s) := by
  unfold execImgDataWrite
  with_reducible repeat' first
    | exact Leaves.refl | apply leavesOut_next | apply leaves_orSame
    | refine leavesOpt_step (stageData_leaves _ _ _) rfl ?_

theorem stageAddr_leaves (s : State) (who : Who) (v : Nat) : LeavesOpt [.img] s (stageAddr s who v) := by
  unfold stageAddr
  with_reducible repeat' first
    | exact Leaves.refl | split | apply leavesOpt_some | apply leavesOpt_none | refine leaves_img rfl ?_

theorem stageVerify_leaves (s : State) (who : Who) : LeavesOpt [.fresh, .img, .gtr] s (stageVerify s who) := by
  unfold stageVerify
  with_reducible repeat' first
    | exact Leaves.refl | split | apply leavesOpt_some | refine (setStage_leaves _ _ _).step rfl ?_
    | apply leavesOpt_none

theorem execVerify_leaves (who : Who) (s : State) : LeavesOut [.fresh, .img, .gtr] s (execVerify who s) := by
  unfold execVerify
  with_reducible repeat' first
    | exact Leaves.refl | apply leavesOut_next | apply leaves_orSame
    | refine leavesOpt_step (stageVerify_leaves _ _) rfl ?_

theorem execVerifyComplete_leaves (s : State) :
    LeavesOut [.fresh, .img, .bat, .gtr] s (execVerifyComplete s) := by
  unfold execVerifyComplete
  with_reducible repeat' first
    | exact Leaves.refl | split | apply leavesOut_next | apply Leaves.ite | refine (setStage_leaves _ _ _).step rfl ?_
    | refine leaves_img_bat rfl ?_

theorem programCommit_leaves (s : State) (b : Bool) : Leaves [.nor] s (programCommit s b) := by
  unfold programCommit
  with_reducible repeat' first
    | exact Leaves.refl | refine (programNor_leaves _ _ _ _).step rfl ?_

theorem stageCommit_leaves (s : State) (who : Who) :
    LeavesOpt [.fresh, .nor, .img, .gtr] s (stageCommit s who) := by
  unfold stageCommit
  with_reducible repeat' first
    | exact Leaves.refl | split | apply leavesOpt_some | refine (setStage_leaves _ _ _).step rfl ?_
    | refine (programCommit_leaves _ _).step rfl ?_ | refine (orderNor_leaves _ _ _).step rfl ?_
    | apply leavesOpt_none | refine leaves_img rfl ?_

theorem execCommit_leaves (who : Who) (s : State) :
    LeavesOut [.fresh, .nor, .img, .gtr] s (execCommit who s) := by
  unfold execCommit
  with_reducible repeat' first
    | exact Leaves.refl | apply leavesOut_next | apply leaves_orSame
    | refine leavesOpt_step (stageCommit_leaves _ _) rfl ?_

theorem execCommitWordProgrammed_leaves (s : State) :
    LeavesOut [.nor, .img] s (execCommitWordProgrammed s) := by
  unfold execCommitWordProgrammed
  with_reducible repeat' first
    | exact Leaves.refl | split | apply leavesOut_next | refine (programCommit_leaves _ _).step rfl ?_
    | refine leaves_img rfl ?_

theorem stageReload_leaves (s : State) (who : Who) : LeavesOpt [.fresh, .img, .gtr] s (stageReload s who) := by
  unfold stageReload
  with_reducible repeat' first
    | exact Leaves.refl | split | apply leavesOpt_some | refine (setStage_leaves _ _ _).step rfl ?_
    | apply leavesOpt_none | refine leaves_img rfl ?_

theorem execReload_leaves (who : Who) (s : State) : LeavesOut [.fresh, .img, .gtr] s (execReload who s) := by
  unfold execReload
  with_reducible repeat' first
    | exact Leaves.refl | apply leavesOut_next | apply leaves_orSame
    | refine leavesOpt_step (stageReload_leaves _ _) rfl ?_

theorem stageAbandon_leaves (s : State) (who : Who) :
    LeavesOpt [.fresh, .img, .gtr] s (stageAbandon s who) := by
  unfold stageAbandon
  with_reducible repeat' first
    | exact Leaves.refl | split | apply leavesOpt_some | refine (setStage_leaves _ _ _).step rfl ?_
    | apply leavesOpt_none

theorem execAbandon_leaves (who : Who) (s : State) : LeavesOut [.fresh, .img, .gtr] s (execAbandon who s) := by
  unfold execAbandon
  with_reducible repeat' first
    | exact Leaves.refl | apply leavesOut_next | apply leaves_orSame
    | refine leavesOpt_step (stageAbandon_leaves _ _) rfl ?_

theorem eraseCommit_leaves (s : State) (b : Bool) : Leaves [.nor] s (eraseCommit s b) := by
  unfold eraseCommit
  with_reducible repeat' first
    | exact Leaves.refl | refine leaves_erase_nor rfl ?_

theorem cancelReload_leaves (s : State) (why : Nat) :
    Leaves [.fresh, .nor, .img, .gtr] s (cancelReload s why) := by
  unfold cancelReload
  with_reducible repeat' first
    | exact Leaves.refl | apply Leaves.ite | refine (setStage_leaves _ _ _).step rfl ?_
    | refine (eraseCommit_leaves _ _).step rfl ?_ | refine (forgetNor_leaves _).step rfl ?_
    | refine (logEv_leaves _ _ _ _).step rfl ?_ | refine leaves_img rfl ?_

theorem leaveBench_leaves (s : State) : Leaves [.img, .cpr] s (leaveBench s) := by
  unfold leaveBench
  with_reducible repeat' first
    | exact Leaves.refl | apply Leaves.ite | refine leaves_img_cpr rfl ?_

theorem execSealopenChange_leaves (asserted : Bool) (s : State) :
    LeavesOut [.fresh, .lands, .nor, .img, .cpr, .gtr] s (execSealopenChange asserted s) := by
  unfold execSealopenChange
  with_reducible repeat' first
    | exact Leaves.refl | split | apply leavesOut_next | refine (leaveBench_leaves _).step rfl ?_ | apply Leaves.ite
    | refine (cancelReload_leaves _ _).step rfl ?_ | refine (setStage_leaves _ _ _).step rfl ?_
    | refine (forgetNor_leaves _).step rfl ?_ | refine leaves_lands rfl ?_

theorem benchStop_leaves (s : State) : Leaves [.led, .cpr, .pwr] s (benchStop s) := by
  unfold benchStop
  with_reducible repeat' first
    | exact Leaves.refl | apply Leaves.ite | refine (beginStop_leaves _).step rfl ?_ | refine leaves_pwr rfl ?_

theorem benchEnter_leaves (s : State) (who : Who) :
    LeavesOpt [.img, .led, .cpr, .pwr] s (benchEnter s who) := by
  unfold benchEnter; dsimp only
  with_reducible repeat' first
    | exact Leaves.refl | split | apply leavesOpt_some | refine (benchStop_leaves _).step rfl ?_
    | refine (endShip_leaves _).step rfl ?_ | apply leavesOpt_none | refine leaves_img rfl ?_

theorem execEnterBench_leaves (who : Who) (s : State) :
    LeavesOut [.img, .led, .cpr, .pwr] s (execEnterBench who s) := by
  unfold execEnterBench
  with_reducible repeat' first
    | exact Leaves.refl | apply leavesOut_next | apply leaves_orSame
    | refine leavesOpt_step (benchEnter_leaves _ _) rfl ?_

theorem benchLeave_leaves (s : State) (who : Who) : LeavesOpt [.img, .cpr] s (benchLeave s who) := by
  unfold benchLeave
  with_reducible repeat' first
    | exact Leaves.refl | split | apply leavesOpt_some | refine (leaveBench_leaves _).step rfl ?_
    | apply leavesOpt_none

theorem execLeaveBench_leaves (who : Who) (s : State) : LeavesOut [.img, .cpr] s (execLeaveBench who s) := by
  unfold execLeaveBench
  with_reducible repeat' first
    | exact Leaves.refl | apply leavesOut_next | apply leaves_orSame
    | refine leavesOpt_step (benchLeave_leaves _ _) rfl ?_

/-! ## Spar -/

theorem startProofs_leaves (s : State) : Leaves [.spar] s (startProofs s) := by
  unfold startProofs
  with_reducible repeat' first
    | exact Leaves.refl | refine leaves_spar rfl ?_

theorem raiseCauses_leaves (s : State) (m : BitVec 16) : Leaves [.spar] s (raiseCauses s m) := by
  unfold raiseCauses
  with_reducible repeat' first
    | exact Leaves.refl | apply Leaves.ite | refine (sparGates_leaves _).step rfl ?_ | refine leaves_spar rfl ?_

theorem raiseCause_leaves (s : State) (n : Nat) : Leaves [.spar] s (raiseCause s n) := by
  unfold raiseCause
  with_reducible repeat' first
    | exact Leaves.refl | refine (raiseCauses_leaves _ _).step rfl ?_

theorem sparJudge_leaves (s : State) : Leaves [.spar] s (sparJudge s) := by
  unfold sparJudge
  with_reducible repeat' first
    | exact Leaves.refl | refine (sparGates_leaves _).step rfl ?_ | apply Leaves.ite
    | refine (raiseCauses_leaves _ _).step rfl ?_ | refine leaves_spar rfl ?_

theorem execSparStartEnd_leaves (s : State) : LeavesOut [.spar] s (execSparStartEnd s) := by
  unfold execSparStartEnd
  with_reducible repeat' first
    | exact Leaves.refl | split | apply leavesOut_next | refine (sparGates_leaves _).step rfl ?_
    | refine leaves_spar rfl ?_

theorem sparUnconfigured_leaves (s : State) : Leaves [.spar] s (sparUnconfigured s) := by
  unfold sparUnconfigured
  with_reducible repeat' first
    | exact Leaves.refl | apply Leaves.ite | refine (sparGates_leaves _).step rfl ?_ | refine leaves_spar rfl ?_

theorem configMode_leaves (s : State) (resume : Bool) (changed : Bool) :
    Leaves [.spar] s (configMode s resume changed) := by
  unfold configMode; dsimp only
  with_reducible repeat' first
    | exact Leaves.refl | split | apply Leaves.ite | refine (startProofs_leaves _).step rfl ?_
    | refine leaves_spar rfl ?_

theorem execSparConfiguration_leaves (s : State) : LeavesOut [.spar] s (execSparConfiguration s) := by
  unfold execSparConfiguration
  with_reducible repeat' first
    | exact Leaves.refl | split | apply leavesOut_next | refine (sparJudge_leaves _).step rfl ?_
    | refine (configMode_leaves _ _ _).step rfl ?_ | refine leaves_spar rfl ?_

theorem execPairTestPulse_leaves (t : PulseTest) (s : State) :
    LeavesOut [.spar] s (execPairTestPulse t s) := by
  unfold execPairTestPulse; dsimp only
  with_reducible repeat' first
    | exact Leaves.refl | split | apply leavesOut_next | refine (sparJudge_leaves _).step rfl ?_ | apply Leaves.ite
    | refine (raiseCause_leaves _ _).step rfl ?_ | refine leaves_spar rfl ?_

theorem execPairFault_leaves (pair : Fin 11) (s : State) : LeavesOut [.spar] s (execPairFault pair s) := by
  unfold execPairFault; dsimp only
  with_reducible repeat' first
    | exact Leaves.refl | split | apply leavesOut_next | apply Leaves.ite | refine (raiseCause_leaves _ _).step rfl ?_
    | refine leaves_spar rfl ?_

theorem handSkewOf_leaves (s : State) (late : Bool) : Leaves [.fresh] s (handSkewOf s late).2 := by
  unfold handSkewOf
  with_reducible repeat' first
    | exact Leaves.refl | split | dsimp only | refine leaves_of_snd (by assumption) ?_
    | refine (takeFresh_leaves _).step rfl ?_

theorem attemptFails_leaves (s : State) : Leaves [.spar] s (attemptFails s) := by
  unfold attemptFails
  with_reducible repeat' first
    | exact Leaves.refl | refine leaves_spar rfl ?_

theorem handChange_leaves (s : State) : Leaves [.fresh, .spar] s (handChange s) := by
  unfold handChange
  with_reducible repeat' first
    | exact Leaves.refl | apply Leaves.ite | split | refine leaves_of_snd (by assumption) ?_
    | refine (handSkewOf_leaves _ _).step rfl ?_ | refine (attemptFails_leaves _).step rfl ?_
    | refine leaves_spar rfl ?_

theorem execTwoHandSkewExpiry_leaves (s : State) : LeavesOut [.fresh, .spar] s (execTwoHandSkewExpiry s) := by
  unfold execTwoHandSkewExpiry
  with_reducible repeat' first
    | exact Leaves.refl | split | apply leavesOut_next | refine (attemptFails_leaves _).step rfl ?_
    | refine leaves_of_snd (by assumption) ?_ | refine (handSkewOf_leaves _ _).step rfl ?_ | refine leaves_spar rfl ?_

theorem execHandReleaseHeld_leaves (s : State) : LeavesOut [.spar] s (execHandReleaseHeld s) := by
  unfold execHandReleaseHeld
  with_reducible repeat' first
    | exact Leaves.refl | split | apply leavesOut_next | refine (sparJudge_leaves _).step rfl ?_
    | refine leaves_spar rfl ?_

theorem releaseLatch_leaves (s : State) : Leaves [.spar] s (releaseLatch s) := by
  unfold releaseLatch
  with_reducible repeat' first
    | exact Leaves.refl | apply Leaves.ite | refine (startProofs_leaves _).step rfl ?_ | refine leaves_spar rfl ?_

theorem senseClock_leaves (s : State) : Leaves [.fresh, .spar] s (senseClock s) := by
  unfold senseClock
  with_reducible repeat' first
    | exact Leaves.refl | apply Leaves.ite | refine leaves_fresh_spar rfl ?_

theorem resetReleased_leaves (s : State) (f : Int) : Leaves [.fresh, .spar] s (resetReleased s f) := by
  unfold resetReleased
  with_reducible repeat' first
    | exact Leaves.refl | apply Leaves.ite | refine (releaseLatch_leaves _).step rfl ?_
    | refine (senseClock_leaves _).step rfl ?_ | refine leaves_fresh_spar rfl ?_ | refine leaves_spar rfl ?_

theorem resetChange_leaves (s : State) : Leaves [.fresh, .spar] s (resetChange s) := by
  unfold resetChange
  with_reducible repeat' first
    | exact Leaves.refl | apply Leaves.ite | split | refine (resetReleased_leaves _ _).step rfl ?_
    | refine leaves_spar rfl ?_

theorem execContactFilterChange_leaves (ch : Fin 22) (closed : Bool) (s : State) :
    LeavesOut [.fresh, .spar] s (execContactFilterChange ch closed s) := by
  unfold execContactFilterChange
  with_reducible repeat' first
    | exact Leaves.refl | split | apply leavesOut_next | refine (sparJudge_leaves _).step rfl ?_ | apply Leaves.ite
    | refine (resetChange_leaves _).step rfl ?_ | refine (handChange_leaves _).step rfl ?_ | refine leaves_spar rfl ?_

theorem execToneSilence_leaves (p : Fin 32) (s : State) : LeavesOut [.spar] s (execToneSilence p s) := by
  unfold execToneSilence; dsimp only
  with_reducible repeat' first
    | exact Leaves.refl | split | apply leavesOut_next | refine (raiseCause_leaves _ _).step rfl ?_
    | refine leaves_spar rfl ?_

theorem execTonePresent_leaves (p : Fin 32) (s : State) : LeavesOut [.spar] s (execTonePresent p s) := by
  unfold execTonePresent
  with_reducible repeat' first
    | exact Leaves.refl | split | apply leavesOut_next | refine (sparGates_leaves _).step rfl ?_
    | refine leaves_spar rfl ?_

theorem execLaneSilence_leaves (l : Fin 5) (s : State) : LeavesOut [.spar] s (execLaneSilence l s) := by
  unfold execLaneSilence; dsimp only
  with_reducible repeat' first
    | exact Leaves.refl | split | apply leavesOut_next | refine (raiseCause_leaves _ _).step rfl ?_
    | refine leaves_spar rfl ?_

theorem execLanePresent_leaves (l : Fin 5) (s : State) : LeavesOut [.spar] s (execLanePresent l s) := by
  unfold execLanePresent
  with_reducible repeat' first
    | exact Leaves.refl | split | apply leavesOut_next | refine (sparGates_leaves _).step rfl ?_
    | refine leaves_spar rfl ?_

theorem execGateAgainstCommand_leaves (g : GateSense) (s : State) :
    LeavesOut [.spar] s (execGateAgainstCommand g s) := by
  unfold execGateAgainstCommand
  with_reducible repeat' first
    | exact Leaves.refl | split | apply leavesOut_next | apply Leaves.ite | refine (raiseCause_leaves _ _).step rfl ?_
    | refine leaves_spar rfl ?_

theorem execSparSupplyTrip_leaves (s : State) : LeavesOut [.spar] s (execSparSupplyTrip s) := by
  unfold execSparSupplyTrip
  with_reducible repeat' first
    | exact Leaves.refl | split | apply leavesOut_next | apply Leaves.ite | refine (raiseCause_leaves _ _).step rfl ?_
    | refine (sparGates_leaves _).step rfl ?_ | refine leaves_spar rfl ?_

theorem sparLost_leaves (s : State) (resume : Bool) : Leaves [.spar] s (sparLost s resume) := by
  unfold sparLost
  with_reducible repeat' first
    | exact Leaves.refl | refine leaves_spar rfl ?_

theorem eavLost_leaves (s : State) : Leaves [.eav, .cdc] s (eavLost s) := by
  unfold eavLost
  with_reducible repeat' first
    | exact Leaves.refl | (apply Leaves.forEach; intro u a) | refine (crossReset_leaves _ _).step rfl ?_
    | refine (crossDrop_leaves _ _ _).step rfl ?_ | refine leaves_eav rfl ?_

theorem execSparReset_leaves (s : State) : LeavesOut [.spar, .eav, .cdc] s (execSparReset s) := by
  unfold execSparReset
  with_reducible repeat' first
    | exact Leaves.refl | split | apply leavesOut_next | refine (eavLost_leaves _).step rfl ?_
    | refine (sparLost_leaves _ _).step rfl ?_

theorem execSparResetRelease_leaves (s : State) : LeavesOut [.spar] s (execSparResetRelease s) := by
  unfold execSparResetRelease
  with_reducible repeat' first
    | exact Leaves.refl | split | apply leavesOut_next | refine leaves_spar rfl ?_

theorem execSparClockFault_leaves (s : State) : LeavesOut [.spar] s (execSparClockFault s) := by
  unfold execSparClockFault
  with_reducible repeat' first
    | exact Leaves.refl | split | apply leavesOut_next | apply Leaves.ite | refine (raiseCause_leaves _ _).step rfl ?_
    | refine leaves_spar rfl ?_

theorem execSparClockStop_leaves (s : State) : LeavesOut [.spar] s (execSparClockStop s) := by
  unfold execSparClockStop
  with_reducible repeat' first
    | exact Leaves.refl | split | apply leavesOut_next | refine (sparGates_leaves _).step rfl ?_
    | refine leaves_spar rfl ?_

theorem execSparClockReturn_leaves (s : State) : LeavesOut [.spar] s (execSparClockReturn s) := by
  unfold execSparClockReturn
  with_reducible repeat' first
    | exact Leaves.refl | split | apply leavesOut_next | refine (sparJudge_leaves _).step rfl ?_ | apply Leaves.ite
    | refine (raiseCause_leaves _ _).step rfl ?_ | refine leaves_spar rfl ?_

theorem execStatusWordPresent_leaves (s : State) : LeavesOut [.spar] s (execStatusWordPresent s) := by
  unfold execStatusWordPresent
  with_reducible repeat' first
    | exact Leaves.refl | split | apply leavesOut_next | refine leaves_spar rfl ?_

theorem sparAck_leaves (s : State) (w : Word) : Leaves [.spar] s (sparAck s w) := by
  unfold sparAck
  with_reducible repeat' first
    | exact Leaves.refl | refine leaves_spar rfl ?_

/-! ## Pager -/

theorem touchPage_leaves (s : State) (n : Nat) : Leaves [.pgr] s (touchPage s n) := by
  unfold touchPage
  with_reducible repeat' first
    | exact Leaves.refl | split | refine leaves_pgr rfl ?_

theorem requestPage_leaves (s : State) (c : PageClass) (n : Nat) : Leaves [.pgr] s (requestPage s c n).1 := by
  unfold requestPage
  with_reducible repeat' first
    | exact Leaves.refl | split | dsimp only | refine (touchPage_leaves _ _).step rfl ?_ | refine leaves_pgr rfl ?_

theorem fetchPage_leaves (s : State) (n : Nat) : Leaves [.pgr] s (fetchPage s n) := by
  unfold fetchPage
  with_reducible repeat' first
    | exact Leaves.refl | apply Leaves.ite | refine leaves_pgr rfl ?_

theorem pageTransfer_leaves (s : State) : Leaves [.pgr] s (pageTransfer s) := by
  unfold pageTransfer
  with_reducible repeat' first
    | exact Leaves.refl | apply Leaves.ite | split | refine (fetchPage_leaves _ _).step rfl ?_
    | refine leaves_pgr rfl ?_

theorem execPageTransferComplete_leaves (s : State) : LeavesOut [.pgr] s (execPageTransferComplete s) := by
  unfold execPageTransferComplete
  with_reducible repeat' first
    | exact Leaves.refl | split | apply leavesOut_next | refine (pageTransfer_leaves _).step rfl ?_

theorem expirePages_leaves (s : State) : Leaves [.pgr] s (expirePages s) := by
  unfold expirePages
  with_reducible repeat' first
    | exact Leaves.refl | refine leaves_pgr rfl ?_

theorem execPageQueueEntryExpiry_leaves (s : State) : LeavesOut [.pgr] s (execPageQueueEntryExpiry s) := by
  unfold execPageQueueEntryExpiry
  with_reducible repeat' first
    | exact Leaves.refl | apply leavesOut_next | refine (expirePages_leaves _).step rfl ?_

theorem pageDemandRun_leaves (s : State) (wcet : Nat) : Leaves [.pgr] s (pageDemandRun s wcet) := by
  unfold pageDemandRun
  with_reducible repeat' first
    | exact Leaves.refl | refine leaves_pgr rfl ?_

theorem queueHost_leaves (s : State) (pages : List Nat) : Leaves [.pgr] s (queueHost s pages).1 := by
  unfold queueHost
  with_reducible repeat' first
    | exact Leaves.refl | (apply Leaves.foldl_fst; intro u a) | split | dsimp only
    | refine leaves_of_fst (by assumption) ?_ | refine (requestPage_leaves _ _ _).step rfl ?_

theorem serveHost_leaves (s : State) (pages : List Nat) : Leaves [.pgr] s (serveHost s pages) := by
  unfold serveHost
  with_reducible repeat' first
    | exact Leaves.refl | (apply Leaves.forEach; intro u a) | refine (touchPage_leaves _ _).step rfl ?_
    | refine leaves_pgr rfl ?_

theorem countMiss_leaves (s : State) (full : Bool) : Leaves [.pgr] s (countMiss s full) := by
  unfold countMiss
  with_reducible repeat' first
    | exact Leaves.refl | apply Leaves.ite | refine leaves_pgr rfl ?_

theorem histClose_leaves (s : State) : Leaves [.fresh, .tha, .pgr] s (histClose s) := by
  unfold histClose
  with_reducible repeat' first
    | exact Leaves.refl | apply Leaves.ite | refine leaves_fresh_tha_pgr rfl ?_

theorem cellBatten_leaves (s : State) (c : Nat) : Leaves [.tha] s (cellBatten s c) := by
  unfold cellBatten
  with_reducible repeat' first
    | exact Leaves.refl | refine (modCell_leaves _ _ _).step rfl ?_

theorem histBatten_leaves (s : State) : Leaves [.tha, .pgr] s (histBatten s) := by
  unfold histBatten
  with_reducible repeat' first
    | exact Leaves.refl | (apply Leaves.forEach; intro u a) | refine (cellBatten_leaves _ _).step rfl ?_
    | refine leaves_pgr rfl ?_

theorem releaseFrames_leaves (s : State) : Leaves [.psram, .pgr] s (releaseFrames s) := by
  unfold releaseFrames
  exact .forEach (fun u a => leaves_puts_psram rfl .refl) (.forEach
    (fun u a => leaves_pgr rfl (leaves_puts_psram rfl .refl)) (leaves_pgr rfl .refl))

theorem histPageRun_leaves (s : State) : Leaves [.psram, .pgr] s (histPageRun s) := by
  unfold histPageRun
  with_reducible repeat' first
    | exact Leaves.refl | apply Leaves.ite | refine (releaseFrames_leaves _).step rfl ?_ | refine leaves_pgr rfl ?_

theorem modSeg_leaves (s : State) (i : Nat) (f : Seg → Seg) : Leaves [.pgr] s (modSeg s i f) := by
  unfold modSeg
  with_reducible repeat' first
    | exact Leaves.refl | refine leaves_pgr rfl ?_

theorem nextLive_leaves (s : State) : Leaves [.fresh, .pgr, .gtr] s (nextLive s) := by
  unfold nextLive; dsimp only
  with_reducible repeat' first
    | exact Leaves.refl | split | refine (modSeg_leaves _ _ _).step rfl ?_ | refine (logEv_leaves _ _ _ _).step rfl ?_
    | refine leaves_pgr rfl ?_

theorem freezeSegment_leaves (s : State) : Leaves [.fresh, .pgr, .gtr] s (freezeSegment s) := by
  unfold freezeSegment
  with_reducible repeat' first
    | exact Leaves.refl | split | apply Leaves.ite | refine (nextLive_leaves _).step rfl ?_
    | refine (logEv_leaves _ _ _ _).step rfl ?_ | refine (modSeg_leaves _ _ _).step rfl ?_

theorem execSegmentFreeze_leaves (s : State) : LeavesOut [.fresh, .pgr, .gtr] s (execSegmentFreeze s) := by
  unfold execSegmentFreeze
  with_reducible repeat' first
    | exact Leaves.refl | apply leavesOut_next | refine (freezeSegment_leaves _).step rfl ?_

theorem faultTrigger_leaves (s : State) (mask : BitVec 4) : Leaves [.pgr] s (faultTrigger s mask) := by
  unfold faultTrigger
  with_reducible repeat' first
    | exact Leaves.refl | apply Leaves.ite | split | refine (modSeg_leaves _ _ _).step rfl ?_

theorem faultFrame_leaves (s : State) : Leaves [.fresh, .pgr, .gtr] s (faultFrame s) := by
  unfold faultFrame
  with_reducible repeat' first
    | exact Leaves.refl | apply Leaves.ite | split | refine (freezeSegment_leaves _).step rfl ?_
    | refine leaves_pgr rfl ?_

theorem freeSegments_leaves (s : State) (mask : Nat) : Leaves [.pgr] s (freeSegments s mask) := by
  unfold freeSegments
  with_reducible repeat' first
    | exact Leaves.refl | (apply Leaves.forEach; intro u a) | apply Leaves.ite
    | refine (modSeg_leaves _ _ _).step rfl ?_

/-! ## Ridge -/

theorem chargeOpening_leaves (s : State) (k : Nat) (i : Rat) (role : Nat) :
    Leaves [.fresh, .led, .cpr, .gtr] s (chargeOpening s k i role) := by
  unfold chargeOpening
  with_reducible repeat' first
    | exact Leaves.refl | apply Leaves.ite | refine (logEv_leaves _ _ _ _).step rfl ?_
    | refine (ledgerDue_leaves _ _).step rfl ?_ | refine leaves_led rfl ?_

theorem changeStr_leaves (s : State) (k : Nat) (i : Rat) (f : Str → Str) :
    Leaves [.fresh, .led, .rdg, .cpr, .gtr] s (changeStr s k i f) := by
  unfold changeStr
  with_reducible repeat' first
    | exact Leaves.refl | (apply Leaves.forEach; intro u a) | refine (chargeOpening_leaves _ _ _ _).step rfl ?_
    | refine (modStr_leaves _ _ _).step rfl ?_

theorem logStr_leaves (s : State) (k : Nat) (old : StrState) : Leaves [.fresh, .gtr] s (logStr s k old) := by
  unfold logStr
  with_reducible repeat' first
    | exact Leaves.refl | refine (logEv_leaves _ _ _ _).step rfl ?_

theorem enterStr_leaves (s : State) (k : Nat) (i : Rat) (st : StrState) (ph : Phase) (deadline : Nat)
    (cause : Option Cause) : Leaves [.fresh, .led, .rdg, .cpr, .gtr] s (enterStr s k i st ph deadline cause) := by
  unfold enterStr
  with_reducible repeat' first
    | exact Leaves.refl | refine (logStr_leaves _ _ _).step rfl ?_ | refine (changeStr_leaves _ _ _ _).step rfl ?_

theorem openAtOnce_leaves (s : State) (k : Nat) (i : Rat) (c : Cause) :
    Leaves [.fresh, .led, .rdg, .cpr, .gtr] s (openAtOnce s k i c) := by
  unfold openAtOnce
  with_reducible repeat' first
    | exact Leaves.refl | refine (enterStr_leaves _ _ _ _ _ _ _).step rfl ?_

theorem lockStr_leaves (s : State) (k : Nat) (i : Rat) (c : Cause) :
    Leaves [.fresh, .led, .rdg, .cpr, .gtr] s (lockStr s k i c) := by
  unfold lockStr
  with_reducible repeat' first
    | exact Leaves.refl | apply Leaves.ite | refine (enterStr_leaves _ _ _ _ _ _ _).step rfl ?_

theorem joinClear_leaves (s : State) (k : Nat) : Leaves [.rdg] s (joinClear s k) := by
  unfold joinClear
  with_reducible repeat' first
    | exact Leaves.refl | refine (modStr_leaves _ _ _).step rfl ?_

theorem joinFigures_leaves (s : State) (k : Nat) : Leaves [.rdg] s (joinFigures s k) := by
  unfold joinFigures
  with_reducible repeat' first
    | exact Leaves.refl | apply Leaves.ite | refine (modStr_leaves _ _ _).step rfl ?_

theorem toOverlap_leaves (s : State) (k : Nat) (preOn : Bool) :
    Leaves [.fresh, .led, .rdg, .cpr, .gtr] s (toOverlap s k preOn) := by
  unfold toOverlap
  with_reducible repeat' first
    | exact Leaves.refl | refine (enterStr_leaves _ _ _ _ _ _ _).step rfl ?_
    | refine (modStr_leaves _ _ _).step rfl ?_

theorem joinPass_leaves (s : State) (k : Nat) : Leaves [.fresh, .led, .rdg, .cpr, .gtr] s (joinPass s k) := by
  unfold joinPass
  with_reducible repeat' first
    | exact Leaves.refl | apply Leaves.ite | refine (toOverlap_leaves _ _ _).step rfl ?_

theorem joinTimeout_leaves (s : State) (k : Nat) :
    Leaves [.fresh, .led, .rdg, .cpr, .gtr] s (joinTimeout s k) := by
  unfold joinTimeout
  with_reducible repeat' first
    | exact Leaves.refl | apply Leaves.ite | refine (openAtOnce_leaves _ _ _ _).step rfl ?_

theorem joinStep_leaves (s : State) (k : Nat) : Leaves [.fresh, .led, .rdg, .cpr, .gtr] s (joinStep s k) := by
  unfold joinStep
  with_reducible repeat' first
    | exact Leaves.refl | refine (joinTimeout_leaves _ _).step rfl ?_ | refine (joinPass_leaves _ _).step rfl ?_
    | refine (joinFigures_leaves _ _).step rfl ?_ | refine (modStr_leaves _ _ _).step rfl ?_

theorem toCharging_leaves (s : State) (k : Nat) : Leaves [.rdg] s (toCharging s k) := by
  unfold toCharging
  with_reducible repeat' first
    | exact Leaves.refl | refine (modStr_leaves _ _ _).step rfl ?_

theorem mnSettled_leaves (s : State) (k : Nat) :
    Leaves [.fresh, .led, .rdg, .cpr, .gtr] s (mnSettled s k) := by
  unfold mnSettled
  with_reducible repeat' first
    | exact Leaves.refl | apply Leaves.ite | refine (joinStep_leaves _ _).step rfl ?_
    | refine (modStr_leaves _ _ _).step rfl ?_ | refine (openAtOnce_leaves _ _ _ _).step rfl ?_
    | refine (toCharging_leaves _ _).step rfl ?_

theorem prechargeCount_leaves (s : State) (k : Nat) : Leaves [.rdg] s (prechargeCount s k) := by
  unfold prechargeCount
  with_reducible repeat' first
    | exact Leaves.refl | apply Leaves.ite | refine (modStr_leaves _ _ _).step rfl ?_

theorem prechargeFail_leaves (s : State) (k : Nat) :
    Leaves [.fresh, .led, .rdg, .cpr, .gtr] s (prechargeFail s k) := by
  unfold prechargeFail
  with_reducible repeat' first
    | exact Leaves.refl | split | apply Leaves.ite | refine (lockStr_leaves _ _ _ _).step rfl ?_
    | refine (prechargeCount_leaves _ _).step rfl ?_ | refine (openAtOnce_leaves _ _ _ _).step rfl ?_

theorem reached95_leaves (s : State) (k : Nat) :
    Leaves [.fresh, .led, .rdg, .cpr, .gtr] s (reached95 s k) := by
  unfold reached95
  with_reducible repeat' first
    | exact Leaves.refl | apply Leaves.ite | refine (prechargeFail_leaves _ _).step rfl ?_
    | refine (toOverlap_leaves _ _ _).step rfl ?_

theorem prechargeSlow_leaves (s : State) (k : Nat) :
    Leaves [.fresh, .led, .rdg, .cpr, .gtr] s (prechargeSlow s k) := by
  unfold prechargeSlow
  with_reducible repeat' first
    | exact Leaves.refl | apply Leaves.ite | refine (prechargeFail_leaves _ _).step rfl ?_

theorem overlapDone_leaves (s : State) (k : Nat) :
    Leaves [.fresh, .led, .rdg, .cpr, .gtr] s (overlapDone s k) := by
  unfold overlapDone
  with_reducible repeat' first
    | exact Leaves.refl | apply Leaves.ite | refine (enterStr_leaves _ _ _ _ _ _ _).step rfl ?_
    | refine (changeStr_leaves _ _ _ _).step rfl ?_

theorem endRamp_leaves (s : State) (k : Nat) (byDeadline : Bool) :
    Leaves [.fresh, .led, .rdg, .cpr, .gtr] s (endRamp s k byDeadline) := by
  unfold endRamp
  with_reducible repeat' first
    | exact Leaves.refl | apply Leaves.ite | refine (enterStr_leaves _ _ _ _ _ _ _).step rfl ?_
    | refine (changeStr_leaves _ _ _ _).step rfl ?_ | refine leaves_rdg rfl ?_

theorem rampEnd_leaves (s : State) (k : Nat) : Leaves [.fresh, .led, .rdg, .cpr, .gtr] s (rampEnd s k) := by
  unfold rampEnd
  with_reducible repeat' first
    | exact Leaves.refl | apply Leaves.ite | refine (endRamp_leaves _ _ _).step rfl ?_

theorem rampUnack_leaves (s : State) (k : Nat) : Leaves [.fresh, .rdg, .gtr] s (rampUnack s k) := by
  unfold rampUnack
  with_reducible repeat' first
    | exact Leaves.refl | apply Leaves.ite | refine (logEv_leaves _ _ _ _).step rfl ?_
    | refine (modStr_leaves _ _ _).step rfl ?_

theorem beginRamp_leaves (s : State) (k : Nat) (c : Cause) :
    Leaves [.fresh, .led, .rdg, .cpr, .gtr] s (beginRamp s k c) := by
  unfold beginRamp
  with_reducible repeat' first
    | exact Leaves.refl | apply Leaves.ite | refine (endRamp_leaves _ _ _).step rfl ?_
    | refine (changeStr_leaves _ _ _ _).step rfl ?_

theorem rampStep_leaves (s : State) (k : Nat) : Leaves [.fresh, .led, .rdg, .cpr, .gtr] s (rampStep s k) := by
  unfold rampStep
  with_reducible repeat' first
    | exact Leaves.refl | refine (rampEnd_leaves _ _).step rfl ?_ | refine (rampUnack_leaves _ _).step rfl ?_
    | refine (modStr_leaves _ _ _).step rfl ?_

theorem sequenceDone_leaves (s : State) (k : Nat) :
    Leaves [.fresh, .led, .rdg, .cpr, .gtr] s (sequenceDone s k) := by
  unfold sequenceDone
  with_reducible repeat' first
    | exact Leaves.refl | apply Leaves.ite | refine (enterStr_leaves _ _ _ _ _ _ _).step rfl ?_

theorem holdClear_leaves (s : State) (k : Nat) :
    Leaves [.fresh, .led, .rdg, .cpr, .gtr] s (holdClear s k) := by
  unfold holdClear
  with_reducible repeat' first
    | exact Leaves.refl | apply Leaves.ite | refine (enterStr_leaves _ _ _ _ _ _ _).step rfl ?_

theorem holdStep_leaves (s : State) (k : Nat) : Leaves [.fresh, .led, .rdg, .cpr, .gtr] s (holdStep s k) := by
  unfold holdStep
  with_reducible repeat' first
    | exact Leaves.refl | apply Leaves.ite | refine (holdClear_leaves _ _).step rfl ?_
    | refine (modStr_leaves _ _ _).step rfl ?_

theorem standstillOpen_leaves (s : State) (k : Nat) :
    Leaves [.fresh, .led, .rdg, .cpr, .gtr] s (standstillOpen s k) := by
  unfold standstillOpen
  with_reducible repeat' first
    | exact Leaves.refl | apply Leaves.ite | refine (openAtOnce_leaves _ _ _ _).step rfl ?_

theorem thermalOpen_leaves (s : State) (k : Nat) :
    Leaves [.fresh, .led, .rdg, .cpr, .gtr] s (thermalOpen s k) := by
  unfold thermalOpen
  with_reducible repeat' first
    | exact Leaves.refl | apply Leaves.ite | refine (openAtOnce_leaves _ _ _ _).step rfl ?_

theorem weldLock_leaves (s : State) (k : Nat) : Leaves [.fresh, .led, .rdg, .cpr, .gtr] s (weldLock s k) := by
  unfold weldLock
  with_reducible repeat' first
    | exact Leaves.refl | apply Leaves.ite | refine (lockStr_leaves _ _ _ _).step rfl ?_

theorem weldCount_leaves (s : State) (k : Nat) : Leaves [.rdg] s (weldCount s k) := by
  unfold weldCount; dsimp only
  with_reducible repeat' first
    | exact Leaves.refl | split | apply Leaves.ite | refine (modStr_leaves _ _ _).step rfl ?_

theorem persistCount_leaves (s : State) (k : Nat) : Leaves [.rdg] s (persistCount s k) := by
  unfold persistCount
  with_reducible repeat' first
    | exact Leaves.refl | refine (modStr_leaves _ _ _).step rfl ?_

theorem persistReached_leaves (s : State) (k : Nat) :
    Leaves [.fresh, .led, .rdg, .cpr, .gtr] s (persistReached s k) := by
  unfold persistReached
  with_reducible repeat' first
    | exact Leaves.refl | apply Leaves.ite | refine (lockStr_leaves _ _ _ _).step rfl ?_
    | refine (beginRamp_leaves _ _ _).step rfl ?_

theorem gatherStr_leaves (s : State) (k : Nat) : Leaves [.rdg] s (gatherStr s k) := by
  unfold gatherStr
  with_reducible repeat' first
    | exact Leaves.refl | refine (modStr_leaves _ _ _).step rfl ?_ | refine (persistCount_leaves _ _).step rfl ?_
    | refine (weldCount_leaves _ _).step rfl ?_

theorem cooldownEnd_leaves (s : State) (k : Nat) : Leaves [.rdg] s (cooldownEnd s k) := by
  unfold cooldownEnd
  with_reducible repeat' first
    | exact Leaves.refl | split | apply Leaves.ite | refine (modStr_leaves _ _ _).step rfl ?_

theorem overrideEnd_leaves (s : State) (k : Nat) : Leaves [.rdg] s (overrideEnd s k) := by
  unfold overrideEnd
  with_reducible repeat' first
    | exact Leaves.refl | split | apply Leaves.ite | refine (modStr_leaves _ _ _).step rfl ?_

theorem resetWindowEnd_leaves (s : State) : Leaves [.rdg] s (resetWindowEnd s) := by
  unfold resetWindowEnd
  with_reducible repeat' first
    | exact Leaves.refl | split | apply Leaves.ite | refine leaves_rdg rfl ?_

theorem plantEvent_leaves (s : State) : Leaves [.fresh, .rdg, .gtr] s (plantEvent s) := by
  unfold plantEvent
  with_reducible repeat' first
    | exact Leaves.refl | apply Leaves.ite | refine (logEv_leaves _ _ _ _).step rfl ?_ | refine leaves_rdg rfl ?_

theorem quietRestart_leaves (a : State) (b : State) :
    Leaves [.led, .cpr, .pwr] b (quietRestart a b) := by
  unfold quietRestart
  with_reducible repeat' first
    | exact Leaves.refl | apply Leaves.ite | refine (endShip_leaves _).step rfl ?_ | refine leaves_pwr rfl ?_

theorem stopStage_leaves (s : State) : Leaves [.led, .cpr, .pwr] s (stopStage s) := by
  unfold stopStage
  with_reducible repeat' first
    | exact Leaves.refl | apply Leaves.ite | refine (beginStop_leaves _).step rfl ?_ | refine leaves_pwr rfl ?_

theorem settle_leaves (a : State) (s : State) :
    Leaves [.fresh, .nor, .img, .led, .pgr, .rdg, .cpr, .pwr, .gtr] s (settle a s) := by
  unfold settle
  with_reducible repeat' first
    | exact Leaves.refl | apply Leaves.ite | refine (cancelReload_leaves _ _).step rfl ?_
    | refine (stopStage_leaves _).step rfl ?_ | refine (quietRestart_leaves _ _).step rfl ?_
    | refine (faultTrigger_leaves _ _).step rfl ?_ | refine leaves_rdg rfl ?_

theorem ridgeRow_leaves {f : State → Nat → State} {k : Nat} {s : State}
    (hf : ∀ u, Leaves [.fresh, .nor, .img, .led, .pgr, .rdg, .cpr, .pwr, .gtr] u (f u k)) :
    Leaves [.fresh, .nor, .img, .led, .pgr, .rdg, .cpr, .pwr, .gtr] s (ridgeRow f k s) := by
  unfold ridgeRow
  exact .ite ((plantEvent_leaves _).step rfl ((settle_leaves _ _).step rfl (hf s))) .refl

theorem execMnSettleExpiry_leaves (k : Fin 4) (s : State) :
    LeavesOut [.fresh, .nor, .img, .led, .pgr, .rdg, .cpr, .pwr, .gtr] s (execMnSettleExpiry k s) := by
  unfold execMnSettleExpiry; exact leavesOut_next (ridgeRow_leaves fun u => (mnSettled_leaves u _).step rfl .refl)

theorem execPrecharge95Reached_leaves (k : Fin 4) (s : State) :
    LeavesOut [.fresh, .nor, .img, .led, .pgr, .rdg, .cpr, .pwr, .gtr] s (execPrecharge95Reached k s) := by
  unfold execPrecharge95Reached; exact leavesOut_next (ridgeRow_leaves fun u => (reached95_leaves u _).step rfl .refl)

theorem execPrechargeSlowExpiry_leaves (k : Fin 4) (s : State) :
    LeavesOut [.fresh, .nor, .img, .led, .pgr, .rdg, .cpr, .pwr, .gtr] s (execPrechargeSlowExpiry k s) := by
  unfold execPrechargeSlowExpiry; exact leavesOut_next (ridgeRow_leaves fun u => (prechargeSlow_leaves u _).step rfl .refl)

theorem execJoinTestPass_leaves (k : Fin 4) (s : State) :
    LeavesOut [.fresh, .nor, .img, .led, .pgr, .rdg, .cpr, .pwr, .gtr] s (execJoinTestPass k s) := by
  unfold execJoinTestPass; exact leavesOut_next (ridgeRow_leaves fun u => (joinPass_leaves u _).step rfl .refl)

theorem execJoinTimeout_leaves (k : Fin 4) (s : State) :
    LeavesOut [.fresh, .nor, .img, .led, .pgr, .rdg, .cpr, .pwr, .gtr] s (execJoinTimeout k s) := by
  unfold execJoinTimeout; exact leavesOut_next (ridgeRow_leaves fun u => (joinTimeout_leaves _ _).step rfl ((joinPass_leaves _ _).step rfl .refl))

theorem execOverlapExpiry_leaves (k : Fin 4) (s : State) :
    LeavesOut [.fresh, .nor, .img, .led, .pgr, .rdg, .cpr, .pwr, .gtr] s (execOverlapExpiry k s) := by
  unfold execOverlapExpiry; exact leavesOut_next (ridgeRow_leaves fun u => (overlapDone_leaves u _).step rfl .refl)

theorem execRampEnd_leaves (k : Fin 4) (s : State) :
    LeavesOut [.fresh, .nor, .img, .led, .pgr, .rdg, .cpr, .pwr, .gtr] s (execRampEnd k s) := by
  unfold execRampEnd; exact leavesOut_next (ridgeRow_leaves fun u => (rampEnd_leaves u _).step rfl .refl)

theorem execRampUnacknowledged_leaves (k : Fin 4) (s : State) :
    LeavesOut [.fresh, .nor, .img, .led, .pgr, .rdg, .cpr, .pwr, .gtr] s (execRampUnacknowledged k s) := by
  unfold execRampUnacknowledged; exact leavesOut_next (ridgeRow_leaves fun u => (rampUnack_leaves u _).step rfl .refl)

theorem execSequenceExpiry_leaves (k : Fin 4) (s : State) :
    LeavesOut [.fresh, .nor, .img, .led, .pgr, .rdg, .cpr, .pwr, .gtr] s (execSequenceExpiry k s) := by
  unfold execSequenceExpiry; exact leavesOut_next (ridgeRow_leaves fun u => (sequenceDone_leaves u _).step rfl .refl)

theorem execPersistenceReached_leaves (k : Fin 4) (s : State) :
    LeavesOut [.fresh, .nor, .img, .led, .pgr, .rdg, .cpr, .pwr, .gtr] s (execPersistenceReached k s) := by
  unfold execPersistenceReached; exact leavesOut_next (ridgeRow_leaves fun u => (persistReached_leaves u _).step rfl .refl)

theorem execStandstillCurrent_leaves (k : Fin 4) (s : State) :
    LeavesOut [.fresh, .nor, .img, .led, .pgr, .rdg, .cpr, .pwr, .gtr] s (execStandstillCurrent k s) := by
  unfold execStandstillCurrent; exact leavesOut_next (ridgeRow_leaves fun u => (standstillOpen_leaves u _).step rfl .refl)

theorem execStandstillClearCourse_leaves (k : Fin 4) (s : State) :
    LeavesOut [.fresh, .nor, .img, .led, .pgr, .rdg, .cpr, .pwr, .gtr] s (execStandstillClearCourse k s) := by
  unfold execStandstillClearCourse; exact leavesOut_next (ridgeRow_leaves fun u => (holdClear_leaves u _).step rfl .refl)

theorem execWeld_leaves (k : Fin 4) (s : State) :
    LeavesOut [.fresh, .nor, .img, .led, .pgr, .rdg, .cpr, .pwr, .gtr] s (execWeld k s) := by
  unfold execWeld; exact leavesOut_next (ridgeRow_leaves fun u => (weldLock_leaves u _).step rfl .refl)

theorem execPrechargeCooldownExpiry_leaves (k : Fin 4) (s : State) :
    LeavesOut [.fresh, .nor, .img, .led, .pgr, .rdg, .cpr, .pwr, .gtr] s (execPrechargeCooldownExpiry k s) := by
  unfold execPrechargeCooldownExpiry; exact leavesOut_next (ridgeRow_leaves fun u => (cooldownEnd_leaves u _).step rfl .refl)

theorem execWearOverrideExpiry_leaves (k : Fin 4) (s : State) :
    LeavesOut [.fresh, .nor, .img, .led, .pgr, .rdg, .cpr, .pwr, .gtr] s (execWearOverrideExpiry k s) := by
  unfold execWearOverrideExpiry; exact leavesOut_next (ridgeRow_leaves fun u => (overrideEnd_leaves u _).step rfl .refl)

theorem execLockoutResetWindowExpiry_leaves (s : State) :
    LeavesOut [.rdg] s (execLockoutResetWindowExpiry s) := by
  unfold execLockoutResetWindowExpiry
  with_reducible repeat' first
    | exact Leaves.refl | apply leavesOut_next | refine (resetWindowEnd_leaves _).step rfl ?_

theorem execThermalStopOpening_leaves (k : Fin 4) (s : State) :
    LeavesOut [.fresh, .nor, .img, .led, .pgr, .rdg, .cpr, .pwr, .gtr] s (execThermalStopOpening k s) := by
  unfold execThermalStopOpening; exact leavesOut_next (ridgeRow_leaves fun u => (thermalOpen_leaves u _).step rfl .refl)

/-! ## RidgeOrders -/

theorem sparEvents_leaves (s : State) (w : Word) : Leaves [.fresh, .rdg, .spar, .gtr] s (sparEvents s w) := by
  unfold sparEvents
  with_reducible repeat' first
    | exact Leaves.refl | (apply Leaves.forEach; intro u a) | refine (logEv_leaves _ _ _ _).step rfl ?_
    | refine leaves_rdg_spar rfl ?_

theorem toPrecharge_leaves (s : State) (k : Nat) :
    Leaves [.fresh, .led, .rdg, .cpr, .gtr] s (toPrecharge s k) := by
  unfold toPrecharge
  with_reducible repeat' first
    | exact Leaves.refl | refine (enterStr_leaves _ _ _ _ _ _ _).step rfl ?_
    | refine (modStr_leaves _ _ _).step rfl ?_ | apply Leaves.ite | (apply Leaves.forEach; intro u a)
    | refine (ledgerDue_leaves _ _).step rfl ?_ | refine leaves_led rfl ?_

theorem answerOrder_leaves (s : State) (o : Order) (rs : List OrderResult) (win : Nat) :
    Leaves [.rdg, .hst] s (answerOrder s o rs win) := by
  unfold answerOrder
  with_reducible repeat' first
    | exact Leaves.refl | split | (apply Leaves.forEach; intro u a) | apply Leaves.ite
    | refine (modStr_leaves _ _ _).step rfl ?_ | refine leaves_hst rfl ?_ | refine leaves_rdg rfl ?_

theorem besideRow_leaves (s : State) (os : List Order) (k : Nat) : Leaves [.rdg] s (besideRow s os k) := by
  unfold besideRow; dsimp only
  with_reducible repeat' first
    | exact Leaves.refl | split | apply Leaves.ite | refine (modStr_leaves _ _ _).step rfl ?_

theorem progress_leaves (s : State) (k : Nat) : Leaves [.fresh, .led, .rdg, .cpr, .gtr] s (progress s k) := by
  unfold progress
  with_reducible repeat' first
    | exact Leaves.refl | split | refine (mnSettled_leaves _ _).step rfl ?_
    | refine (reached95_leaves _ _).step rfl ?_ | refine (joinStep_leaves _ _).step rfl ?_
    | refine (overlapDone_leaves _ _).step rfl ?_ | refine (rampStep_leaves _ _).step rfl ?_
    | refine (sequenceDone_leaves _ _).step rfl ?_ | refine (holdStep_leaves _ _).step rfl ?_

theorem strRow_leaves (s : State) (os : List Order) (w : Option Word) (back : Option (Cause × Rat))
    (reset : Bool) (win : Option Nat) (k : Nat) :
    Leaves [.fresh, .led, .rdg, .cpr, .gtr] s (strRow s os w back reset win k) := by
  unfold strRow
  with_reducible repeat' first
    | exact Leaves.refl | apply Leaves.ite | refine (lockStr_leaves _ _ _ _).step rfl ?_ | split
    | refine (openAtOnce_leaves _ _ _ _).step rfl ?_ | refine (enterStr_leaves _ _ _ _ _ _ _).step rfl ?_
    | refine (progress_leaves _ _).step rfl ?_ | refine (beginRamp_leaves _ _ _).step rfl ?_
    | refine (toPrecharge_leaves _ _).step rfl ?_ | refine (prechargeCount_leaves _ _).step rfl ?_

theorem vergeEvent_leaves (s : State) (k : Nat) : Leaves [.fresh, .rdg, .gtr] s (vergeEvent s k) := by
  unfold vergeEvent
  with_reducible repeat' first
    | exact Leaves.refl | apply Leaves.ite | refine (logEv_leaves _ _ _ _).step rfl ?_
    | refine (modStr_leaves _ _ _).step rfl ?_

theorem insJudge_leaves (s : State) : Leaves [.rdg, .vrg] s (insJudge s) := by
  unfold insJudge
  with_reducible repeat' first
    | exact Leaves.refl | apply Leaves.ite | refine leaves_rdg_vrg rfl ?_

theorem insEvent_leaves (s : State) : Leaves [.fresh, .vrg, .gtr] s (insEvent s) := by
  unfold insEvent
  with_reducible repeat' first
    | exact Leaves.refl | (apply Leaves.forEach; intro u a) | refine (logEv_leaves _ _ _ _).step rfl ?_
    | refine leaves_vrg rfl ?_

theorem clearMismatch_leaves (s : State) (reclaim : Bool) (k : Nat) :
    Leaves [.rdg] s (clearMismatch s reclaim k) := by
  unfold clearMismatch
  with_reducible repeat' first
    | exact Leaves.refl | refine (modStr_leaves _ _ _).step rfl ?_

theorem dropResetI_leaves (s : State) (reclaim : Bool) (k : Nat) :
    Leaves [.rdg] s (dropResetI s reclaim k) := by
  unfold dropResetI
  with_reducible repeat' first
    | exact Leaves.refl | refine (modStr_leaves _ _ _).step rfl ?_

theorem proofsComplete_leaves (s : State) (w : Option Word) :
    Leaves [.img, .led, .cpr] s (proofsComplete s w) := by
  unfold proofsComplete
  with_reducible repeat' first
    | exact Leaves.refl | apply Leaves.ite | refine (ledgerDue_leaves _ _).step rfl ?_ | refine leaves_img_led rfl ?_

theorem ridgeGather_leaves (s : State) : Leaves [.fresh, .rdg, .spar, .vrg, .gtr] s (ridgeGather s) := by
  unfold ridgeGather
  with_reducible repeat' first
    | exact Leaves.refl | (apply Leaves.forEach; intro u a) | refine (gatherStr_leaves _ _).step rfl ?_
    | refine (overrideEnd_leaves _ _).step rfl ?_ | refine (cooldownEnd_leaves _ _).step rfl ?_
    | refine (clearMismatch_leaves _ _ _).step rfl ?_ | refine (insJudge_leaves _).step rfl ?_ | split
    | refine (sparEvents_leaves _ _).step rfl ?_ | refine leaves_rdg rfl ?_

theorem ridgeEvaluate_leaves (s : State) :
    Leaves [.fresh, .nor, .img, .led, .pgr, .rdg, .spar, .cpr, .hst, .vrg, .pwr, .gtr] s (ridgeEvaluate s) := by
  unfold ridgeEvaluate
  with_reducible repeat' first
    | exact Leaves.refl | refine (faultFrame_leaves _).step rfl ?_ | refine (settle_leaves _ _).step rfl ?_
    | refine (proofsComplete_leaves _ _).step rfl ?_ | apply Leaves.ite | refine (logEv_leaves _ _ _ _).step rfl ?_
    | refine (plantEvent_leaves _).step rfl ?_ | refine (insEvent_leaves _).step rfl ?_ | split
    | refine (sparAck_leaves _ _).step rfl ?_ | (apply Leaves.forEach; intro u a)
    | refine (answerOrder_leaves _ _ _ _).step rfl ?_ | refine (orderNew_leaves _ _).step rfl ?_
    | refine (joinFigures_leaves _ _).step rfl ?_ | refine (dropResetI_leaves _ _ _).step rfl ?_
    | refine (strRow_leaves _ _ _ _ _ _ _).step rfl ?_ | refine (besideRow_leaves _ _ _).step rfl ?_
    | refine (joinClear_leaves _ _).step rfl ?_ | refine (vergeEvent_leaves _ _).step rfl ?_
    | refine (ridgeGather_leaves _).step rfl ?_ | refine (resetWindowEnd_leaves _).step rfl ?_
    | refine leaves_rdg rfl ?_

theorem refuseLatched_leaves (s : State) : Leaves [.rdg, .hst] s (refuseLatched s) := by
  unfold refuseLatched
  with_reducible repeat' first
    | exact Leaves.refl | (apply Leaves.forEach; intro u a) | refine (answerOrder_leaves _ _ _ _).step rfl ?_
    | refine leaves_rdg rfl ?_

theorem execRidgeEvaluation_leaves (s : State) :
    LeavesOut [.fresh, .nor, .img, .bat, .led, .pgr, .rdg, .spar, .cpr, .hst, .vrg, .pwr, .gtr] s (execRidgeEvaluation s) := by
  unfold execRidgeEvaluation
  with_reducible repeat' first
    | exact Leaves.refl | split | apply leavesOut_next | apply Leaves.ite
    | refine (ridgeEvaluate_leaves _).step rfl ?_ | refine (endSlot_leaves _ _).step rfl ?_
    | refine (refuseLatched_leaves _).step rfl ?_

theorem latchOrder_leaves (s : State) (o : Order) : LeavesOpt [.rdg, .pwr] s (latchOrder s o) := by
  unfold latchOrder
  with_reducible repeat' first
    | exact Leaves.refl | split | apply leavesOpt_none | apply leavesOpt_some | refine leaves_rdg_pwr rfl ?_

theorem orderRow_leaves (n : Fin 8) (kind : OrderKind) (seq : BitVec 16) (strings : BitVec 4) (dis : Bool)
    (value : Nat) (s : State) : Leaves [.rdg, .pwr] s (orderRow n kind seq strings dis value s) := by
  unfold orderRow
  with_reducible repeat' first
    | exact Leaves.refl | apply Leaves.ite | apply leaves_orSame
    | refine leavesOpt_step (latchOrder_leaves _ _) rfl ?_

theorem execClose_leaves (n : Fin 8) (seq : BitVec 16) (strings : BitVec 4) (s : State) :
    LeavesOut [.rdg, .pwr] s (execClose n seq strings s) := by
  unfold execClose
  with_reducible repeat' first
    | exact Leaves.refl | apply leavesOut_next | refine (orderRow_leaves _ _ _ _ _ _ _).step rfl ?_

theorem execOrderOpen_leaves (n : Fin 8) (seq : BitVec 16) (strings : BitVec 4) (s : State) :
    LeavesOut [.rdg, .pwr] s (execOrderOpen n seq strings s) := by
  unfold execOrderOpen
  with_reducible repeat' first
    | exact Leaves.refl | apply leavesOut_next | refine (orderRow_leaves _ _ _ _ _ _ _).step rfl ?_

theorem execLimit_leaves (n : Fin 8) (seq : BitVec 16) (strings : BitVec 4) (discharge : Bool) (value : BitVec 16)
    (s : State) : LeavesOut [.rdg, .pwr] s (execLimit n seq strings discharge value s) := by
  unfold execLimit
  with_reducible repeat' first
    | exact Leaves.refl | apply leavesOut_next | refine (orderRow_leaves _ _ _ _ _ _ _).step rfl ?_

theorem execLimitClear_leaves (n : Fin 8) (seq : BitVec 16) (strings : BitVec 4) (discharge : Bool)
    (s : State) : LeavesOut [.rdg, .pwr] s (execLimitClear n seq strings discharge s) := by
  unfold execLimitClear
  with_reducible repeat' first
    | exact Leaves.refl | apply leavesOut_next | refine (orderRow_leaves _ _ _ _ _ _ _).step rfl ?_

theorem execRampAck_leaves (n : Fin 8) (seq : BitVec 16) (strings : BitVec 4) (s : State) :
    LeavesOut [.rdg, .pwr] s (execRampAck n seq strings s) := by
  unfold execRampAck
  with_reducible repeat' first
    | exact Leaves.refl | apply leavesOut_next | refine (orderRow_leaves _ _ _ _ _ _ _).step rfl ?_

theorem execLockoutAck_leaves (n : Fin 8) (seq : BitVec 16) (strings : BitVec 4) (s : State) :
    LeavesOut [.rdg, .pwr] s (execLockoutAck n seq strings s) := by
  unfold execLockoutAck
  with_reducible repeat' first
    | exact Leaves.refl | apply leavesOut_next | refine (orderRow_leaves _ _ _ _ _ _ _).step rfl ?_

theorem execWearOverride_leaves (n : Fin 8) (seq : BitVec 16) (strings : BitVec 4) (s : State) :
    LeavesOut [.rdg, .pwr] s (execWearOverride n seq strings s) := by
  unfold execWearOverride
  with_reducible repeat' first
    | exact Leaves.refl | apply leavesOut_next | refine (orderRow_leaves _ _ _ _ _ _ _).step rfl ?_

/-! ## Messages -/

theorem takeTrailer_leaves (s : State) : Leaves [.hst] s (takeTrailer s).2 := by
  unfold takeTrailer
  with_reducible repeat' first
    | exact Leaves.refl | split | dsimp only | refine leaves_hst rfl ?_

theorem sendMsg_leaves (s : State) (m : HostMsg) : Leaves [.hst] s (sendMsg s m) := by
  unfold sendMsg
  with_reducible repeat' first
    | exact Leaves.refl | apply Leaves.ite | split | refine leaves_of_snd (by assumption) ?_
    | refine (takeTrailer_leaves _).step rfl ?_ | refine leaves_hst rfl ?_

theorem refuseAt_leaves (s : State) (who : Who) (seq : Nat) (status : Nat) (batten : Nat) :
    Leaves [.hst] s (refuseAt s who seq status batten) := by
  unfold refuseAt
  with_reducible repeat' first
    | exact Leaves.refl | refine (sendMsg_leaves _ _).step rfl ?_ | refine leaves_hst rfl ?_

theorem refuse_leaves (s : State) (who : Who) (seq : Nat) (status : Nat) :
    Leaves [.hst] s (refuse s who seq status) := by
  unfold refuse
  with_reducible repeat' first
    | exact Leaves.refl | refine (refuseAt_leaves _ _ _ _ _).step rfl ?_

theorem discardFrame_leaves (s : State) : Leaves [.hst] s (discardFrame s) := by
  unfold discardFrame
  with_reducible repeat' first
    | exact Leaves.refl | refine leaves_hst rfl ?_

theorem formResult_leaves (s : State) (r : Owed) : Leaves [.hst] s (formResult s r) := by
  unfold formResult
  with_reducible repeat' first
    | exact Leaves.refl | refine leaves_hst rfl ?_

theorem formResults_leaves (s : State) (n : Nat) : Leaves [.hst] s (formResults s n).1 := by
  unfold formResults
  with_reducible repeat' first
    | exact Leaves.refl | dsimp only | (apply Leaves.forEach; intro u a) | refine (formResult_leaves _ _).step rfl ?_
    | refine leaves_hst rfl ?_

theorem releaseReplies_leaves (s : State) : Leaves [.hst] s (releaseReplies s) := by
  unfold releaseReplies
  with_reducible repeat' first
    | exact Leaves.refl | (apply Leaves.forEach; intro u a) | refine (sendMsg_leaves _ _).step rfl ?_
    | refine (formResults_leaves _ _).step rfl ?_ | refine leaves_hst rfl ?_

theorem releaseEvents_leaves (s : State) : Leaves [.hst] s (releaseEvents s) := by
  unfold releaseEvents
  with_reducible repeat' first
    | exact Leaves.refl | (apply Leaves.forEach; intro u a) | split | refine (sendMsg_leaves _ _).step rfl ?_
    | refine (modSess_leaves _ _ _).step rfl ?_

theorem releaseMsgs_leaves (s : State) : Leaves [.hst] s (releaseMsgs s) := by
  unfold releaseMsgs
  with_reducible repeat' first
    | exact Leaves.refl | refine (releaseEvents_leaves _).step rfl ?_ | refine (releaseReplies_leaves _).step rfl ?_

theorem oweAgain_leaves (s : State) (m : HostMsg) (buf : Nat) : Leaves [.hst] s (oweAgain s m buf) := by
  unfold oweAgain
  with_reducible repeat' first
    | exact Leaves.refl | split | refine leaves_hst rfl ?_

theorem dropReplies_leaves (s : State) (status : Nat) : Leaves [.hst] s (dropReplies s status) := by
  unfold dropReplies
  with_reducible repeat' first
    | exact Leaves.refl | (apply Leaves.forEach; intro u a) | apply Leaves.ite
    | refine (oweAgain_leaves _ _ _).step rfl ?_ | refine (refuse_leaves _ _ _ _).step rfl ?_
    | refine leaves_hst rfl ?_

theorem dropQueue_leaves (s : State) (status : Nat) : Leaves [.hst] s (dropQueue s status) := by
  unfold dropQueue
  with_reducible repeat' first
    | exact Leaves.refl | (apply Leaves.forEach; intro u a) | refine (refuse_leaves _ _ _ _).step rfl ?_
    | refine leaves_hst rfl ?_

theorem dropOrders_leaves (s : State) (status : Nat) : Leaves [.rdg, .hst] s (dropOrders s status) := by
  unfold dropOrders
  with_reducible repeat' first
    | exact Leaves.refl | (apply Leaves.forEach; intro u a) | split | refine (refuse_leaves _ _ _ _).step rfl ?_
    | refine leaves_rdg rfl ?_

theorem dropEvents_leaves (s : State) : Leaves [.hst] s (dropEvents s) := by
  unfold dropEvents
  with_reducible repeat' first
    | exact Leaves.refl | (apply Leaves.forEach; intro u a) | split | refine (modSess_leaves _ _ _).step rfl ?_

theorem hostsCoreReset_leaves (s : State) : Leaves [.rdg, .hst] s (hostsCoreReset s) := by
  unfold hostsCoreReset
  with_reducible repeat' first
    | exact Leaves.refl | refine (dropEvents_leaves _).step rfl ?_ | refine (dropOrders_leaves _ _).step rfl ?_
    | refine (dropQueue_leaves _ _).step rfl ?_ | refine (dropReplies_leaves _ _).step rfl ?_

theorem stopDelivery_leaves (s : State) (n : Nat) (reason : Nat) :
    Leaves [.fresh, .hst, .gtr] s (stopDelivery s n reason) := by
  unfold stopDelivery
  with_reducible repeat' first
    | exact Leaves.refl | apply Leaves.ite | refine (logEv_leaves _ _ _ _).step rfl ?_
    | refine (modSess_leaves _ _ _).step rfl ?_

/-! ## Can -/

theorem canResult_leaves (s : State) (c : Nat) (res : Nat) (batten : Nat) :
    Leaves [.can] s (canResult s c res batten) := by
  unfold canResult
  with_reducible repeat' first
    | exact Leaves.refl | refine (modCan_leaves _ _ _).step rfl ?_

theorem canDrop_leaves (s : State) (c : Nat) (res : Nat) (batten : Nat) :
    Leaves [.fresh, .est, .can, .gtr] s (canDrop s c res batten) := by
  unfold canDrop
  with_reducible repeat' first
    | exact Leaves.refl | refine (logEv_leaves _ _ _ _).step rfl ?_ | refine (modCan_leaves _ _ _).step rfl ?_
    | refine (canResult_leaves _ _ _ _).step rfl ?_ | refine leaves_est rfl ?_

theorem canMeasure_leaves (s : State) (c : Nat) (sure : Bool) :
    Leaves [.fresh, .can] s (canMeasure s c sure) := by
  unfold canMeasure
  with_reducible repeat' first
    | exact Leaves.refl | split | refine (modCan_leaves _ _ _).step rfl ?_ | refine leaves_of_snd (by assumption) ?_
    | refine (takeFresh_leaves _).step rfl ?_

theorem canSent_leaves (s : State) (c : Nat) : Leaves [.fresh, .can] s (canSent s c) := by
  unfold canSent
  with_reducible repeat' first
    | exact Leaves.refl | refine (canResult_leaves _ _ _ _).step rfl ?_ | refine (modCan_leaves _ _ _).step rfl ?_
    | refine (canMeasure_leaves _ _ _).step rfl ?_

theorem canErrState_leaves (s : State) (c : Nat) : Leaves [.fresh, .can, .gtr] s (canErrState s c) := by
  unfold canErrState
  with_reducible repeat' first
    | exact Leaves.refl | apply Leaves.ite | refine (logEv_leaves _ _ _ _).step rfl ?_
    | refine (modCan_leaves _ _ _).step rfl ?_

theorem canTecUp_leaves (s : State) (c : Nat) (n : Nat) : Leaves [.fresh, .can, .gtr] s (canTecUp s c n) := by
  unfold canTecUp
  with_reducible repeat' first
    | exact Leaves.refl | refine (canErrState_leaves _ _).step rfl ?_ | refine (modCan_leaves _ _ _).step rfl ?_

theorem canNotAlone_leaves (s : State) (c : Nat) : Leaves [.fresh, .can, .gtr] s (canNotAlone s c) := by
  unfold canNotAlone
  with_reducible repeat' first
    | exact Leaves.refl | apply Leaves.ite | refine (logEv_leaves _ _ _ _).step rfl ?_
    | refine (modCan_leaves _ _ _).step rfl ?_

theorem canAttemptError_leaves (s : State) (c : Nat) :
    Leaves [.fresh, .est, .can, .gtr] s (canAttemptError s c) := by
  unfold canAttemptError
  with_reducible repeat' first
    | exact Leaves.refl | apply Leaves.ite | refine (canDrop_leaves _ _ _ _).step rfl ?_
    | refine (modCan_leaves _ _ _).step rfl ?_

theorem canHand_leaves (s : State) (c : Nat) (frame : List Byte) : Leaves [.can] s (canHand s c frame) := by
  unfold canHand
  with_reducible repeat' first
    | exact Leaves.refl | refine (modCan_leaves _ _ _).step rfl ?_

theorem execCanTransmitTime_leaves (c : Fin 2) (s : State) : LeavesOut [.can] s (execCanTransmitTime c s) := by
  unfold execCanTransmitTime; dsimp only
  with_reducible repeat' first
    | exact Leaves.refl | split | apply leavesOut_next | refine (modCan_leaves _ _ _).step rfl ?_

theorem canStarted_leaves (s : State) (c : Nat) : Leaves [.fresh] s (canStarted s c).2 := by
  unfold canStarted; dsimp only
  with_reducible repeat' first
    | exact Leaves.refl | split | dsimp only | refine (takeFresh_leaves _).step rfl ?_

theorem canCancel_leaves (s : State) (c : Nat) (res : Nat) (byReset : Bool) :
    Leaves [.fresh, .est, .can, .gtr] s (canCancel s c res byReset) := by
  unfold canCancel
  with_reducible repeat' first
    | exact Leaves.refl | apply Leaves.ite | split | refine (modCan_leaves _ _ _).step rfl ?_
    | refine leaves_of_snd (by assumption) ?_ | refine (canStarted_leaves _ _).step rfl ?_
    | refine (canDrop_leaves _ _ _ _).step rfl ?_

theorem execCanDeadline_leaves (c : Fin 2) (s : State) :
    LeavesOut [.fresh, .est, .can, .gtr] s (execCanDeadline c s) := by
  unfold execCanDeadline; dsimp only
  with_reducible repeat' first
    | exact Leaves.refl | split | apply leavesOut_next | refine (canCancel_leaves _ _ _ _).step rfl ?_

theorem execCanFrameComplete_leaves (c : Fin 2) (e : CanEnd) (s : State) :
    LeavesOut [.fresh, .est, .can, .gtr] s (execCanFrameComplete c e s) := by
  unfold execCanFrameComplete; dsimp only
  with_reducible repeat' first
    | exact Leaves.refl | split | apply leavesOut_next | refine (canTecUp_leaves _ _ _).step rfl ?_
    | refine (modCan_leaves _ _ _).step rfl ?_ | refine (canSent_leaves _ _).step rfl ?_
    | refine (canNotAlone_leaves _ _).step rfl ?_ | refine (canDrop_leaves _ _ _ _).step rfl ?_
    | refine (canAttemptError_leaves _ _).step rfl ?_ | refine (canMeasure_leaves _ _ _).step rfl ?_

theorem execCanAckError_leaves (x : CanNoAck) (s : State) :
    LeavesOut [.fresh, .est, .can, .gtr] s (execCanAckError x s) := by
  unfold execCanAckError; dsimp only
  with_reducible repeat' first
    | exact Leaves.refl | split | apply leavesOut_next | refine (canAttemptError_leaves _ _).step rfl ?_
    | apply Leaves.ite | refine (logEv_leaves _ _ _ _).step rfl ?_ | refine (modCan_leaves _ _ _).step rfl ?_
    | refine (canTecUp_leaves _ _ _).step rfl ?_ | refine (canMeasure_leaves _ _ _).step rfl ?_

theorem execCanFrameReceived_leaves (c : Fin 2) (f : CanRx) (s : State) :
    LeavesOut [.fresh, .can, .gtr] s (execCanFrameReceived c f s) := by
  unfold execCanFrameReceived; dsimp only
  with_reducible repeat' first
    | exact Leaves.refl | split | apply leavesOut_next | refine (logEv_leaves _ _ _ _).step rfl ?_
    | refine (modCan_leaves _ _ _).step rfl ?_ | refine (canErrState_leaves _ _).step rfl ?_
    | refine (canNotAlone_leaves _ _).step rfl ?_ | refine (takeFresh_leaves _).step rfl ?_

theorem execCanReceiveError_leaves (c : Fin 2) (e : CanRxError) (s : State) :
    LeavesOut [.fresh, .can, .gtr] s (execCanReceiveError c e s) := by
  unfold execCanReceiveError; dsimp only
  with_reducible repeat' first
    | exact Leaves.refl | split | apply leavesOut_next | refine (canErrState_leaves _ _).step rfl ?_
    | refine (modCan_leaves _ _ _).step rfl ?_

theorem execCanBusOffRecovery_leaves (c : Fin 2) (s : State) :
    LeavesOut [.fresh, .can, .gtr] s (execCanBusOffRecovery c s) := by
  unfold execCanBusOffRecovery; dsimp only
  with_reducible repeat' first
    | exact Leaves.refl | split | apply leavesOut_next | refine (logEv_leaves _ _ _ _).step rfl ?_
    | refine (modCan_leaves _ _ _).step rfl ?_

theorem execCanIntegration_leaves (c : Fin 2) (s : State) : LeavesOut [.can] s (execCanIntegration c s) := by
  unfold execCanIntegration; dsimp only
  with_reducible repeat' first
    | exact Leaves.refl | split | apply leavesOut_next | refine (modCan_leaves _ _ _).step rfl ?_

theorem canCoreReset_leaves (s : State) : Leaves [.fresh, .est, .can, .gtr] s (canCoreReset s) := by
  unfold canCoreReset
  with_reducible repeat' first
    | exact Leaves.refl | (apply Leaves.forEach; intro u a) | refine (canCancel_leaves _ _ _ _).step rfl ?_

theorem canNotFormed_leaves (s : State) : Leaves [.fresh, .est, .can, .gtr] s (canNotFormed s) := by
  unfold canNotFormed
  with_reducible repeat' first
    | exact Leaves.refl | (apply Leaves.forEach; intro u a) | apply Leaves.ite
    | refine (canDrop_leaves _ _ _ _).step rfl ?_

theorem canRestart_leaves (s : State) : Leaves [.fresh, .est, .can, .gtr] s (canRestart s) := by
  unfold canRestart
  with_reducible repeat' first
    | exact Leaves.refl | refine (canCoreReset_leaves _).step rfl ?_ | refine leaves_can rfl ?_

theorem canSettle_leaves (s : State) : Leaves [.fresh, .est, .can, .gtr] s (canSettle s) := by
  unfold canSettle; dsimp only
  with_reducible repeat' first
    | exact Leaves.refl | (apply Leaves.forEach; intro u a) | apply Leaves.ite | split
    | refine leaves_of_next (execCanFrameComplete_leaves _ _ _) (by assumption) rfl ?_
    | refine (takeFresh_leaves _).step rfl ?_

theorem canStop_leaves (s : State) : Leaves [.fresh, .can] s (canStop s) := by
  unfold canStop
  with_reducible repeat' first
    | exact Leaves.refl | (apply Leaves.forEach; intro u a) | split | refine (modCan_leaves _ _ _).step rfl ?_
    | refine leaves_of_snd (by assumption) ?_ | refine (canStarted_leaves _ _).step rfl ?_

theorem canWake_leaves (s : State) : Leaves [.can] s (canWake s) := by
  unfold canWake
  with_reducible repeat' first
    | exact Leaves.refl | (apply Leaves.forEach; intro u a) | refine (modCan_leaves _ _ _).step rfl ?_

theorem canConfigure_leaves (s : State) (recs : List CanRec) : Leaves [.can] s (canConfigure s recs) := by
  unfold canConfigure
  with_reducible repeat' first
    | exact Leaves.refl | refine leaves_can rfl ?_

/-! ## Publish -/

theorem modGoose_leaves (s : State) (k : Nat) (f : GooseRun → GooseRun) :
    Leaves [.hst] s (modGoose s k f) := by
  unfold modGoose
  with_reducible repeat' first
    | exact Leaves.refl | refine leaves_hst rfl ?_

theorem netSend_leaves (s : State) (t : NetTx) : Leaves [.hst] s (netSend s t) := by
  unfold netSend
  with_reducible repeat' first
    | exact Leaves.refl | split | refine leaves_of_snd (by assumption) ?_ | refine (takeTrailer_leaves _).step rfl ?_
    | refine leaves_hst rfl ?_

theorem sendArp_leaves (s : State) (p : NetPort) : Leaves [.hst] s (sendArp s p) := by
  unfold sendArp
  with_reducible repeat' first
    | exact Leaves.refl | apply Leaves.ite | refine (netSend_leaves _ _).step rfl ?_

theorem gooseSend_leaves (s : State) (k : Nat) : Leaves [.hst] s (gooseSend s k) := by
  unfold gooseSend
  with_reducible repeat' first
    | exact Leaves.refl | apply Leaves.ite | refine (modGoose_leaves _ _ _).step rfl ?_
    | refine (netSend_leaves _ _).step rfl ?_

theorem goosePublish_leaves (s : State) (k : Nat) (members : List Int) (first : Nat) :
    Leaves [.fresh, .hst] s (goosePublish s k members first) := by
  unfold goosePublish
  with_reducible repeat' first
    | exact Leaves.refl | split | refine (gooseSend_leaves _ _).step rfl ?_
    | refine (modGoose_leaves _ _ _).step rfl ?_ | refine leaves_fresh rfl ?_

theorem execGooseRepeat_leaves (k : Fin 24) (s : State) : LeavesOut [.hst] s (execGooseRepeat k s) := by
  unfold execGooseRepeat; dsimp only
  with_reducible repeat' first
    | exact Leaves.refl | split | apply leavesOut_next | refine (gooseSend_leaves _ _).step rfl ?_
    | refine (modGoose_leaves _ _ _).step rfl ?_

theorem sendLimits_leaves (s : State) (flags : Nat) (plant : List Nat) (strs : List (List Nat))
    (heartbeatOnly : Bool) : Leaves [.fresh, .est, .hst] s (sendLimits s flags plant strs heartbeatOnly) := by
  unfold sendLimits
  with_reducible repeat' first
    | exact Leaves.refl | (apply Leaves.forEach; intro u a) | refine (goosePublish_leaves _ _ _ _).step rfl ?_
    | refine leaves_est rfl ?_

theorem zeroLimits_leaves (s : State) : Leaves [.fresh, .est, .hst] s (zeroLimits s) := by
  unfold zeroLimits
  with_reducible repeat' first
    | exact Leaves.refl | apply Leaves.ite | refine (sendLimits_leaves _ _ _ _ _).step rfl ?_

theorem handFrames_leaves (s : State) (flags : Nat) (plant : List Nat) (strs : List (List Nat)) :
    Leaves [.can] s (handFrames s flags plant strs) := by
  unfold handFrames
  with_reducible repeat' first
    | exact Leaves.refl | apply Leaves.ite | (apply Leaves.forEach; intro u a)
    | refine (canHand_leaves _ _ _).step rfl ?_

theorem publish_leaves (s : State) (w : LimitsWord) : Leaves [.fresh, .est, .hst, .can] s (publish s w) := by
  unfold publish
  with_reducible repeat' first
    | exact Leaves.refl | apply Leaves.ite | refine (handFrames_leaves _ _ _ _).step rfl ?_
    | refine (sendLimits_leaves _ _ _ _ _).step rfl ?_ | refine leaves_est rfl ?_

theorem slot7_leaves (s : State) : Leaves [.fresh, .est, .hst, .can] s (slot7 s) := by
  unfold slot7
  with_reducible repeat' first
    | exact Leaves.refl | apply Leaves.ite | refine (publish_leaves _ _).step rfl ?_ | refine leaves_hst rfl ?_
    | refine leaves_est rfl ?_

theorem execLimitPublication_leaves (s : State) :
    LeavesOut [.fresh, .bat, .est, .hst, .can] s (execLimitPublication s) := by
  unfold execLimitPublication
  with_reducible repeat' first
    | exact Leaves.refl | split | apply leavesOut_next | refine (slot7_leaves _).step rfl ?_
    | refine (endSlot_leaves _ _).step rfl ?_

theorem releaseGoose_leaves (s : State) : Leaves [.fresh, .hst] s (releaseGoose s) := by
  unfold releaseGoose
  with_reducible repeat' first
    | exact Leaves.refl | (apply Leaves.forEach; intro u a) | refine (goosePublish_leaves _ _ _ _).step rfl ?_
    | refine leaves_hst rfl ?_

theorem gooseSlot_leaves (s : State) : Leaves [.fresh, .hst] s (gooseSlot s) := by
  unfold gooseSlot
  with_reducible repeat' first
    | exact Leaves.refl | apply Leaves.ite | refine (releaseGoose_leaves _).step rfl ?_ | refine leaves_hst rfl ?_

end Sys2Proof.Machine
end

