-- ==== Sys2Proof/Laws/FramesPower.lean ====
section
/-! SUPPORT. What each operation and each command leaves alone: Eaves, the core pair, the feedback channels, power and the loads. -/

namespace Sys2Proof.Machine

/-! ## Eaves -/

theorem turnOn_leaves (s : State) (n : Nat) : Leaves [.eav] s (turnOn s n) := by
  unfold turnOn
  with_reducible repeat' first
    | exact Leaves.refl | refine (modChan_leaves _ _ _).step rfl ?_

theorem turnOff_leaves (s : State) (n : Nat) : Leaves [.fresh, .eav, .gtr] s (turnOff s n) := by
  unfold turnOff
  with_reducible repeat' first
    | exact Leaves.refl | apply Leaves.ite | refine (logEv_leaves _ _ _ _).step rfl ?_
    | refine (modChan_leaves _ _ _).step rfl ?_

theorem driveChan_leaves (s : State) (n : Nat) : Leaves [.fresh, .eav, .gtr] s (driveChan s n) := by
  unfold driveChan
  with_reducible repeat' first
    | exact Leaves.refl | apply Leaves.ite | refine (turnOff_leaves _ _).step rfl ?_
    | refine (turnOn_leaves _ _).step rfl ?_

theorem deferredDrive_leaves (s : State) (n : Nat) : Leaves [.fresh, .eav, .gtr] s (deferredDrive s n) := by
  unfold deferredDrive
  with_reducible repeat' first
    | exact Leaves.refl | apply Leaves.ite | refine (driveChan_leaves _ _).step rfl ?_

theorem applyWord_leaves (s : State) (w : IntentWord) :
    Leaves [.fresh, .spar, .eav, .gtr] s (applyWord s w) := by
  unfold applyWord
  with_reducible repeat' first
    | exact Leaves.refl | (apply Leaves.forEach; intro u a) | refine (driveChan_leaves _ _).step rfl ?_
    | refine (sparGates_leaves _).step rfl ?_ | refine leaves_spar rfl ?_ | refine leaves_eav rfl ?_

theorem takeWord_leaves (s : State) (w : IntentWord) :
    Leaves [.fresh, .spar, .eav, .gtr] s (takeWord s w) := by
  unfold takeWord
  with_reducible repeat' first
    | exact Leaves.refl | apply Leaves.ite | refine (applyWord_leaves _ _).step rfl ?_ | refine leaves_eav rfl ?_

theorem execIntentWordAccept_leaves (link : Option IntentWord) (s : State) :
    LeavesOut [.fresh, .spar, .eav, .gtr] s (execIntentWordAccept link s) := by
  unfold execIntentWordAccept
  with_reducible repeat' first
    | exact Leaves.refl | split | apply leavesOut_next | refine (takeWord_leaves _ _).step rfl ?_
    | refine leaves_eav rfl ?_

theorem startHold_leaves (s : State) : Leaves [.eav] s (startHold s) := by
  unfold startHold
  with_reducible repeat' first
    | exact Leaves.refl | apply Leaves.ite | refine leaves_eav rfl ?_

theorem execIntentGapTimeout_leaves (s : State) : LeavesOut [.eav] s (execIntentGapTimeout s) := by
  unfold execIntentGapTimeout
  with_reducible repeat' first
    | exact Leaves.refl | apply leavesOut_next | refine (startHold_leaves _).step rfl ?_

theorem execCoreResetSignal_leaves (s : State) : LeavesOut [.eav] s (execCoreResetSignal s) := by
  unfold execCoreResetSignal
  with_reducible repeat' first
    | exact Leaves.refl | apply leavesOut_next | refine (startHold_leaves _).step rfl ?_

theorem channelsDown_leaves (s : State) : Leaves [.fresh, .eav, .gtr] s (channelsDown s) := by
  unfold channelsDown
  with_reducible repeat' first
    | exact Leaves.refl | (apply Leaves.forEach; intro u a) | refine (driveChan_leaves _ _).step rfl ?_
    | refine leaves_eav rfl ?_

theorem execHoldWindowExpiry_leaves (s : State) :
    LeavesOut [.fresh, .rdg, .spar, .eav, .gtr] s (execHoldWindowExpiry s) := by
  unfold execHoldWindowExpiry
  with_reducible repeat' first
    | exact Leaves.refl | split | apply leavesOut_next | refine (channelsDown_leaves _).step rfl ?_
    | refine (sparGates_leaves _).step rfl ?_ | refine leaves_rdg_eav rfl ?_ | refine leaves_spar rfl ?_

theorem execPullInEnd_leaves (ch : Fin 24) (s : State) : LeavesOut [.eav] s (execPullInEnd ch s) := by
  unfold execPullInEnd
  with_reducible repeat' first
    | exact Leaves.refl | split | apply leavesOut_next | refine (modChan_leaves _ _ _).step rfl ?_

theorem attemptFailed_leaves (s : State) (n : Nat) (code : Nat) :
    Leaves [.fresh, .eav, .gtr] s (attemptFailed s n code) := by
  unfold attemptFailed
  with_reducible repeat' first
    | exact Leaves.refl | apply Leaves.ite | refine (logEv_leaves _ _ _ _).step rfl ?_
    | refine (modChan_leaves _ _ _).step rfl ?_ | refine (turnOff_leaves _ _).step rfl ?_

theorem execChannelShort_leaves (ch : Fin 24) (s : State) :
    LeavesOut [.fresh, .eav, .gtr] s (execChannelShort ch s) := by
  unfold execChannelShort; dsimp only
  with_reducible repeat' first
    | exact Leaves.refl | split | apply leavesOut_next | refine (attemptFailed_leaves _ _ _).step rfl ?_
    | refine (modChan_leaves _ _ _).step rfl ?_

theorem execChannelOverTemperature_leaves (ch : Fin 24) (s : State) :
    LeavesOut [.fresh, .eav, .gtr] s (execChannelOverTemperature ch s) := by
  unfold execChannelOverTemperature; dsimp only
  with_reducible repeat' first
    | exact Leaves.refl | split | apply leavesOut_next | apply Leaves.ite
    | refine (attemptFailed_leaves _ _ _).step rfl ?_ | refine (modChan_leaves _ _ _).step rfl ?_
    | refine (logEv_leaves _ _ _ _).step rfl ?_

theorem execThermalLatchRelease_leaves (ch : Fin 24) (s : State) :
    LeavesOut [.fresh, .eav, .gtr] s (execThermalLatchRelease ch s) := by
  unfold execThermalLatchRelease; dsimp only
  with_reducible repeat' first
    | exact Leaves.refl | split | apply leavesOut_next | refine (deferredDrive_leaves _ _).step rfl ?_
    | refine (logEv_leaves _ _ _ _).step rfl ?_ | refine (modChan_leaves _ _ _).step rfl ?_

theorem execOpenLoadOnChange_leaves (ch : Fin 24) (found : Bool) (s : State) :
    LeavesOut [.fresh, .eav, .gtr] s (execOpenLoadOnChange ch found s) := by
  unfold execOpenLoadOnChange; dsimp only
  with_reducible repeat' first
    | exact Leaves.refl | split | apply leavesOut_next | refine (logEv_leaves _ _ _ _).step rfl ?_
    | refine (modChan_leaves _ _ _).step rfl ?_

theorem offTest_leaves (aboveTest : BitVec 24) (nearSupply : BitVec 24) (s : State) (n : Nat) :
    Leaves [.fresh, .eav, .gtr] s (offTest aboveTest nearSupply s n) := by
  unfold offTest
  with_reducible repeat' first
    | exact Leaves.refl | apply Leaves.ite | split | refine (modChan_leaves _ _ _).step rfl ?_
    | refine (logEv_leaves _ _ _ _).step rfl ?_

theorem execOffStateTest_leaves (aboveTest : BitVec 24) (nearSupply : BitVec 24) (s : State) :
    LeavesOut [.fresh, .eav, .gtr] s (execOffStateTest aboveTest nearSupply s) := by
  unfold execOffStateTest
  with_reducible repeat' first
    | exact Leaves.refl | split | apply leavesOut_next | (apply Leaves.forEach; intro u a)
    | refine (offTest_leaves _ _ _ _).step rfl ?_

theorem execRetryDue_leaves (ch : Fin 24) (s : State) :
    LeavesOut [.fresh, .eav, .gtr] s (execRetryDue ch s) := by
  unfold execRetryDue; dsimp only
  with_reducible repeat' first
    | exact Leaves.refl | split | apply leavesOut_next | refine (driveChan_leaves _ _).step rfl ?_
    | refine (modChan_leaves _ _ _).step rfl ?_

theorem execAttemptProven_leaves (ch : Fin 24) (s : State) :
    LeavesOut [.fresh, .eav, .gtr] s (execAttemptProven ch s) := by
  unfold execAttemptProven; dsimp only
  with_reducible repeat' first
    | exact Leaves.refl | split | apply leavesOut_next | apply Leaves.ite | refine (logEv_leaves _ _ _ _).step rfl ?_
    | refine (modChan_leaves _ _ _).step rfl ?_

theorem execClampEvent_leaves (ch : Fin 24) (s : State) :
    LeavesOut [.fresh, .eav, .gtr] s (execClampEvent ch s) := by
  unfold execClampEvent
  with_reducible repeat' first
    | exact Leaves.refl | split | apply leavesOut_next | apply Leaves.ite | refine (logEv_leaves _ _ _ _).step rfl ?_
    | refine (modChan_leaves _ _ _).step rfl ?_ | refine leaves_fresh rfl ?_

theorem execVsupLow_leaves (s : State) : LeavesOut [.fresh, .eav, .gtr] s (execVsupLow s) := by
  unfold execVsupLow
  with_reducible repeat' first
    | exact Leaves.refl | split | apply leavesOut_next | refine (logEv_leaves _ _ _ _).step rfl ?_
    | (apply Leaves.forEach; intro u a) | apply Leaves.ite | refine (turnOff_leaves _ _).step rfl ?_
    | refine leaves_eav rfl ?_

theorem execVsupRestored_leaves (s : State) :
    LeavesOut [.fresh, .spar, .eav, .gtr] s (execVsupRestored s) := by
  unfold execVsupRestored; dsimp only
  with_reducible repeat' first
    | exact Leaves.refl | split | apply leavesOut_next | refine (sparGates_leaves _).step rfl ?_
    | refine (logEv_leaves _ _ _ _).step rfl ?_ | (apply Leaves.forEach; intro u a)
    | refine (driveChan_leaves _ _).step rfl ?_ | refine leaves_spar rfl ?_ | refine leaves_eav rfl ?_

theorem eavAuxcmd_leaves (s : State) (who : Who) (m : Byte) : LeavesOpt [.eav] s (eavAuxcmd s who m) := by
  unfold eavAuxcmd
  with_reducible repeat' first
    | exact Leaves.refl | split | apply leavesOpt_some | apply leavesOpt_none | refine leaves_eav rfl ?_

theorem eavAuxduty_leaves (s : State) (who : Who) (hi : Bool) (v : Word) :
    LeavesOpt [.eav] s (eavAuxduty s who hi v) := by
  unfold eavAuxduty; dsimp only
  with_reducible repeat' first
    | exact Leaves.refl | split | apply leavesOpt_some | apply leavesOpt_none | refine leaves_eav rfl ?_

theorem clearLatch_leaves (s : State) (n : Nat) : Leaves [.fresh, .eav, .gtr] s (clearLatch s n) := by
  unfold clearLatch
  with_reducible repeat' first
    | exact Leaves.refl | apply Leaves.ite | refine (logEv_leaves _ _ _ _).step rfl ?_
    | refine (modChan_leaves _ _ _).step rfl ?_

theorem eavLatchClear_leaves (s : State) (who : Who) (m : BitVec 24) :
    LeavesOpt [.fresh, .eav, .gtr] s (eavLatchClear s who m) := by
  unfold eavLatchClear
  with_reducible repeat' first
    | exact Leaves.refl | split | apply leavesOpt_some | (apply Leaves.forEach; intro u a)
    | refine (clearLatch_leaves _ _).step rfl ?_ | apply leavesOpt_none

/-! ## CorePair -/

theorem fixedPart_leaves (s : State) (slot : Nat) : Leaves [.fresh] s (fixedPart s slot).2 := by
  unfold fixedPart
  with_reducible repeat' first
    | exact Leaves.refl | split | dsimp only | refine leaves_of_snd (by assumption) ?_
    | refine (takeFresh_leaves _).step rfl ?_

theorem freeKind_leaves (s : State) : Leaves [.fresh] s (freeKind s).2 := by
  unfold freeKind
  with_reducible repeat' first
    | exact Leaves.refl | split | dsimp only | refine leaves_of_snd (by assumption) ?_
    | refine (takeFresh_leaves _).step rfl ?_

theorem clearCores_leaves (s : State) : Leaves [.cpr, .priv] s (clearCores s) := by
  exact leaves_cpr_priv rfl (fun _ => ⟨rfl, rfl⟩) .refl

theorem rewindCores_leaves (s : State) (p : Nat) : Leaves [.fresh, .cpr, .priv] s (rewindCores s p) := by
  unfold rewindCores
  exact leaves_cpr_priv rfl (fun w => ⟨rewindMem_wf w.2.2.2.1, rewindMem_wf w.2.2.2.2⟩) ((takeFresh_leaves _).step rfl .refl)

theorem mismatchStandstill_leaves (s : State) :
    Leaves [.fresh, .led, .rdg, .cpr, .gtr] s (mismatchStandstill s) := by
  unfold mismatchStandstill
  with_reducible repeat' first
    | exact Leaves.refl | (apply Leaves.forEach; intro u a) | apply Leaves.ite
    | refine (modStr_leaves _ _ _).step rfl ?_ | refine (enterStr_leaves _ _ _ _ _ _ _).step rfl ?_

theorem splitLost_leaves (s : State) : Leaves [.cpr] s (splitLost s) := by
  unfold splitLost
  with_reducible repeat' first
    | exact Leaves.refl | refine leaves_cpr rfl ?_

theorem restorePart_leaves (s : State) (p : Nat) :
    Leaves [.est, .led, .pgr, .hst, .gtr] s (restorePart s p) := by
  unfold restorePart
  with_reducible repeat' first
    | exact Leaves.refl | apply Leaves.ite | (apply Leaves.forEach; intro u a)
    | refine (modSess_leaves _ _ _).step rfl ?_ | refine (dropEvents_leaves _).step rfl ?_
    | refine leaves_est_led_pgr rfl ?_ | refine leaves_hst_gtr rfl ?_

theorem leaveWork_leaves (s : State) : Leaves [.bat] s (leaveWork s) := by
  unfold leaveWork
  with_reducible repeat' first
    | exact Leaves.refl | refine leaves_bat rfl ?_

theorem discardPart_leaves (s : State) (p : Nat) :
    Leaves [.img, .est, .led, .pgr, .hst, .gtr] s (discardPart s p) := by
  unfold discardPart
  with_reducible repeat' first
    | exact Leaves.refl | apply Leaves.ite | refine (discardNor_leaves _).step rfl ?_
    | refine (dropReplies_leaves _ _).step rfl ?_ | refine (restorePart_leaves _ _).step rfl ?_

theorem freshSigs_leaves (s : State) : Leaves [.cpr] s (freshSigs s) := by
  unfold freshSigs
  with_reducible repeat' first
    | exact Leaves.refl | refine leaves_cpr rfl ?_

theorem resetPort_leaves (s : State) (p : Nat) : Leaves [.owl] s (resetPort s p) := by
  unfold resetPort
  with_reducible repeat' first
    | exact Leaves.refl | refine (cutTest_leaves _ _).step rfl ?_ | refine (modPort_leaves _ _ _).step rfl ?_ | split
    | refine (putCmd_leaves _ _ _).step rfl ?_

theorem assertReset_leaves (s : State) :
    Leaves [.fresh, .img, .bat, .owl, .est, .led, .pgr, .rdg, .cpr, .priv, .eav, .hst, .can, .gtr] s (assertReset s) := by
  unfold assertReset
  with_reducible repeat' first
    | exact Leaves.refl | refine (startHold_leaves _).step rfl ?_ | refine (clearCores_leaves _).step rfl ?_
    | refine (freshSigs_leaves _).step rfl ?_ | refine (leaveWork_leaves _).step rfl ?_
    | refine (splitLost_leaves _).step rfl ?_ | (apply Leaves.forEach; intro u a)
    | refine (resetPort_leaves _ _).step rfl ?_ | refine (modStr_leaves _ _ _).step rfl ?_
    | refine (discardNor_leaves _).step rfl ?_ | refine (restorePart_leaves _ _).step rfl ?_ | apply Leaves.ite
    | refine (canNotFormed_leaves _).step rfl ?_ | refine (canCoreReset_leaves _).step rfl ?_
    | refine (hostsCoreReset_leaves _).step rfl ?_ | refine leaves_bat_owl_cpr_eav_hst_gtr rfl ?_

theorem protectiveReaction_leaves (s : State) :
    Leaves [.fresh, .img, .bat, .owl, .est, .led, .pgr, .rdg, .cpr, .priv, .eav, .hst, .can, .gtr] s (protectiveReaction
      s) := by
  unfold protectiveReaction
  with_reducible repeat' first
    | exact Leaves.refl | refine (assertReset_leaves _).step rfl ?_ | refine (zeroLimits_leaves _).step rfl ?_
    | refine (releaseHeld_leaves _).step rfl ?_ | refine (mismatchStandstill_leaves _).step rfl ?_
    | refine leaves_cpr_gtr rfl ?_ | refine leaves_cpr rfl ?_

theorem protectiveMismatch_leaves (s : State) (part : Nat) (kind : Nat) :
    Leaves [.fresh, .img, .bat, .owl, .est, .led, .pgr, .rdg, .cpr, .priv, .eav, .hst, .can, .gtr] s (protectiveMismatch s
      part kind) := by
  unfold protectiveMismatch
  with_reducible repeat' first
    | exact Leaves.refl | refine (protectiveReaction_leaves _).step rfl ?_ | refine (logEv_leaves _ _ _ _).step rfl ?_
    | refine leaves_cpr rfl ?_

theorem restartPart_leaves (s : State) (p : Nat) :
    Leaves [.fresh, .img, .bat, .est, .led, .pgr, .cpr, .priv, .hst, .gtr] s (restartPart s p) := by
  unfold restartPart
  with_reducible repeat' first
    | exact Leaves.refl | refine (freshSigs_leaves _).step rfl ?_ | refine (leaveWork_leaves _).step rfl ?_
    | refine (rewindCores_leaves _ _).step rfl ?_ | (apply Leaves.forEach; intro u a) | split | apply Leaves.ite
    | refine (logEv_leaves _ _ _ _).step rfl ?_ | refine (dropHeld_leaves _ _).step rfl ?_
    | refine (discardPart_leaves _ _).step rfl ?_ | refine leaves_bat_cpr rfl ?_ | refine leaves_bat rfl ?_

theorem restartableMismatch_leaves (s : State) (part : Nat) (kind : Nat) :
    Leaves [.fresh, .img, .bat, .owl, .est, .led, .pgr, .rdg, .cpr, .priv, .eav, .hst, .can, .gtr] s (restartableMismatch
      s part kind) := by
  unfold restartableMismatch
  with_reducible repeat' first
    | exact Leaves.refl | apply Leaves.ite | refine (protectiveMismatch_leaves _ _ _).step rfl ?_
    | refine (restartPart_leaves _ _).step rfl ?_ | refine (logEv_leaves _ _ _ _).step rfl ?_
    | refine leaves_cpr rfl ?_

theorem recordShadow_leaves (s : State) (part : Nat) (kind : Nat) :
    Leaves [.cpr] s (recordShadow s part kind) := by
  unfold recordShadow
  with_reducible repeat' first
    | exact Leaves.refl | refine leaves_cpr rfl ?_

theorem mismatch_leaves (s : State) (part : Nat) (kind : Nat) :
    Leaves [.fresh, .img, .bat, .owl, .est, .led, .pgr, .rdg, .cpr, .priv, .eav, .hst, .can, .gtr] s (mismatch s part
      kind) := by
  unfold mismatch
  with_reducible repeat' first
    | exact Leaves.refl | apply Leaves.ite | refine (recordShadow_leaves _ _ _).step rfl ?_
    | refine (protectiveMismatch_leaves _ _ _).step rfl ?_ | refine (restartableMismatch_leaves _ _ _).step rfl ?_

theorem releaseAll_leaves (s : State) (closing : Bool) :
    Leaves [.fresh, .nor, .psram, .img, .led, .pgr, .hst, .gtr] s (releaseAll s closing) := by
  unfold releaseAll
  with_reducible repeat' first
    | exact Leaves.refl | apply Leaves.ite | refine (releaseNor_leaves _).step rfl ?_
    | refine (releaseFrames_leaves _).step rfl ?_ | refine (releaseCommits_leaves _).step rfl ?_
    | refine (releaseGoose_leaves _).step rfl ?_ | refine (releaseMsgs_leaves _).step rfl ?_
    | refine (releaseHeld_leaves _).step rfl ?_

theorem commitJournal_leaves (s : State) (closing : Bool) :
    Leaves [.bat, .cpr] s (commitJournal s closing) := by
  unfold commitJournal
  with_reducible repeat' first
    | exact Leaves.refl | refine leaves_bat_cpr rfl ?_

theorem judge_leaves (s : State) (found : List (Nat × Nat)) (closing : Bool) (full : Bool) :
    Leaves [.fresh, .nor, .psram, .img, .bat, .owl, .est, .led, .pgr, .rdg, .cpr, .priv, .eav, .hst, .can, .gtr] s (judge
      s found closing full) := by
  unfold judge
  with_reducible repeat' first
    | exact Leaves.refl | split | refine (commitJournal_leaves _ _).step rfl ?_
    | refine (releaseAll_leaves _ _).step rfl ?_ | refine (protectiveMismatch_leaves _ _ _).step rfl ?_
    | apply Leaves.ite | (apply Leaves.forEach; intro u a) | refine (mismatch_leaves _ _ _).step rfl ?_
    | refine leaves_cpr rfl ?_

theorem replayEdits_leaves (s : State) : Leaves [.cpr, .priv] s (replayEdits s) := by
  unfold replayEdits
  exact leaves_cpr_priv rfl (fun w => ⟨w.2.2.2.1, editCores_wf _ w.2.2.2.2⟩) .refl

theorem traceCores_leaves (s : State) (lead : CoreTrace) (check : CoreTrace) (running : Fin 8) :
    Leaves [.cpr, .priv] s (traceCores s lead check running) := by
  have key : ∀ (c : Cpr) (x : Priv), (memSafe s → Mem.wf ramBlank x.lead = true ∧ Mem.wf ramBlank x.check = true) →
      Leaves [.cpr, .priv] s { s with cpr := c, priv := x } := fun _ _ h => leaves_cpr_priv rfl h .refl
  have hl : memSafe s → Mem.wf ramBlank (leadRun s lead).2 = true := fun w => leadRun_wf w.2.2.2.1
  have hk : memSafe s → Mem.wf ramBlank (checkRun s check).2 = true := fun w => checkRun_wf w.2.2.2.2
  unfold traceCores
  dsimp only
  revert hl hk
  generalize leadRun s lead = l
  generalize checkRun s check = k
  intro hl hk
  exact key _ _ fun w => ⟨hl w, hk w⟩

theorem runCores_leaves (s : State) (lead : CoreTrace) (check : CoreTrace) (running : Fin 8) :
    Leaves [.cpr, .priv] s (runCores s lead check running).1 := by
  unfold runCores
  exact (traceCores_leaves _ _ _ _).step rfl ((replayEdits_leaves _).step rfl .refl)

theorem barrier_leaves (s : State) (o : CheckObs) : Leaves [.cpr, .priv] s (barrier s o).1 := by
  unfold barrier
  with_reducible repeat' first
    | exact Leaves.refl | split | dsimp only | refine leaves_of_fst (by assumption) ?_
    | refine (runCores_leaves _ _ _ _).step rfl ?_

theorem checkpoint_leaves (s : State) (o : CheckObs) (closing : Bool) :
    Leaves [.fresh, .nor, .psram, .img, .bat, .owl, .est, .led, .pgr, .rdg, .cpr, .priv, .eav, .hst, .can, .gtr] s
      (checkpoint s o closing) := by
  unfold checkpoint; dsimp only
  with_reducible repeat' first
    | exact Leaves.refl | apply Leaves.ite | split | refine (judge_leaves _ _ _ _).step rfl ?_
    | refine (barrier_leaves _ _).step rfl ?_ | refine (releaseAll_leaves _ _).step rfl ?_ | refine leaves_cpr rfl ?_

theorem releasePort_leaves (s : State) (p : Nat) : Leaves [.owl] s (releasePort s p) := by
  unfold releasePort
  with_reducible repeat' first
    | exact Leaves.refl | apply Leaves.ite | refine (putCmd_leaves _ _ _).step rfl ?_
    | refine (modPort_leaves _ _ _).step rfl ?_ | split

theorem releaseGate_leaves (s : State) (p : Nat) :
    Leaves [.fresh, .nor, .psram, .img, .owl, .est, .led, .pgr, .eav, .hst, .can, .cdc, .gtr] s (releaseGate s p) := by
  unfold releaseGate
  with_reducible repeat' first
    | exact Leaves.refl | split | refine (releasePort_leaves _ _).step rfl ?_
    | refine (releaseEntry_leaves _ _).step rfl ?_ | refine (crossWord_leaves _ _).step rfl ?_
    | refine (publish_leaves _ _).step rfl ?_ | refine (releaseNor_leaves _).step rfl ?_
    | refine (releaseReplies_leaves _).step rfl ?_ | refine (releaseGoose_leaves _).step rfl ?_
    | refine (releaseEvents_leaves _).step rfl ?_ | refine (releaseFrames_leaves _).step rfl ?_
    | refine (releaseCommits_leaves _).step rfl ?_ | refine leaves_hst rfl ?_ | refine leaves_eav rfl ?_

theorem gateMismatch_leaves (s : State) (part : Fin 8) (kind : Nat) :
    Leaves [.fresh, .img, .bat, .owl, .est, .led, .pgr, .rdg, .cpr, .priv, .eav, .hst, .can, .gtr] s (gateMismatch s part
      kind) := by
  unfold gateMismatch
  with_reducible repeat' first
    | exact Leaves.refl | apply Leaves.ite | split | refine (protectiveMismatch_leaves _ _ _).step rfl ?_
    | refine (recordShadow_leaves _ _ _).step rfl ?_

theorem execOutputGateCompare_leaves (part : Fin 8) (lead : Word) (check : Word) (s : State) :
    LeavesOut [.fresh, .nor, .psram, .img, .bat, .owl, .est, .led, .pgr, .rdg, .cpr, .priv, .eav, .hst, .can, .cdc, .gtr]
      s (execOutputGateCompare part lead check s) := by
  unfold execOutputGateCompare
  with_reducible repeat' first
    | exact Leaves.refl | split | apply leavesOut_next | refine (gateMismatch_leaves _ _ _).step rfl ?_
    | apply Leaves.ite | refine (releaseGate_leaves _ _).step rfl ?_

theorem execOutputGateTimeout_leaves (part : Fin 8) (s : State) :
    LeavesOut [.fresh, .img, .bat, .owl, .est, .led, .pgr, .rdg, .cpr, .priv, .eav, .hst, .can, .gtr] s
      (execOutputGateTimeout part s) := by
  unfold execOutputGateTimeout
  with_reducible repeat' first
    | exact Leaves.refl | apply leavesOut_next | refine (gateMismatch_leaves _ _ _).step rfl ?_

theorem noteDisagreement_leaves (s : State) (input : AgreeInput) (rows : List Nat) :
    Leaves [.fresh, .cpr, .gtr] s (noteDisagreement s input rows) := by
  unfold noteDisagreement
  with_reducible repeat' first
    | exact Leaves.refl | (apply Leaves.forEach; intro u a) | apply Leaves.ite
    | refine (logEv_leaves _ _ _ _).step rfl ?_ | refine leaves_cpr rfl ?_

theorem execAgreementRead_leaves (input : AgreeInput) (lead : Word) (check : Word) (s : State) :
    LeavesOut [.fresh, .cpr, .gtr] s (execAgreementRead input lead check s) := by
  unfold execAgreementRead
  with_reducible repeat' first
    | exact Leaves.refl | split | apply leavesOut_next | apply Leaves.ite
    | refine (noteDisagreement_leaves _ _ _).step rfl ?_ | refine leaves_cpr rfl ?_

theorem execWatchdog_leaves (cause : WatchdogCause) (s : State) :
    LeavesOut [.fresh, .img, .bat, .owl, .est, .led, .pgr, .rdg, .cpr, .priv, .eav, .hst, .can, .gtr] s (execWatchdog
      cause s) := by
  unfold execWatchdog
  with_reducible repeat' first
    | exact Leaves.refl | split | apply leavesOut_next | refine (protectiveReaction_leaves _).step rfl ?_
    | refine (logEv_leaves _ _ _ _).step rfl ?_ | refine leaves_cpr rfl ?_

theorem failSelfTest_leaves (s : State) (failing : Fin 9) (again : Bool) :
    Leaves [.fresh, .cpr, .gtr] s (failSelfTest s failing again) := by
  unfold failSelfTest
  with_reducible repeat' first
    | exact Leaves.refl | refine (logEv_leaves _ _ _ _).step rfl ?_ | refine leaves_cpr rfl ?_

theorem execCorePairRestartComplete_leaves (test : SelfTest) (s : State) :
    LeavesOut [.fresh, .cpr, .priv, .gtr] s (execCorePairRestartComplete test s) := by
  unfold execCorePairRestartComplete
  with_reducible repeat' first
    | exact Leaves.refl | split | apply leavesOut_next | refine (clearCores_leaves _).step rfl ?_
    | refine (failSelfTest_leaves _ _ _).step rfl ?_ | refine leaves_cpr rfl ?_

theorem splitAnswer_leaves (s : State) (code : Nat) : Leaves [.cpr] s (splitAnswer s code) := by
  unfold splitAnswer
  with_reducible repeat' first
    | exact Leaves.refl | refine leaves_cpr rfl ?_

theorem orderSplit_leaves (s : State) (who : Who) (job : Nat) (duration : Nat) :
    Leaves [.cpr] s (orderSplit s who job duration).2 := by
  unfold orderSplit
  with_reducible repeat' first
    | exact Leaves.refl | split | dsimp only | refine (splitAnswer_leaves _ _).step rfl ?_ | refine leaves_cpr rfl ?_

theorem orderRejoin_leaves (s : State) (who : Who) : Leaves [.cpr] s (orderRejoin s who).2 := by
  unfold orderRejoin
  with_reducible repeat' first
    | exact Leaves.refl | split | dsimp only | refine (splitAnswer_leaves _ _).step rfl ?_ | refine leaves_cpr rfl ?_

theorem execSplitDurationExpiry_leaves (s : State) : LeavesOut [.cpr] s (execSplitDurationExpiry s) := by
  unfold execSplitDurationExpiry
  with_reducible repeat' first
    | exact Leaves.refl | split | apply leavesOut_next | refine leaves_cpr rfl ?_

theorem beginCopy_leaves (s : State) : Leaves [.cpr] s (beginCopy s) := by
  unfold beginCopy
  with_reducible repeat' first
    | exact Leaves.refl | refine leaves_cpr rfl ?_

theorem splitEdge_leaves (s : State) :
    Leaves [.fresh, .img, .bat, .owl, .est, .led, .pgr, .rdg, .cpr, .priv, .eav, .hst, .can, .gtr] s (splitEdge s) := by
  unfold splitEdge
  dsimp only
  split
  · exact .refl
  · split
    · split
      · exact (logEv_leaves _ _ _ _).step rfl (leaves_cpr rfl .refl)
      · exact .refl
    · exact .ite ((beginCopy_leaves _).step rfl .refl) (leaves_cpr rfl .refl)
    · exact leaves_cpr_priv rfl (fun w => ⟨w.2.2.2.1, w.2.2.2.1⟩) .refl
    · refine .ite ((logEv_leaves _ _ _ _).step rfl (leaves_cpr rfl .refl)) (.ite ?_ ?_)
      · exact (protectiveMismatch_leaves _ _ _).step rfl ((logEv_leaves _ _ _ _).step rfl ((splitAnswer_leaves _ _).step rfl .refl))
      · exact leaves_cpr rfl ((logEv_leaves _ _ _ _).step rfl ((splitAnswer_leaves _ _).step rfl .refl))

theorem jobRequests_leaves (s : State) : Leaves [.pgr, .cpr] s (jobRequests s) := by
  unfold jobRequests
  with_reducible repeat' first
    | exact Leaves.refl | apply Leaves.ite | (apply Leaves.forEach; intro u a) | split
    | refine leaves_of_fst (by assumption) ?_ | refine (requestPage_leaves _ _ _).step rfl ?_
    | refine leaves_cpr rfl ?_

theorem execSplitJobComplete_leaves (ok : Bool) (s : State) :
    LeavesOut [.cpr] s (execSplitJobComplete ok s) := by
  unfold execSplitJobComplete
  with_reducible repeat' first
    | exact Leaves.refl | split | apply leavesOut_next | refine leaves_cpr rfl ?_

/-! ## Feedback -/

theorem fbkLog_leaves (s : State) (n : Nat) (code : Nat) (detail : Nat) :
    Leaves [.fresh, .fbk, .gtr] s (fbkLog s n code detail) := by
  unfold fbkLog
  with_reducible repeat' first
    | exact Leaves.refl | apply Leaves.ite | refine (logEv_leaves _ _ _ _).step rfl ?_
    | refine (modFbk_leaves _ _ _).step rfl ?_

theorem fbkError_leaves (s : State) (n : Nat) (code : Nat) :
    Leaves [.fresh, .fbk, .gtr] s (fbkError s n code) := by
  unfold fbkError
  with_reducible repeat' first
    | exact Leaves.refl | refine (fbkLog_leaves _ _ _ _).step rfl ?_ | refine (modFbk_leaves _ _ _).step rfl ?_

theorem changeDir_leaves (s : State) (n : Nat) (d : Dir) :
    Leaves [.fresh, .fbk, .gtr] s (changeDir s n d) := by
  unfold changeDir
  with_reducible repeat' first
    | exact Leaves.refl | refine (fbkLog_leaves _ _ _ _).step rfl ?_ | refine (modFbk_leaves _ _ _).step rfl ?_

theorem countDir_leaves (s : State) (n : Nat) (d : Dir) : Leaves [.fresh, .fbk, .gtr] s (countDir s n d) := by
  unfold countDir
  with_reducible repeat' first
    | exact Leaves.refl | apply Leaves.ite | refine (modFbk_leaves _ _ _).step rfl ?_
    | refine (changeDir_leaves _ _ _).step rfl ?_

theorem hallChange_leaves (s : State) (n : Nat) (new : Nat) :
    Leaves [.fresh, .fbk, .gtr] s (hallChange s n new) := by
  unfold hallChange; dsimp only
  with_reducible repeat' first
    | exact Leaves.refl | apply Leaves.ite | refine (fbkError_leaves _ _ _).step rfl ?_
    | refine (modFbk_leaves _ _ _).step rfl ?_ | split | refine (countDir_leaves _ _ _).step rfl ?_

theorem quadChange_leaves (s : State) (n : Nat) (old : Nat) (new : Nat) :
    Leaves [.fresh, .fbk, .gtr] s (quadChange s n old new) := by
  unfold quadChange
  with_reducible repeat' first
    | exact Leaves.refl | apply Leaves.ite | refine (countDir_leaves _ _ _).step rfl ?_
    | refine (fbkError_leaves _ _ _).step rfl ?_

theorem indexEdge_leaves (s : State) (n : Nat) : Leaves [.fresh, .fbk, .gtr] s (indexEdge s n) := by
  unfold indexEdge
  with_reducible repeat' first
    | exact Leaves.refl | apply Leaves.ite | refine (modFbk_leaves _ _ _).step rfl ?_
    | refine (fbkLog_leaves _ _ _ _).step rfl ?_

theorem pulseEdge_leaves (s : State) (n : Nat) : Leaves [.fbk] s (pulseEdge s n) := by
  unfold pulseEdge
  with_reducible repeat' first
    | exact Leaves.refl | refine (modFbk_leaves _ _ _).step rfl ?_

theorem execFeedbackLineChange_leaves (ch : Fin 4) (ls : LineSample) (s : State) :
    LeavesOut [.fresh, .lands, .fbk, .gtr] s (execFeedbackLineChange ch ls s) := by
  unfold execFeedbackLineChange; dsimp only
  with_reducible repeat' first
    | exact Leaves.refl | split | apply leavesOut_next | apply Leaves.ite | refine (modFbk_leaves _ _ _).step rfl ?_
    | refine (hallChange_leaves _ _ _).step rfl ?_ | refine (indexEdge_leaves _ _).step rfl ?_
    | refine (quadChange_leaves _ _ _ _).step rfl ?_ | refine (pulseEdge_leaves _ _).step rfl ?_
    | refine leaves_lands rfl ?_

theorem execFeedbackStandstill_leaves (ch : Fin 4) (s : State) :
    LeavesOut [.fresh, .fbk, .gtr] s (execFeedbackStandstill ch s) := by
  unfold execFeedbackStandstill; dsimp only
  with_reducible repeat' first
    | exact Leaves.refl | split | apply leavesOut_next | refine (fbkLog_leaves _ _ _ _).step rfl ?_
    | refine (modFbk_leaves _ _ _).step rfl ?_

theorem fbkWake_leaves (s : State) : Leaves [.fbk] s (fbkWake s) := by
  unfold fbkWake
  with_reducible repeat' first
    | exact Leaves.refl | (apply Leaves.forEach; intro u a) | split | refine (modFbk_leaves _ _ _).step rfl ?_

theorem fbkConfigure_leaves (s : State) (recs : List FeedbackRec) : Leaves [.fbk] s (fbkConfigure s recs) := by
  unfold fbkConfigure
  with_reducible repeat' first
    | exact Leaves.refl | refine leaves_fbk rfl ?_

/-! ## Power -/

theorem modSensor_leaves (s : State) (n : Nat) (f : Sensor → Sensor) : Leaves [.pwr] s (modSensor s n f) := by
  unfold modSensor
  with_reducible repeat' first
    | exact Leaves.refl | refine leaves_pwr rfl ?_

theorem readSensor_leaves (s : State) (n : Nat) (r : Option Int) :
    Leaves [.fresh, .pwr, .gtr] s (readSensor s n r) := by
  unfold readSensor
  with_reducible repeat' first
    | exact Leaves.refl | split | apply Leaves.ite | refine (modSensor_leaves _ _ _).step rfl ?_
    | refine (logEv_leaves _ _ _ _).step rfl ?_

theorem enterLevel_leaves (s : State) (l : Nat) :
    Leaves [.fresh, .est, .led, .cpr, .pwr, .gtr] s (enterLevel s l) := by
  unfold enterLevel
  with_reducible repeat' first
    | exact Leaves.refl | apply Leaves.ite | refine (logEv_leaves _ _ _ _).step rfl ?_
    | refine (beginStop_leaves _).step rfl ?_ | refine leaves_est_pwr rfl ?_ | refine leaves_pwr rfl ?_

theorem leaveLevel_leaves (s : State) (l : Nat) : Leaves [.fresh, .pwr, .gtr] s (leaveLevel s l) := by
  unfold leaveLevel
  with_reducible repeat' first
    | exact Leaves.refl | refine (logEv_leaves _ _ _ _).step rfl ?_ | refine leaves_pwr rfl ?_

theorem judgeLevel_leaves (s : State) : Leaves [.fresh, .est, .led, .cpr, .pwr, .gtr] s (judgeLevel s) := by
  unfold judgeLevel
  with_reducible repeat' first
    | exact Leaves.refl | apply Leaves.ite | (apply Leaves.forEach; intro u a)
    | refine (enterLevel_leaves _ _).step rfl ?_ | refine (leaveLevel_leaves _ _).step rfl ?_

theorem agreedReading_leaves (s : State) (n : Fin 6) (a : AdcSample) :
    Leaves [.fresh, .cpr, .gtr] s (agreedReading s n a).1 := by
  unfold agreedReading
  with_reducible repeat' first
    | exact Leaves.refl | split | dsimp only | apply Leaves.ite | refine (noteDisagreement_leaves _ _ _).step rfl ?_
    | refine leaves_cpr rfl ?_

theorem housekeeping_leaves (s : State) (a : AdcSample) :
    Leaves [.fresh, .est, .led, .cpr, .pwr, .gtr] s (housekeeping s a) := by
  unfold housekeeping
  with_reducible repeat' first
    | exact Leaves.refl | apply Leaves.ite | split | refine (judgeLevel_leaves _).step rfl ?_
    | refine (readSensor_leaves _ _ _).step rfl ?_ | refine leaves_of_fst (by assumption) ?_
    | refine (agreedReading_leaves _ _ _).step rfl ?_ | refine leaves_pwr rfl ?_

theorem netReset_leaves (s : State) : Leaves [.hst] s (netReset s) := by
  unfold netReset
  with_reducible repeat' first
    | exact Leaves.refl | refine leaves_hst rfl ?_

theorem haltCores_leaves (s : State) :
    Leaves [.bat, .owl, .eav, .hst, .can, .vrg, .pwr, .cdc] s (haltCores s) := by
  unfold haltCores
  with_reducible repeat' first
    | exact Leaves.refl | refine (startHold_leaves _).step rfl ?_ | (apply Leaves.forEach; intro u a)
    | refine (crossReset_leaves _ _).step rfl ?_ | refine (netReset_leaves _).step rfl ?_
    | refine (vergeOff_leaves _).step rfl ?_ | refine leaves_bat_owl_can_pwr rfl ?_

theorem hardRound_leaves (s : State) (r : Vector AdcSample 6) :
    Leaves [.fresh, .pwr, .gtr] s (hardRound s r) := by
  unfold hardRound
  with_reducible repeat' first
    | exact Leaves.refl | (apply Leaves.forEach; intro u a) | split | refine (readSensor_leaves _ _ _).step rfl ?_

theorem execThermalHalt_leaves (sensors : Vector AdcSample 6) (s : State) :
    LeavesOut [.fresh, .bat, .owl, .est, .led, .cpr, .eav, .hst, .can, .vrg, .pwr, .cdc, .gtr] s (execThermalHalt sensors
      s) := by
  unfold execThermalHalt
  with_reducible repeat' first
    | exact Leaves.refl | split | apply leavesOut_next | apply Leaves.ite | refine (haltCores_leaves _).step rfl ?_
    | refine (judgeLevel_leaves _).step rfl ?_ | refine (hardRound_leaves _ _).step rfl ?_

theorem rewriteTargets_leaves (s : State) : Leaves [.owl] s (rewriteTargets s) := by
  unfold rewriteTargets
  with_reducible repeat' first
    | exact Leaves.refl | (apply Leaves.forEach; intro u a) | apply Leaves.ite
    | refine (sendTargets_leaves _ _).step rfl ?_ | refine (modPort_leaves _ _ _).step rfl ?_
    | refine (balanceString_leaves _ _).step rfl ?_

theorem decideDormant_leaves (s : State) : Leaves [.fresh, .owl, .led, .pwr] s (decideDormant s) := by
  unfold decideDormant
  with_reducible repeat' first
    | exact Leaves.refl | apply Leaves.ite | refine (startCommit_leaves _).step rfl ?_
    | refine (stage_leaves _ _).step rfl ?_ | refine (rewriteTargets_leaves _).step rfl ?_ | refine leaves_pwr rfl ?_

theorem dormantTest_leaves (s : State) : Leaves [.fresh, .owl, .led, .pwr] s (dormantTest s) := by
  unfold dormantTest
  with_reducible repeat' first
    | exact Leaves.refl | apply Leaves.ite | refine (decideDormant_leaves _).step rfl ?_

theorem abandonEntry_leaves (s : State) : Leaves [.fresh, .pwr, .gtr] s (abandonEntry s) := by
  unfold abandonEntry
  with_reducible repeat' first
    | exact Leaves.refl | apply Leaves.ite | refine (logEv_leaves _ _ _ _).step rfl ?_ | refine leaves_pwr rfl ?_

theorem entryCheck_leaves (s : State) : Leaves [.fresh, .pwr, .gtr] s (entryCheck s) := by
  unfold entryCheck
  with_reducible repeat' first
    | exact Leaves.refl | apply Leaves.ite | refine (abandonEntry_leaves _).step rfl ?_

theorem execDormantEntryAbandon_leaves (s : State) :
    LeavesOut [.fresh, .pwr, .gtr] s (execDormantEntryAbandon s) := by
  unfold execDormantEntryAbandon
  with_reducible repeat' first
    | exact Leaves.refl | apply leavesOut_next | refine (abandonEntry_leaves _).step rfl ?_

theorem beginLast_leaves (s : State) : Leaves [.owl, .pwr] s (beginLast s) := by
  unfold beginLast
  with_reducible repeat' first
    | exact Leaves.refl | (apply Leaves.forEach; intro u a) | apply Leaves.ite
    | refine (modPort_leaves _ _ _).step rfl ?_ | refine leaves_pwr rfl ?_

theorem sleepCmd_leaves (s : State) (p : Nat) : Leaves [.owl] s (sleepCmd s p) := by
  unfold sleepCmd
  with_reducible repeat' first
    | exact Leaves.refl | apply Leaves.ite | refine (putCmd_leaves _ _ _).step rfl ?_ | split
    | refine (modPort_leaves _ _ _).step rfl ?_

theorem fallAsleep_leaves (s : State) :
    Leaves [.fresh, .owl, .est, .spar, .eav, .can, .pwr, .cdc, .gtr] s (fallAsleep s) := by
  unfold fallAsleep
  with_reducible repeat' first
    | exact Leaves.refl | refine (crossDrain_leaves _).step rfl ?_ | refine (channelsDown_leaves _).step rfl ?_
    | refine (sparGates_leaves _).step rfl ?_ | refine (canStop_leaves _).step rfl ?_ | apply Leaves.ite
    | (apply Leaves.forEach; intro u a) | refine (modPort_leaves _ _ _).step rfl ?_
    | refine (releaseHeld_leaves _).step rfl ?_ | refine (logEv_leaves _ _ _ _).step rfl ?_
    | refine leaves_est_pwr rfl ?_ | refine leaves_spar rfl ?_ | refine leaves_pwr rfl ?_

theorem powerCheckpoint_leaves (s : State) :
    Leaves [.fresh, .owl, .est, .led, .spar, .eav, .can, .pwr, .cdc, .gtr] s (powerCheckpoint s) := by
  unfold powerCheckpoint
  with_reducible repeat' first
    | exact Leaves.refl | apply Leaves.ite | refine (dormantTest_leaves _).step rfl ?_
    | refine (abandonEntry_leaves _).step rfl ?_ | refine (fallAsleep_leaves _).step rfl ?_

theorem execDormantEntry_leaves (s : State) :
    LeavesOut [.bat, .owl, .tha, .est, .pgr, .vrg, .pwr] s (execDormantEntry s) := by
  unfold execDormantEntry
  with_reducible repeat' first
    | exact Leaves.refl | split | apply leavesOut_next | refine (vergeOff_leaves _).step rfl ?_
    | refine (histBatten_leaves _).step rfl ?_ | refine (vergeBattenEnd_leaves _).step rfl ?_
    | refine (impBattenEnd_leaves _).step rfl ?_ | refine leaves_bat_pwr rfl ?_

theorem beginWake_leaves (s : State) (bits : Nat) : Leaves [.pwr] s (beginWake s bits) := by
  unfold beginWake
  with_reducible repeat' first
    | exact Leaves.refl | apply Leaves.ite | refine leaves_pwr rfl ?_

theorem wakeBy_leaves (s : State) (src : WakeSource) : Leaves [.fresh, .pwr, .gtr] s (wakeBy s src) := by
  unfold wakeBy
  with_reducible repeat' first
    | exact Leaves.refl | apply Leaves.ite | refine (beginWake_leaves _ _).step rfl ?_
    | refine (abandonEntry_leaves _).step rfl ?_

theorem execWakeSource_leaves (src : WakeSource) (s : State) :
    LeavesOut [.fresh, .pwr, .gtr] s (execWakeSource src s) := by
  unfold execWakeSource
  with_reducible repeat' first
    | exact Leaves.refl | apply leavesOut_next | refine (wakeBy_leaves _ _).step rfl ?_

theorem execAonWakeTimer_leaves (s : State) : LeavesOut [.pwr] s (execAonWakeTimer s) := by
  unfold execAonWakeTimer
  with_reducible repeat' first
    | exact Leaves.refl | split | apply leavesOut_next | refine (beginWake_leaves _ _).step rfl ?_

theorem wakePort_leaves (courses : Nat) (s : State) (p : Nat) :
    Leaves [.fresh, .owl, .tha, .spar, .gtr] s (wakePort courses s p) := by
  unfold wakePort
  with_reducible repeat' first
    | exact Leaves.refl | refine (modPort_leaves _ _ _).step rfl ?_ | apply Leaves.ite
    | refine (staleCells_leaves _ _).step rfl ?_ | refine (portSync_leaves _ _ _).step rfl ?_

theorem execWakeComplete_leaves (elapsed : Nat) (s : State) :
    LeavesOut [.fresh, .bat, .owl, .tha, .est, .led, .pgr, .spar, .cpr, .hst, .can, .fbk, .pwr, .gtr] s (execWakeComplete
      elapsed s) := by
  unfold execWakeComplete
  with_reducible repeat' first
    | exact Leaves.refl | split | apply leavesOut_next | apply Leaves.ite | refine (logEv_leaves _ _ _ _).step rfl ?_
    | (apply Leaves.forEach; intro u a) | refine (wakePort_leaves _ _ _).step rfl ?_
    | refine (fbkWake_leaves _).step rfl ?_ | refine (canWake_leaves _).step rfl ?_
    | refine (sparGates_leaves _).step rfl ?_ | refine (impAsleep_leaves _ _).step rfl ?_
    | refine (oweLedger_leaves _ _).step rfl ?_ | refine leaves_bat_tha_est_pgr_spar_hst_pwr rfl ?_

theorem wakeRoundStep_leaves (s : State) : Leaves [.fresh, .owl, .led, .pwr] s (wakeRoundStep s) := by
  unfold wakeRoundStep
  with_reducible repeat' first
    | exact Leaves.refl | split | apply Leaves.ite | refine (decideDormant_leaves _).step rfl ?_
    | refine leaves_pwr rfl ?_

theorem execWakeRoundEnd_leaves (s : State) : LeavesOut [.fresh, .owl, .led, .pwr] s (execWakeRoundEnd s) := by
  unfold execWakeRoundEnd
  with_reducible repeat' first
    | exact Leaves.refl | apply leavesOut_next | refine (wakeRoundStep_leaves _).step rfl ?_

theorem cdcClear_leaves (s : State) (who : Who) (mask : BitVec 15) :
    LeavesOpt [.cdc] s (cdcClear s who mask) := by
  unfold cdcClear
  with_reducible repeat' first
    | exact Leaves.refl | split | apply leavesOpt_some | apply leavesOpt_none | refine leaves_cdc rfl ?_

theorem execCrossingWakeRequest_leaves (k : Fin 15) (s : State) :
    LeavesOut [.fresh, .cdc, .gtr] s (execCrossingWakeRequest k s) := by
  unfold execCrossingWakeRequest
  with_reducible repeat' first
    | exact Leaves.refl | split | apply leavesOut_next | refine (crossDrop_leaves _ _ _).step rfl ?_
    | refine (crossWrite_leaves _ _).step rfl ?_ | refine (crossTake_leaves _ _).step rfl ?_
    | refine leaves_cdc rfl ?_

/-! ## Load -/

theorem cutCommit_leaves (s : State) : Leaves [.fresh, .mram, .led] s (cutCommit s) := by
  unfold cutCommit
  with_reducible repeat' first
    | exact Leaves.refl | split | refine (writeSlot_leaves _ _ _ _).step rfl ?_ | refine leaves_fresh_led rfl ?_

theorem settleCommits_leaves (s : State) : Leaves [.fresh, .mram, .led, .gtr] s (settleCommits s) := by
  unfold settleCommits
  refine .forEach (fun u a => ?_) .refl
  split
  · exact leaves_of_next (execLedgerCommitComplete_leaves _ _) (by assumption) rfl .refl
  · exact .refl

theorem startState_leaves (s : State) (kind : Nat) :
    Leaves [.psram, .img, .cfg, .bat, .owl, .tha, .est, .led, .pgr, .rdg, .spar, .cpr, .priv, .eav, .hst, .can, .vrg,
      .pwr, .cdc, .gtr] s (startState s kind) := by
  refine ⟨fun p => by cases p <;> first | exact .inr rfl | exact .inl (by decide), fun w => ⟨w.1, w.2.1, ?_, rfl, rfl⟩⟩
  show Mem.wf ramBlank (if kind ≤ 2 then [] else memErase s.psram 0xC00000 0x4000000) = true
  split
  · rfl
  · exact memErase_wf _ _ w.2.2.1

theorem psramTest_leaves (s : State) (kind : Nat) : Leaves [.fresh, .pgr, .gtr] s (psramTest s kind) := by
  unfold psramTest
  with_reducible repeat' first
    | exact Leaves.refl | apply Leaves.ite | refine (logEv_leaves _ _ _ _).step rfl ?_ | refine leaves_pgr rfl ?_

theorem loadChans_leaves (s : State) (kind : Nat) : Leaves [.eav] s (loadChans s kind) := by
  unfold loadChans
  with_reducible repeat' first
    | exact Leaves.refl | refine leaves_eav rfl ?_

theorem loadSessions_leaves (s : State) : Leaves [.hst] s (loadSessions s) := by
  unfold loadSessions
  with_reducible repeat' first
    | exact Leaves.refl | refine leaves_hst rfl ?_

theorem loadPorts_leaves (s : State) : Leaves [.fresh, .owl, .tha, .spar, .gtr] s (loadPorts s) := by
  unfold loadPorts
  with_reducible repeat' first
    | exact Leaves.refl | (apply Leaves.forEach; intro u a) | refine (portSync_leaves _ _ _).step rfl ?_

theorem loadGoose_leaves (s : State) : Leaves [.hst] s (loadGoose s) := by
  unfold loadGoose
  with_reducible repeat' first
    | exact Leaves.refl | (apply Leaves.forEach; intro u a) | refine (modGoose_leaves _ _ _).step rfl ?_

theorem loadArp_leaves (s : State) : Leaves [.hst] s (loadArp s) := by
  unfold loadArp
  with_reducible repeat' first
    | exact Leaves.refl | (apply Leaves.forEach; intro u a) | refine (sendArp_leaves _ _).step rfl ?_

theorem restartPair_leaves (s : State) : Leaves [.cpr] s (restartPair s) := by
  unfold restartPair
  with_reducible repeat' first
    | exact Leaves.refl | refine leaves_cpr rfl ?_

theorem loadImage_leaves (s : State) (kind : Nat) (b : Bool) (im : Image) :
    Leaves [.fresh, .img, .cfg, .owl, .tha, .est, .led, .pgr, .rdg, .spar, .cpr, .eav, .hst, .can, .vrg, .fbk, .gtr] s
      (loadImage s kind b im) := by
  unfold loadImage
  with_reducible repeat' first
    | exact Leaves.refl | refine (restartPair_leaves _).step rfl ?_ | refine (releaseHeld_leaves _).step rfl ?_
    | apply Leaves.ite | refine (nextLive_leaves _).step rfl ?_ | refine (psramTest_leaves _ _).step rfl ?_
    | refine (logEv_leaves _ _ _ _).step rfl ?_ | refine (loadPorts_leaves _).step rfl ?_
    | refine (loadArp_leaves _).step rfl ?_ | refine (loadGoose_leaves _).step rfl ?_
    | refine (fbkConfigure_leaves _ _).step rfl ?_ | refine (canConfigure_leaves _ _).step rfl ?_
    | refine (loadSessions_leaves _).step rfl ?_ | refine (loadChans_leaves _ _).step rfl ?_
    | (apply Leaves.forEach; intro u a) | refine (ledgerDue_leaves _ _).step rfl ?_
    | refine (moduleLoad_leaves _ _).step rfl ?_ | refine (ledgerLoad_leaves _).step rfl ?_
    | refine leaves_img_est_led_rdg_spar_vrg rfl ?_ | refine leaves_img_cfg rfl ?_

theorem loadNothing_leaves (s : State) (kind : Nat) :
    Leaves [.fresh, .img, .cfg, .led, .spar, .eav, .vrg, .fbk, .gtr] s (loadNothing s kind) := by
  unfold loadNothing
  with_reducible repeat' first
    | exact Leaves.refl | apply Leaves.ite | refine (startCommit_leaves _).step rfl ?_
    | refine (stage_leaves _ _).step rfl ?_ | refine (moduleLoad_leaves _ _).step rfl ?_
    | refine (logEv_leaves _ _ _ _).step rfl ?_ | refine (fbkConfigure_leaves _ _).step rfl ?_
    | refine (loadChans_leaves _ _).step rfl ?_ | refine (sparUnconfigured_leaves _).step rfl ?_
    | refine leaves_img_cfg_vrg rfl ?_

theorem coldLoad_leaves (s : State) (kind : Nat) :
    Leaves [.fresh, .img, .cfg, .bat, .owl, .tha, .est, .led, .pgr, .rdg, .spar, .cpr, .eav, .hst, .can, .vrg, .fbk, .gtr]
      s (coldLoad s kind) := by
  unfold coldLoad; dsimp only
  with_reducible repeat' first
    | exact Leaves.refl | split | apply Leaves.ite | refine (loadImage_leaves _ _ _ _).step rfl ?_
    | refine (loadNothing_leaves _ _).step rfl ?_ | refine leaves_img_bat rfl ?_

theorem coldStart_leaves (s : State) (kind : Nat) :
    Leaves [.fresh, .mram, .psram, .img, .cfg, .bat, .owl, .tha, .est, .led, .pgr, .rdg, .spar, .cpr, .priv, .eav, .hst,
      .can, .vrg, .fbk, .pwr, .cdc, .gtr] s (coldStart s kind) := by
  unfold coldStart
  with_reducible repeat' first
    | exact Leaves.refl | refine (coldLoad_leaves _ _).step rfl ?_ | refine (startState_leaves _ _).step rfl ?_
    | apply Leaves.ite | refine (cutCommit_leaves _).step rfl ?_ | refine (startHold_leaves _).step rfl ?_

theorem execPowerOn_leaves (s : State) :
    LeavesOut [.fresh, .mram, .psram, .img, .cfg, .bat, .owl, .tha, .est, .led, .pgr, .rdg, .spar, .cpr, .priv, .eav,
      .hst, .can, .vrg, .fbk, .pwr, .cdc, .gtr] s (execPowerOn s) := by
  unfold execPowerOn
  with_reducible repeat' first
    | exact Leaves.refl | apply leavesOut_next | refine (coldStart_leaves _ _).step rfl ?_

theorem execPowerOnByWake_leaves (s : State) :
    LeavesOut [.fresh, .mram, .psram, .img, .cfg, .bat, .owl, .tha, .est, .led, .pgr, .rdg, .spar, .cpr, .priv, .eav,
      .hst, .can, .vrg, .fbk, .pwr, .cdc, .gtr] s (execPowerOnByWake s) := by
  unfold execPowerOnByWake
  with_reducible repeat' first
    | exact Leaves.refl | split | apply leavesOut_next | refine (coldStart_leaves _ _).step rfl ?_

theorem execStartThresholdDip_leaves (s : State) : LeavesOut [] s (execStartThresholdDip s) := by
  unfold execStartThresholdDip
  with_reducible repeat' first
    | exact Leaves.refl | apply leavesOut_next

theorem execBrownOutReset_leaves (s : State) :
    LeavesOut [.fresh, .mram, .psram, .img, .cfg, .bat, .owl, .tha, .est, .led, .pgr, .rdg, .spar, .cpr, .priv, .eav,
      .hst, .can, .vrg, .fbk, .pwr, .cdc, .gtr] s (execBrownOutReset s) := by
  unfold execBrownOutReset
  with_reducible repeat' first
    | exact Leaves.refl | split | apply leavesOut_next | refine (coldStart_leaves _ _).step rfl ?_

theorem restartEdge_leaves (s : State) :
    Leaves [.fresh, .img, .bat, .owl, .est, .rdg, .eav, .hst, .can, .gtr] s (restartEdge s) := by
  unfold restartEdge
  with_reducible repeat' first
    | exact Leaves.refl | refine (startHold_leaves _).step rfl ?_ | refine (canRestart_leaves _).step rfl ?_
    | (apply Leaves.forEach; intro u a) | refine (stopDelivery_leaves _ _ _).step rfl ?_
    | refine (refuse_leaves _ _ _ _).step rfl ?_ | refine (dropEvents_leaves _).step rfl ?_
    | refine (dropOrders_leaves _ _).step rfl ?_ | refine (dropQueue_leaves _ _).step rfl ?_
    | refine leaves_img_bat_owl rfl ?_ | refine leaves_hst rfl ?_

theorem warmLoad_leaves (s : State) (kind : Nat) (target : Bool) (was : Bool) :
    Leaves [.fresh, .img, .cfg, .bat, .owl, .tha, .est, .led, .pgr, .rdg, .spar, .cpr, .eav, .hst, .can, .vrg, .fbk, .gtr]
      s (warmLoad s kind target was) := by
  unfold warmLoad; dsimp only
  with_reducible repeat' first
    | exact Leaves.refl | split | refine (loadImage_leaves _ _ _ _).step rfl ?_
    | refine (loadNothing_leaves _ _).step rfl ?_ | refine leaves_img_bat rfl ?_

theorem restartEvents_leaves (old : State) (s : State) :
    Leaves [.fresh, .gtr] s (restartEvents old s) := by
  unfold restartEvents
  with_reducible repeat' first
    | exact Leaves.refl | (apply Leaves.forEach; intro u a) | apply Leaves.ite
    | refine (logEv_leaves _ _ _ _).step rfl ?_

theorem warmStart_leaves (s : State) (kind : Nat) :
    Leaves [.fresh, .mram, .psram, .img, .cfg, .bat, .owl, .tha, .est, .led, .pgr, .rdg, .spar, .cpr, .priv, .eav, .hst,
      .can, .vrg, .fbk, .pwr, .cdc, .gtr] s (warmStart s kind) := by
  unfold warmStart
  with_reducible repeat' first
    | exact Leaves.refl | apply Leaves.ite | refine (loadNothing_leaves _ _).step rfl ?_
    | refine (restartEvents_leaves _ _).step rfl ?_ | refine (startState_leaves _ _).step rfl ?_
    | refine (canSettle_leaves _).step rfl ?_ | refine (settleCommits_leaves _).step rfl ?_
    | refine (warmLoad_leaves _ _ _ _).step rfl ?_

theorem execWarmRestart_leaves (s : State) :
    LeavesOut [.fresh, .mram, .psram, .img, .cfg, .bat, .owl, .tha, .est, .led, .pgr, .rdg, .spar, .cpr, .priv, .eav,
      .hst, .can, .vrg, .fbk, .pwr, .cdc, .gtr] s (execWarmRestart s) := by
  unfold execWarmRestart
  with_reducible repeat' first
    | exact Leaves.refl | split | apply leavesOut_next | refine (warmStart_leaves _ _).step rfl ?_
    | refine (restartEdge_leaves _).step rfl ?_

theorem execThermalHaltExit_leaves (sensors : Vector AdcSample 6) (s : State) :
    LeavesOut [.fresh, .mram, .psram, .img, .cfg, .bat, .owl, .tha, .est, .led, .pgr, .rdg, .spar, .cpr, .priv, .eav,
      .hst, .can, .vrg, .fbk, .pwr, .cdc, .gtr] s (execThermalHaltExit sensors s) := by
  unfold execThermalHaltExit
  with_reducible repeat' first
    | exact Leaves.refl | split | apply leavesOut_next | apply Leaves.ite | refine (warmStart_leaves _ _).step rfl ?_
    | refine (restartEdge_leaves _).step rfl ?_ | refine (hardRound_leaves _ _).step rfl ?_ | refine leaves_pwr rfl ?_

theorem cmdResult_leaves (s : State) (n : Nat) : Leaves [.pwr] s (cmdResult s n) := by
  unfold cmdResult
  with_reducible repeat' first
    | exact Leaves.refl | refine leaves_pwr rfl ?_

theorem orderShip_leaves (s : State) (who : Who) : Leaves [.owl, .led, .cpr, .pwr] s (orderShip s who).2 := by
  unfold orderShip
  with_reducible repeat' first
    | exact Leaves.refl | split | dsimp only | refine (cmdResult_leaves _ _).step rfl ?_
    | refine (beginStop_leaves _).step rfl ?_ | (apply Leaves.forEach; intro u a)
    | refine (queueCmd_leaves _ _ _ _).step rfl ?_ | refine leaves_pwr rfl ?_

theorem execShipEntry_leaves (s : State) :
    LeavesOut [.psram, .img, .cfg, .bat, .owl, .tha, .est, .led, .pgr, .rdg, .spar, .cpr, .priv, .eav, .hst, .can, .vrg,
      .fbk, .pwr, .cdc, .gtr] s (execShipEntry s) := by
  unfold execShipEntry
  split
  · exact leavesOut_next ⟨fun p => by cases p <;> first | exact .inl (by decide) | exact .inr rfl, fun w => ⟨w.1, w.2.1, rfl, rfl, rfl⟩⟩
  · exact leavesOut_next .refl

theorem orderSoftReset_leaves (s : State) (who : Who) :
    Leaves [.fresh, .mram, .psram, .img, .cfg, .bat, .owl, .tha, .est, .led, .pgr, .rdg, .spar, .cpr, .priv, .eav, .hst,
      .can, .vrg, .fbk, .pwr, .cdc, .gtr] s (orderSoftReset s who).2 := by
  unfold orderSoftReset; dsimp only
  with_reducible repeat' first
    | exact Leaves.refl | split | dsimp only | refine (cmdResult_leaves _ _).step rfl ?_
    | refine (coldStart_leaves _ _).step rfl ?_

theorem pwrCommand_leaves (s : State) (who : Who) (code : Nat) :
    Leaves [.fresh, .mram, .psram, .img, .cfg, .bat, .owl, .tha, .est, .led, .pgr, .rdg, .spar, .cpr, .priv, .eav, .hst,
      .can, .vrg, .fbk, .pwr, .cdc, .gtr] s (pwrCommand s who code).2 := by
  unfold pwrCommand
  with_reducible repeat' first
    | exact Leaves.refl | split | refine (orderShip_leaves _ _).step rfl ?_
    | refine (orderSoftReset_leaves _ _).step rfl ?_ | dsimp only | refine (cmdResult_leaves _ _).step rfl ?_

theorem writeWakeAt_leaves (s : State) (who : Who) (hi : Bool) (v : Nat) :
    LeavesOpt [.pwr] s (writeWakeAt s who hi v) := by
  unfold writeWakeAt; dsimp only
  with_reducible repeat' first
    | exact Leaves.refl | split | apply leavesOpt_some | apply leavesOpt_none | refine leaves_pwr rfl ?_

theorem execPwrWakeatWrite_leaves (who : Who) (value : Word) (s : State) :
    LeavesOut [.pwr] s (execPwrWakeatWrite who value s) := by
  unfold execPwrWakeatWrite
  with_reducible repeat' first
    | exact Leaves.refl | apply leavesOut_next | apply leaves_orSame
    | refine leavesOpt_step (writeWakeAt_leaves _ _ _ _) rfl ?_

/-! ## Learn -/

theorem writeRing_leaves (s : State) (c : Nat) (l : List Ref) : Leaves [.psram, .pgr] s (writeRing s c l) := by
  exact ⟨fun p => by cases p <;> first | exact .inl (by decide) | exact .inr rfl,
    fun w => ⟨w.1, w.2.1, memPuts_wf _ _ (memErase_wf _ _ w.2.2.1), w.2.2.2⟩⟩

theorem modLearn_leaves (s : State) (c : Nat) (f : LearnCell → LearnCell) :
    Leaves [.led] s (modLearn s c f) := by
  unfold modLearn
  with_reducible repeat' first
    | exact Leaves.refl | refine leaves_led rfl ?_

theorem learnRser_leaves (s : State) (c : Nat) : Leaves [.fresh, .led, .gtr] s (learnRser s c) := by
  unfold learnRser
  with_reducible repeat' first
    | exact Leaves.refl | apply Leaves.ite | refine (modLearn_leaves _ _ _).step rfl ?_
    | refine (logEv_leaves _ _ _ _).step rfl ?_

theorem learnDue_leaves (s : State) (c : Nat) : Leaves [.led] s (learnDue s c) := by
  unfold learnDue
  with_reducible repeat' first
    | exact Leaves.refl | refine leaves_led rfl ?_

theorem learnQ_leaves (s : State) (c : Nat) : Leaves [.fresh, .psram, .led, .pgr, .gtr] s (learnQ s c) := by
  unfold learnQ; dsimp only
  with_reducible repeat' first
    | exact Leaves.refl | split | apply Leaves.ite | refine (writeRing_leaves _ _ _).step rfl ?_
    | refine (modLearn_leaves _ _ _).step rfl ?_ | refine (logEv_leaves _ _ _ _).step rfl ?_
    | refine (learnDue_leaves _ _).step rfl ?_

theorem roundEnd_leaves (s : State) : Leaves [.est, .led] s (roundEnd s) := by
  unfold roundEnd
  with_reducible repeat' first
    | exact Leaves.refl | (apply Leaves.forEach; intro u a) | apply Leaves.ite
    | refine (learnDue_leaves _ _).step rfl ?_ | refine (modLearn_leaves _ _ _).step rfl ?_ | refine leaves_est rfl ?_
    | refine leaves_led rfl ?_

theorem learnCells_leaves (s : State) : Leaves [.fresh, .psram, .est, .led, .pgr, .gtr] s (learnCells s) := by
  unfold learnCells
  with_reducible repeat' first
    | exact Leaves.refl | apply Leaves.ite | refine (roundEnd_leaves _).step rfl ?_
    | (apply Leaves.forEach; intro u a) | refine (touchPage_leaves _ _).step rfl ?_
    | refine (learnQ_leaves _ _).step rfl ?_ | refine (learnRser_leaves _ _).step rfl ?_
    | refine leaves_led_pgr rfl ?_

theorem learnRun_leaves (s : State) : Leaves [.fresh, .psram, .est, .led, .pgr, .gtr] s (learnRun s) := by
  unfold learnRun
  with_reducible repeat' first
    | exact Leaves.refl | apply Leaves.ite | (apply Leaves.forEach; intro u a)
    | refine (requestPage_leaves _ _ _).step rfl ?_ | refine (learnCells_leaves _).step rfl ?_
    | refine leaves_led rfl ?_

end Sys2Proof.Machine
end

