-- ==== Sys2Proof/Laws/FramesHosts.lean ====
section
/-! SUPPORT. What each operation and each command leaves alone: the registers, the hosts, the networks, the batten and the debug port. -/

namespace Sys2Proof.Machine

/-! ## Registers -/

theorem rcClearTable_leaves (s : State) (a : Nat) : Leaves [.bat, .est, .rdg] s (rcClearTable s a) := by
  unfold rcClearTable
  with_reducible repeat' first
    | exact Leaves.refl | apply Leaves.ite | refine leaves_rdg rfl ?_ | refine leaves_bat rfl ?_
    | refine leaves_est rfl ?_

theorem rcClearHost_leaves (s : State) (a : Nat) : Leaves [.eav, .hst, .vrg] s (rcClearHost s a) := by
  unfold rcClearHost
  with_reducible repeat' first
    | exact Leaves.refl | apply Leaves.ite | refine leaves_hst rfl ?_ | refine leaves_eav rfl ?_
    | refine leaves_vrg rfl ?_

theorem rcClearPair_leaves (s : State) (a : Nat) :
    Leaves [.led, .pgr, .cpr, .pwr, .cdc, .gtr] s (rcClearPair s a) := by
  unfold rcClearPair
  with_reducible repeat' first
    | exact Leaves.refl | apply Leaves.ite | refine leaves_pgr rfl ?_ | refine leaves_pwr rfl ?_
    | refine leaves_cdc rfl ?_ | refine leaves_led rfl ?_ | refine leaves_gtr rfl ?_ | refine leaves_cpr rfl ?_

theorem rcClearRows_leaves (s : State) (a : Nat) :
    Leaves [.owl, .eav, .can, .fbk, .cdc] s (rcClearRows s a) := by
  unfold rcClearRows
  with_reducible repeat' first
    | exact Leaves.refl | apply Leaves.ite | refine (modPort_leaves _ _ _).step rfl ?_
    | refine (modChan_leaves _ _ _).step rfl ?_ | refine (modFbk_leaves _ _ _).step rfl ?_
    | refine (modCan_leaves _ _ _).step rfl ?_ | refine leaves_cdc rfl ?_

theorem rcClear_leaves (s : State) (a : Nat) :
    Leaves [.bat, .owl, .est, .led, .pgr, .rdg, .cpr, .eav, .hst, .can, .vrg, .fbk, .pwr, .cdc, .gtr] s (rcClear s a) := by
  unfold rcClear
  with_reducible repeat' first
    | exact Leaves.refl | refine (rcClearRows_leaves _ _).step rfl ?_ | refine (rcClearPair_leaves _ _).step rfl ?_
    | refine (rcClearHost_leaves _ _).step rfl ?_ | refine (rcClearTable_leaves _ _).step rfl ?_

theorem readLatch_leaves (s : State) (who : Who) (a : Nat) : Leaves [.hst] s (readLatch s who a) := by
  unfold readLatch
  with_reducible repeat' first
    | exact Leaves.refl | apply Leaves.ite | refine (modCopy_leaves _ _ _).step rfl ?_

theorem readReg_leaves (s : State) (who : Who) (a : Nat) :
    Leaves [.fresh, .bat, .owl, .est, .led, .pgr, .rdg, .cpr, .eav, .hst, .can, .vrg, .fbk, .pwr, .cdc, .gtr] s (readReg s
      who a).1 := by
  unfold readReg; dsimp only
  with_reducible repeat' first
    | exact Leaves.refl | split | dsimp only | refine (readLatch_leaves _ _ _).step rfl ?_
    | refine (rcClear_leaves _ _).step rfl ?_ | refine leaves_fresh rfl ?_

theorem readWords_leaves (s : State) (who : Who) (x2 : Nat) (x3 : Nat) :
    Leaves [.fresh, .bat, .owl, .est, .led, .pgr, .rdg, .cpr, .eav, .hst, .can, .vrg, .fbk, .pwr, .cdc, .gtr] s (readWords
      s who x2 x3).1 := by
  induction x3 generalizing s x2 with
  | zero => exact .refl
  | succ n ih => exact (readReg_leaves s who x2).trans (ih _ (x2 + 4))

theorem readRow_leaves (s : State) (who : Who) (a : Nat) :
    Leaves [.fresh, .bat, .owl, .est, .led, .pgr, .rdg, .cpr, .eav, .hst, .can, .vrg, .fbk, .pwr, .cdc, .gtr] s (readRow s
      who a) := by
  unfold readRow
  with_reducible repeat' first
    | exact Leaves.refl | apply Leaves.ite | refine (readReg_leaves _ _ _).step rfl ?_

theorem execBatCountLoRead_leaves (who : Who) (s : State) :
    LeavesOut [.fresh, .bat, .owl, .est, .led, .pgr, .rdg, .cpr, .eav, .hst, .can, .vrg, .fbk, .pwr, .cdc, .gtr] s
      (execBatCountLoRead who s) := by
  unfold execBatCountLoRead
  with_reducible repeat' first
    | exact Leaves.refl | apply leavesOut_next | refine (readRow_leaves _ _ _).step rfl ?_

theorem execGtrEntryRead_leaves (who : Who) (index : Fin 1024) (s : State) :
    LeavesOut [.fresh, .bat, .owl, .est, .led, .pgr, .rdg, .cpr, .eav, .hst, .can, .vrg, .fbk, .pwr, .cdc, .gtr] s
      (execGtrEntryRead who index s) := by
  unfold execGtrEntryRead
  with_reducible repeat' first
    | exact Leaves.refl | apply leavesOut_next | refine (readRow_leaves _ _ _).step rfl ?_

theorem execReadClearRegister_leaves (who : Who) (addr : Word) (s : State) :
    LeavesOut [.fresh, .bat, .owl, .est, .led, .pgr, .rdg, .cpr, .eav, .hst, .can, .vrg, .fbk, .pwr, .cdc, .gtr] s
      (execReadClearRegister who addr s) := by
  unfold execReadClearRegister
  with_reducible repeat' first
    | exact Leaves.refl | apply leavesOut_next | refine (readRow_leaves _ _ _).step rfl ?_

/-! ## RegWrites -/

theorem writeEstSel_leaves (s : State) (who : Who) (c : Nat) : Leaves [.hst] s (writeEstSel s who c) := by
  unfold writeEstSel
  with_reducible repeat' first
    | exact Leaves.refl | refine (modCopy_leaves _ _ _).step rfl ?_

theorem writeZSel_leaves (s : State) (who : Who) (c : Nat) (j : Nat) :
    Leaves [.hst] s (writeZSel s who c j) := by
  unfold writeZSel
  with_reducible repeat' first
    | exact Leaves.refl | refine (modCopy_leaves _ _ _).step rfl ?_

theorem writeLedSel_leaves (s : State) (who : Who) (c : Nat) : Leaves [.hst] s (writeLedSel s who c) := by
  unfold writeLedSel
  with_reducible repeat' first
    | exact Leaves.refl | refine (modCopy_leaves _ _ _).step rfl ?_

theorem writeReinit_leaves (s : State) (c : Nat) (whole : Bool) : Leaves [.est] s (writeReinit s c whole) := by
  unfold writeReinit
  with_reducible repeat' first
    | exact Leaves.refl | apply Leaves.ite | refine leaves_est rfl ?_

theorem writeEvtMask_leaves (s : State) (n : Nat) (w : Nat) (v : Word) :
    Leaves [.hst] s (writeEvtMask s n w v) := by
  unfold writeEvtMask
  with_reducible repeat' first
    | exact Leaves.refl | refine (modSess_leaves _ _ _).step rfl ?_

theorem imgCommand_leaves (s : State) (who : Who) (v : Nat) :
    LeavesOpt [.fresh, .nor, .img, .gtr] s (imgCommand s who v) := by
  unfold imgCommand
  split
  · exact (stageErase_leaves _ _ _).wide rfl
  · exact (stageVerify_leaves _ _).wide rfl
  · exact (stageCommit_leaves _ _).wide rfl
  · exact (stageReload_leaves _ _).wide rfl
  · exact (stageAbandon_leaves _ _).wide rfl
  · exact leavesOpt_none

theorem benchCommand_leaves (s : State) (who : Who) (v : Nat) :
    LeavesOpt [.img, .led, .cpr, .pwr] s (benchCommand s who v) := by
  unfold benchCommand
  with_reducible repeat' first
    | exact Leaves.refl | split | refine leavesOpt_step (benchEnter_leaves _ _) rfl ?_
    | refine leavesOpt_step (benchLeave_leaves _ _) rfl ?_ | apply leavesOpt_none

theorem ledCommand_leaves (s : State) (who : Who) (v : Nat) :
    Leaves [.led, .cpr] s (ledCommand s who v).2 := by
  unfold ledCommand
  with_reducible repeat' first
    | exact Leaves.refl | dsimp only | split | refine (ledResetPort_leaves _ _ _).step rfl ?_
    | refine (ledResetContactor_leaves _ _ _ _).step rfl ?_ | refine (ledResult_leaves _ _).step rfl ?_

theorem splitCommand_leaves (s : State) (who : Who) (v : Nat) : Leaves [.cpr] s (splitCommand s who v).2 := by
  unfold splitCommand
  with_reducible repeat' first
    | exact Leaves.refl | split | refine (orderSplit_leaves _ _ _ _).step rfl ?_
    | refine (orderRejoin_leaves _ _).step rfl ?_ | dsimp only | refine (splitAnswer_leaves _ _).step rfl ?_

theorem applyWrite_leaves (s : State) (who : Who) (a : Nat) (v : Word) :
    Leaves [.fresh, .nor, .mram, .psram, .img, .cfg, .bat, .owl, .tha, .est, .led, .pgr, .rdg, .spar, .cpr, .priv, .eav,
      .hst, .can, .vrg, .fbk, .pwr, .cdc, .gtr] s (applyWrite s who a v).2 := by
  unfold applyWrite
  dsimp only
  split
  · split
    · exact leaves_tookOr ((latchOrder_leaves _ _).wide rfl) .refl
    · exact .refl
  · exact leaves_rdg rfl .refl
  · exact leaves_tookOr ((serviceOrder_leaves _ _ _).wide rfl) .refl
  · exact leaves_tha rfl .refl
  · exact (writeReinit_leaves _ _ _).wide rfl
  · exact (ledCommand_leaves _ _ _).wide rfl
  · exact (splitCommand_leaves _ _ _).wide rfl
  · exact (writeEstSel_leaves _ _ _).wide rfl
  · exact (writeZSel_leaves _ _ _ _).wide rfl
  · exact (writeLedSel_leaves _ _ _).wide rfl
  · exact leaves_tookOr ((eavAuxcmd_leaves _ _ _).wide rfl) .refl
  · exact leaves_tookOr ((eavAuxduty_leaves _ _ _ _).wide rfl) .refl
  · exact leaves_tookOr ((eavAuxduty_leaves _ _ _ _).wide rfl) .refl
  · exact leaves_tookOr ((eavLatchClear_leaves _ _ _).wide rfl) .refl
  · exact (freeSegments_leaves _ _).wide rfl
  · exact leaves_tookOr ((stageAddr_leaves _ _ _).wide rfl) .refl
  · exact leaves_tookOr ((stageData_leaves _ _ _).wide rfl) .refl
  · exact leaves_tookOr ((imgCommand_leaves _ _ _).wide rfl) .refl
  · exact leaves_tookOr ((benchCommand_leaves _ _ _).wide rfl) .refl
  · exact leaves_tookOr ((writeWakeAt_leaves _ _ _ _).wide rfl) .refl
  · exact leaves_tookOr ((writeWakeAt_leaves _ _ _ _).wide rfl) .refl
  · exact (pwrCommand_leaves _ _ _).wide rfl
  · exact leaves_tookOr ((cdcClear_leaves _ _ _).wide rfl) .refl
  · split
    · exact (writeEvtMask_leaves _ _ _ _).wide rfl
    · exact .refl

theorem writeRow_leaves (s : State) (who : Who) (a : Nat) (v : Word) :
    Leaves [.fresh, .nor, .mram, .psram, .img, .cfg, .bat, .owl, .tha, .est, .led, .pgr, .rdg, .spar, .cpr, .priv, .eav,
      .hst, .can, .vrg, .fbk, .pwr, .cdc, .gtr] s (writeRow s who a v) := by
  unfold writeRow
  with_reducible repeat' first
    | exact Leaves.refl | apply Leaves.ite | refine (applyWrite_leaves _ _ _ _).step rfl ?_

theorem execRegisterWrite_leaves (who : Who) (addr : Word) (value : Word) (s : State) :
    LeavesOut [.fresh, .nor, .mram, .psram, .img, .cfg, .bat, .owl, .tha, .est, .led, .pgr, .rdg, .spar, .cpr, .priv,
      .eav, .hst, .can, .vrg, .fbk, .pwr, .cdc, .gtr] s (execRegisterWrite who addr value s) := by
  unfold execRegisterWrite
  with_reducible repeat' first
    | exact Leaves.refl | apply leavesOut_next | refine (writeRow_leaves _ _ _ _).step rfl ?_

theorem execServiceOut_leaves (who : Who) (k : Fin 4) (s : State) :
    LeavesOut [.fresh, .nor, .mram, .psram, .img, .cfg, .bat, .owl, .tha, .est, .led, .pgr, .rdg, .spar, .cpr, .priv,
      .eav, .hst, .can, .vrg, .fbk, .pwr, .cdc, .gtr] s (execServiceOut who k s) := by
  unfold execServiceOut
  with_reducible repeat' first
    | exact Leaves.refl | apply leavesOut_next | refine (writeRow_leaves _ _ _ _).step rfl ?_

theorem execServiceIn_leaves (who : Who) (k : Fin 4) (s : State) :
    LeavesOut [.fresh, .nor, .mram, .psram, .img, .cfg, .bat, .owl, .tha, .est, .led, .pgr, .rdg, .spar, .cpr, .priv,
      .eav, .hst, .can, .vrg, .fbk, .pwr, .cdc, .gtr] s (execServiceIn who k s) := by
  unfold execServiceIn
  with_reducible repeat' first
    | exact Leaves.refl | apply leavesOut_next | refine (writeRow_leaves _ _ _ _).step rfl ?_

theorem execResetPort_leaves (who : Who) (p : Fin 32) (s : State) :
    LeavesOut [.fresh, .nor, .mram, .psram, .img, .cfg, .bat, .owl, .tha, .est, .led, .pgr, .rdg, .spar, .cpr, .priv,
      .eav, .hst, .can, .vrg, .fbk, .pwr, .cdc, .gtr] s (execResetPort who p s) := by
  unfold execResetPort
  with_reducible repeat' first
    | exact Leaves.refl | apply leavesOut_next | refine (writeRow_leaves _ _ _ _).step rfl ?_

theorem execResetContactor_leaves (who : Who) (k : Fin 4) (role : BitVec 2) (s : State) :
    LeavesOut [.fresh, .nor, .mram, .psram, .img, .cfg, .bat, .owl, .tha, .est, .led, .pgr, .rdg, .spar, .cpr, .priv,
      .eav, .hst, .can, .vrg, .fbk, .pwr, .cdc, .gtr] s (execResetContactor who k role s) := by
  unfold execResetContactor
  with_reducible repeat' first
    | exact Leaves.refl | apply leavesOut_next | refine (writeRow_leaves _ _ _ _).step rfl ?_

theorem execPgrFclearWrite_leaves (who : Who) (mask : BitVec 4) (s : State) :
    LeavesOut [.fresh, .nor, .mram, .psram, .img, .cfg, .bat, .owl, .tha, .est, .led, .pgr, .rdg, .spar, .cpr, .priv,
      .eav, .hst, .can, .vrg, .fbk, .pwr, .cdc, .gtr] s (execPgrFclearWrite who mask s) := by
  unfold execPgrFclearWrite
  with_reducible repeat' first
    | exact Leaves.refl | apply leavesOut_next | refine (writeRow_leaves _ _ _ _).step rfl ?_

theorem execEstSelWrite_leaves (who : Who) (cell : BitVec 9) (s : State) :
    LeavesOut [.fresh, .nor, .mram, .psram, .img, .cfg, .bat, .owl, .tha, .est, .led, .pgr, .rdg, .spar, .cpr, .priv,
      .eav, .hst, .can, .vrg, .fbk, .pwr, .cdc, .gtr] s (execEstSelWrite who cell s) := by
  unfold execEstSelWrite
  with_reducible repeat' first
    | exact Leaves.refl | apply leavesOut_next | refine (writeRow_leaves _ _ _ _).step rfl ?_

theorem execEstReinitWrite_leaves (who : Who) (cell : BitVec 9) (whole : Bool) (s : State) :
    LeavesOut [.fresh, .nor, .mram, .psram, .img, .cfg, .bat, .owl, .tha, .est, .led, .pgr, .rdg, .spar, .cpr, .priv,
      .eav, .hst, .can, .vrg, .fbk, .pwr, .cdc, .gtr] s (execEstReinitWrite who cell whole s) := by
  unfold execEstReinitWrite
  with_reducible repeat' first
    | exact Leaves.refl | apply leavesOut_next | refine (writeRow_leaves _ _ _ _).step rfl ?_

theorem execEstZselWrite_leaves (who : Who) (cell : BitVec 9) (index : BitVec 2) (s : State) :
    LeavesOut [.fresh, .nor, .mram, .psram, .img, .cfg, .bat, .owl, .tha, .est, .led, .pgr, .rdg, .spar, .cpr, .priv,
      .eav, .hst, .can, .vrg, .fbk, .pwr, .cdc, .gtr] s (execEstZselWrite who cell index s) := by
  unfold execEstZselWrite
  with_reducible repeat' first
    | exact Leaves.refl | apply leavesOut_next | refine (writeRow_leaves _ _ _ _).step rfl ?_

theorem execLedCselWrite_leaves (who : Who) (cell : BitVec 9) (s : State) :
    LeavesOut [.fresh, .nor, .mram, .psram, .img, .cfg, .bat, .owl, .tha, .est, .led, .pgr, .rdg, .spar, .cpr, .priv,
      .eav, .hst, .can, .vrg, .fbk, .pwr, .cdc, .gtr] s (execLedCselWrite who cell s) := by
  unfold execLedCselWrite
  with_reducible repeat' first
    | exact Leaves.refl | apply leavesOut_next | refine (writeRow_leaves _ _ _ _).step rfl ?_

theorem execHstEvtmaskWrite_leaves (who : Who) (n : Fin 8) (w : Fin 4) (value : Word) (s : State) :
    LeavesOut [.fresh, .nor, .mram, .psram, .img, .cfg, .bat, .owl, .tha, .est, .led, .pgr, .rdg, .spar, .cpr, .priv,
      .eav, .hst, .can, .vrg, .fbk, .pwr, .cdc, .gtr] s (execHstEvtmaskWrite who n w value s) := by
  unfold execHstEvtmaskWrite
  with_reducible repeat' first
    | exact Leaves.refl | apply leavesOut_next | refine (writeRow_leaves _ _ _ _).step rfl ?_

theorem execEavLatchClear_leaves (who : Who) (mask : BitVec 24) (s : State) :
    LeavesOut [.fresh, .nor, .mram, .psram, .img, .cfg, .bat, .owl, .tha, .est, .led, .pgr, .rdg, .spar, .cpr, .priv,
      .eav, .hst, .can, .vrg, .fbk, .pwr, .cdc, .gtr] s (execEavLatchClear who mask s) := by
  unfold execEavLatchClear
  with_reducible repeat' first
    | exact Leaves.refl | apply leavesOut_next | refine (writeRow_leaves _ _ _ _).step rfl ?_

theorem execEavAuxcmdWrite_leaves (who : Who) (mask : Byte) (s : State) :
    LeavesOut [.fresh, .nor, .mram, .psram, .img, .cfg, .bat, .owl, .tha, .est, .led, .pgr, .rdg, .spar, .cpr, .priv,
      .eav, .hst, .can, .vrg, .fbk, .pwr, .cdc, .gtr] s (execEavAuxcmdWrite who mask s) := by
  unfold execEavAuxcmdWrite
  with_reducible repeat' first
    | exact Leaves.refl | apply leavesOut_next | refine (writeRow_leaves _ _ _ _).step rfl ?_

theorem execCdcOvrClear_leaves (who : Who) (mask : BitVec 15) (s : State) :
    LeavesOut [.fresh, .nor, .mram, .psram, .img, .cfg, .bat, .owl, .tha, .est, .led, .pgr, .rdg, .spar, .cpr, .priv,
      .eav, .hst, .can, .vrg, .fbk, .pwr, .cdc, .gtr] s (execCdcOvrClear who mask s) := by
  unfold execCdcOvrClear
  with_reducible repeat' first
    | exact Leaves.refl | apply leavesOut_next | refine (writeRow_leaves _ _ _ _).step rfl ?_

theorem execSplit_leaves (who : Who) (job : BitVec 4) (duration : BitVec 16) (s : State) :
    LeavesOut [.fresh, .nor, .mram, .psram, .img, .cfg, .bat, .owl, .tha, .est, .led, .pgr, .rdg, .spar, .cpr, .priv,
      .eav, .hst, .can, .vrg, .fbk, .pwr, .cdc, .gtr] s (execSplit who job duration s) := by
  unfold execSplit
  with_reducible repeat' first
    | exact Leaves.refl | apply leavesOut_next | refine (writeRow_leaves _ _ _ _).step rfl ?_

theorem execRejoin_leaves (who : Who) (s : State) :
    LeavesOut [.fresh, .nor, .mram, .psram, .img, .cfg, .bat, .owl, .tha, .est, .led, .pgr, .rdg, .spar, .cpr, .priv,
      .eav, .hst, .can, .vrg, .fbk, .pwr, .cdc, .gtr] s (execRejoin who s) := by
  unfold execRejoin
  with_reducible repeat' first
    | exact Leaves.refl | apply leavesOut_next | refine (writeRow_leaves _ _ _ _).step rfl ?_

theorem execShip_leaves (who : Who) (s : State) :
    LeavesOut [.fresh, .nor, .mram, .psram, .img, .cfg, .bat, .owl, .tha, .est, .led, .pgr, .rdg, .spar, .cpr, .priv,
      .eav, .hst, .can, .vrg, .fbk, .pwr, .cdc, .gtr] s (execShip who s) := by
  unfold execShip
  with_reducible repeat' first
    | exact Leaves.refl | apply leavesOut_next | refine (writeRow_leaves _ _ _ _).step rfl ?_

theorem execSoftReset_leaves (who : Who) (s : State) :
    LeavesOut [.fresh, .nor, .mram, .psram, .img, .cfg, .bat, .owl, .tha, .est, .led, .pgr, .rdg, .spar, .cpr, .priv,
      .eav, .hst, .can, .vrg, .fbk, .pwr, .cdc, .gtr] s (execSoftReset who s) := by
  unfold execSoftReset
  with_reducible repeat' first
    | exact Leaves.refl | apply leavesOut_next | apply Leaves.ite | refine (orderSoftReset_leaves _ _).step rfl ?_
    | refine (writeRow_leaves _ _ _ _).step rfl ?_

/-! ## Hosts -/

theorem countPrp_leaves (s : State) (lanB : Bool) : Leaves [.hst] s (countPrp s lanB) := by
  unfold countPrp
  with_reducible repeat' first
    | exact Leaves.refl | apply Leaves.ite | refine leaves_hst rfl ?_

theorem hearNode_leaves (s : State) (lanB : Bool) (mac : BitVec 48) :
    Leaves [.hst] s (hearNode s lanB mac) := by
  unfold hearNode
  with_reducible repeat' first
    | exact Leaves.refl | apply Leaves.ite | refine leaves_hst rfl ?_

theorem prpTest_leaves (s : State) (lanB : Bool) (mac : BitVec 48) (t : PrpTrailer) :
    Leaves [.hst] s (prpTest s lanB mac t).1 := by
  unfold prpTest; dsimp only
  with_reducible repeat' first
    | exact Leaves.refl | split | dsimp only | refine (hearNode_leaves _ _ _).step rfl ?_
    | refine (countPrp_leaves _ _).step rfl ?_ | refine leaves_hst rfl ?_

theorem prpHear_leaves (s : State) (lanB : Bool) (mac : BitVec 48) (t : Option PrpTrailer) :
    Leaves [.hst] s (prpHear s lanB mac t).1 := by
  unfold prpHear
  with_reducible repeat' first
    | exact Leaves.refl | split | refine (prpTest_leaves _ _ _ _).step rfl ?_

theorem readData_leaves (s : State) (who : Who) (addr : Nat) (count : Nat) :
    Leaves [.fresh, .bat, .owl, .est, .led, .pgr, .rdg, .cpr, .eav, .hst, .can, .vrg, .fbk, .pwr, .cdc, .gtr] s (readData
      s who addr count).1 := by
  unfold readData
  with_reducible repeat' first
    | exact Leaves.refl | split | dsimp only | (apply Leaves.forEach; intro u a)
    | refine (touchPage_leaves _ _).step rfl ?_ | refine (readWords_leaves _ _ _ _).step rfl ?_

theorem startDelivery_leaves (s : State) (n : Nat) (start : Nat) :
    Leaves [.fresh, .hst, .gtr] s (startDelivery s n start) := by
  unfold startDelivery
  with_reducible repeat' first
    | exact Leaves.refl | refine (logEv_leaves _ _ _ _).step rfl ?_ | refine (modSess_leaves _ _ _).step rfl ?_

theorem serveBody_leaves (s : State) (who : Who) (seq : Nat) (b : ReqBody) :
    Leaves [.fresh, .nor, .mram, .psram, .img, .cfg, .bat, .owl, .tha, .est, .led, .pgr, .rdg, .spar, .cpr, .priv, .eav,
      .hst, .can, .vrg, .fbk, .pwr, .cdc, .gtr] s (serveBody s who seq b).2 := by
  have k : ∀ (l : List (Nat × Word)) (s : State),
      Leaves [.fresh, .nor, .mram, .psram, .img, .cfg, .bat, .owl, .tha, .est, .led, .pgr, .rdg, .spar, .cpr, .priv, .eav, .hst, .can, .vrg, .fbk, .pwr, .cdc, .gtr] s (applyWords s who l).2.2.2 := by
    intro l
    induction l with
    | nil => intro s; exact .refl
    | cons a l ih =>
      intro s
      unfold applyWords
      split
      · exact leaves_of_snd (by assumption) (applyWrite_leaves s who _ _)
      · rename_i t e
        have ht := leaves_of_snd e (applyWrite_leaves s who _ _)
        split
        · exact ht
        · exact ht.trans (ih t)
  cases b with
  | opening st =>
    cases who with
    | session n => exact (startDelivery_leaves s _ _).step rfl .refl
    | gable => exact .refl
  | ending =>
    cases who with
    | session n => exact (stopDelivery_leaves s _ _).step rfl .refl
    | gable => exact .refl
  | nop => exact .refl
  | read a c => exact (readData_leaves s who a c).step rfl .refl
  | write a c md d =>
    show Leaves _ s (ite _ _ _ : Option HostMsg × State).2
    split
    · exact k _ _
    · exact k _ _

theorem serveReq_leaves (s : State) (r : Req) :
    Leaves [.fresh, .nor, .mram, .psram, .img, .cfg, .bat, .owl, .tha, .est, .led, .pgr, .rdg, .spar, .cpr, .priv, .eav,
      .hst, .can, .vrg, .fbk, .pwr, .cdc, .gtr] s (serveReq s r).1 := by
  unfold serveReq; dsimp only
  with_reducible repeat' first
    | exact Leaves.refl | split | dsimp only | refine leaves_of_snd (by assumption) ?_
    | refine (serveBody_leaves _ _ _ _).step rfl ?_ | refine (sendMsg_leaves _ _).step rfl ?_
    | refine leaves_hst rfl ?_

theorem serveAll_leaves (s : State) (x1 : List Req) :
    Leaves [.fresh, .nor, .mram, .psram, .img, .cfg, .bat, .owl, .tha, .est, .led, .pgr, .rdg, .spar, .cpr, .priv, .eav,
      .hst, .can, .vrg, .fbk, .pwr, .cdc, .gtr] s (serveAll s x1) := by
  induction x1 generalizing s with
  | nil => exact .refl
  | cons r l ih =>
    unfold serveAll
    split
    · exact leaves_of_fst (by assumption) (serveReq_leaves s r)
    · exact (leaves_of_fst (by assumption) (serveReq_leaves s r)).trans (ih _)

theorem hostReservedRun_leaves (s : State) (e : SlotEntry) :
    Leaves [.fresh, .nor, .mram, .psram, .img, .cfg, .bat, .owl, .tha, .est, .led, .pgr, .rdg, .spar, .cpr, .priv, .eav,
      .hst, .can, .vrg, .fbk, .pwr, .cdc, .gtr] s (hostReservedRun s e) := by
  unfold hostReservedRun
  with_reducible repeat' first
    | exact Leaves.refl | split | refine (serveAll_leaves _ _).step rfl ?_ | refine leaves_of_fst (by assumption) ?_
    | refine (formResults_leaves _ _).step rfl ?_

theorem deferReqs_leaves (s : State) (l : List Req) : Leaves [.hst] s (deferReqs s l) := by
  unfold deferReqs
  with_reducible repeat' first
    | exact Leaves.refl | (apply Leaves.forEach; intro u a) | refine (refuse_leaves _ _ _ _).step rfl ?_
    | refine leaves_hst rfl ?_

theorem hostPoolRun_leaves (s : State) (e : SlotEntry) :
    Leaves [.fresh, .nor, .mram, .psram, .img, .cfg, .bat, .owl, .tha, .est, .led, .pgr, .rdg, .spar, .cpr, .priv, .eav,
      .hst, .can, .vrg, .fbk, .pwr, .cdc, .gtr] s (hostPoolRun s e) := by
  unfold hostPoolRun
  with_reducible repeat' first
    | exact Leaves.refl | refine (serveAll_leaves _ _).step rfl ?_ | refine (deferReqs_leaves _ _).step rfl ?_

theorem poolDropped_leaves (s : State) (e : SlotEntry) : Leaves [.hst] s (poolDropped s e) := by
  unfold poolDropped
  with_reducible repeat' first
    | exact Leaves.refl | refine (deferReqs_leaves _ _).step rfl ?_

theorem sendAccept_leaves (s : State) (who : Who) (seq : Nat) (guarantee : Nat) (cls : Nat) :
    Leaves [.hst] s (sendAccept s who seq guarantee cls) := by
  unfold sendAccept
  with_reducible repeat' first
    | exact Leaves.refl | refine (sendMsg_leaves _ _).step rfl ?_

theorem noteAccepted_leaves (s : State) (who : Who) (f : HostFrame) (seq : Nat) (guarantee : Nat) :
    Leaves [.hst] s (noteAccepted s who f seq guarantee) := by
  unfold noteAccepted
  with_reducible repeat' first
    | exact Leaves.refl | split | refine (modSess_leaves _ _ _).step rfl ?_ | refine leaves_hst rfl ?_

theorem ackEvent_leaves (s : State) (who : Who) (seq : Nat) : Leaves [.hst] s (ackEvent s who seq) := by
  unfold ackEvent
  with_reducible repeat' first
    | exact Leaves.refl | split | apply Leaves.ite | refine (modSess_leaves _ _ _).step rfl ?_

theorem windowTest_leaves (s : State) (m : ReqMsg) : Leaves [.pgr] s (windowTest s m).1 := by
  unfold windowTest; dsimp only
  with_reducible repeat' first
    | exact Leaves.refl | split | dsimp only | refine (countMiss_leaves _ _).step rfl ?_
    | refine (queueHost_leaves _ _).step rfl ?_

theorem serveNow_leaves (s : State) (who : Who) (seq : Nat) (b : ReqBody) :
    Leaves [.fresh, .nor, .mram, .psram, .img, .cfg, .bat, .owl, .tha, .est, .led, .pgr, .rdg, .spar, .cpr, .priv, .eav,
      .hst, .can, .vrg, .fbk, .pwr, .cdc, .gtr] s (serveNow s who seq b) := by
  unfold serveNow
  with_reducible repeat' first
    | exact Leaves.refl | split | refine (sendMsg_leaves _ _).step rfl ?_ | refine leaves_of_snd (by assumption) ?_
    | refine (serveBody_leaves _ _ _ _).step rfl ?_

theorem acceptOrder_leaves (s : State) (n : Fin 8) (f : HostFrame) (m : ReqMsg) (pool : Bool) :
    Leaves [.rdg, .hst, .pwr] s (acceptOrder s n f m pool) := by
  unfold acceptOrder
  with_reducible repeat' first
    | exact Leaves.refl | apply leaves_orSame | refine leavesOpt_step (latchOrder_leaves _ _) rfl ?_
    | refine (sendAccept_leaves _ _ _ _ _).step rfl ?_ | refine (noteAccepted_leaves _ _ _ _ _).step rfl ?_

theorem acceptReq_leaves (s : State) (who : Who) (f : HostFrame) (m : ReqMsg) :
    Leaves [.pgr, .rdg, .hst, .pwr] s (acceptReq s who f m) := by
  unfold acceptReq
  with_reducible repeat' first
    | exact Leaves.refl | apply Leaves.ite | refine (ackEvent_leaves _ _ _).step rfl ?_
    | refine (sendAccept_leaves _ _ _ _ _).step rfl ?_ | refine (noteAccepted_leaves _ _ _ _ _).step rfl ?_
    | refine (refuse_leaves _ _ _ _).step rfl ?_ | split | refine (acceptOrder_leaves _ _ _ _ _).step rfl ?_
    | refine (serveHost_leaves _ _).step rfl ?_ | refine leaves_hst rfl ?_

theorem purlin_leaves (s : State) (who : Who) (f : HostFrame) (m : ReqMsg) :
    Leaves [.fresh, .nor, .mram, .psram, .img, .cfg, .bat, .owl, .tha, .est, .led, .pgr, .rdg, .spar, .cpr, .priv, .eav,
      .hst, .can, .vrg, .fbk, .pwr, .cdc, .gtr] s (purlin s who f m) := by
  unfold purlin
  with_reducible repeat' first
    | exact Leaves.refl | split | apply Leaves.ite | refine (refuseAt_leaves _ _ _ _ _).step rfl ?_
    | refine (refuse_leaves _ _ _ _).step rfl ?_ | refine (orderSoftReset_leaves _ _).step rfl ?_
    | refine (sendAccept_leaves _ _ _ _ _).step rfl ?_ | refine (noteAccepted_leaves _ _ _ _ _).step rfl ?_
    | refine leaves_of_fst (by assumption) ?_ | refine (windowTest_leaves _ _).step rfl ?_
    | refine (ackEvent_leaves _ _ _).step rfl ?_ | refine (serveNow_leaves _ _ _ _).step rfl ?_
    | refine (serveHost_leaves _ _).step rfl ?_ | refine (acceptReq_leaves _ _ _ _).step rfl ?_

theorem receive_leaves (s : State) (f : HostFrame) :
    Leaves [.fresh, .nor, .mram, .psram, .img, .cfg, .bat, .owl, .tha, .est, .led, .pgr, .rdg, .spar, .cpr, .priv, .eav,
      .hst, .can, .vrg, .fbk, .pwr, .cdc, .gtr] s (receive s f) := by
  unfold receive
  with_reducible repeat' first
    | exact Leaves.refl | apply Leaves.ite | refine (discardFrame_leaves _).step rfl ?_ | split
    | refine (purlin_leaves _ _ _ _).step rfl ?_

theorem gableTransaction_leaves {us : List Part} {s : State} {answer : List Byte} {act : State → State}
    (hu : among [.fresh, .hst, .pwr, .gtr] us = true) (hf : ∀ u, Leaves us u (act u)) : Leaves us s (gableTransaction s answer act) := by
  have hh : among [.hst] us = true := by
    simp only [among, List.all_cons, List.all_nil, Bool.and_eq_true] at hu ⊢; exact ⟨hu.2.1, trivial⟩
  have hw : among [.fresh, .pwr, .gtr] us = true := by
    simp only [among, List.all_cons, List.all_nil, Bool.and_eq_true] at hu ⊢; exact ⟨hu.1, hu.2.2.1, hu.2.2.2.1, trivial⟩
  unfold gableTransaction
  exact .ite .refl (.ite ((wakeBy_leaves _ _).step hw (leaves_hst hh .refl))
    (((wakeBy_leaves _ _).step hw (leaves_hst hh .refl)).trans (hf _)))

theorem gableStatusOp_leaves (s : State) : Leaves [.fresh, .hst, .pwr, .gtr] s (gableStatusOp s) := by
  unfold gableStatusOp
  exact gableTransaction_leaves rfl fun _ => .refl

theorem gableWriteOp_leaves (s : State) (octets : List Byte) :
    Leaves [.fresh, .nor, .mram, .psram, .img, .cfg, .bat, .owl, .tha, .est, .led, .pgr, .rdg, .spar, .cpr, .priv, .eav,
      .hst, .can, .vrg, .fbk, .pwr, .cdc, .gtr] s (gableWriteOp s octets) := by
  unfold gableWriteOp
  exact gableTransaction_leaves rfl fun u =>
    .ite ((discardFrame_leaves _).step rfl .refl) ((receive_leaves _ _).step rfl .refl)

theorem gableReserved_leaves (s : State) : Leaves [.fresh, .hst, .pwr, .gtr] s (gableReserved s) := by
  unfold gableReserved
  exact gableTransaction_leaves rfl fun u => (discardFrame_leaves _).step rfl .refl

theorem gableReadOp_leaves (s : State) (octetsClocked : Nat) :
    Leaves [.fresh, .hst, .pwr, .gtr] s (gableReadOp s octetsClocked) := by
  unfold gableReadOp
  exact gableTransaction_leaves rfl fun u => .ite (leaves_hst rfl .refl) .refl

theorem hostFrame_leaves (s : State) (f : HostFrame) :
    Leaves [.fresh, .nor, .mram, .psram, .img, .cfg, .bat, .owl, .tha, .est, .led, .pgr, .rdg, .spar, .cpr, .priv, .eav,
      .hst, .can, .vrg, .fbk, .pwr, .cdc, .gtr] s (hostFrame s f) := by
  unfold hostFrame
  exact .ite ((gableWriteOp_leaves _ _).step rfl .refl) (.ite .refl
    (onTaken_leaves ((prpHear_leaves _ _ _ _).step rfl .refl) fun u => .ite ((receive_leaves _ _).step rfl .refl) .refl))

theorem routeTo_leaves (s : State) (n : Nat) : Leaves [.hst] s (routeTo s n) := by
  unfold routeTo
  with_reducible repeat' first
    | exact Leaves.refl | apply Leaves.ite | refine (modSess_leaves _ _ _).step rfl ?_

theorem sendEvent_leaves (s : State) (n : Fin 8) : Leaves [.hst] s (sendEvent s n) := by
  unfold sendEvent
  with_reducible repeat' first
    | exact Leaves.refl | apply Leaves.ite | refine (modSess_leaves _ _ _).step rfl ?_
    | refine (sendMsg_leaves _ _).step rfl ?_

theorem gutterRoute_leaves (s : State) : Leaves [.hst, .gtr] s (gutterRoute s) := by
  unfold gutterRoute
  with_reducible repeat' first
    | exact Leaves.refl | (apply Leaves.forEach; intro u a) | refine (sendEvent_leaves _ _).step rfl ?_
    | refine (routeTo_leaves _ _).step rfl ?_ | refine leaves_gtr rfl ?_

theorem execSessionOpen_leaves (f : HostFrame) (s : State) :
    LeavesOut [.fresh, .nor, .mram, .psram, .img, .cfg, .bat, .owl, .tha, .est, .led, .pgr, .rdg, .spar, .cpr, .priv,
      .eav, .hst, .can, .vrg, .fbk, .pwr, .cdc, .gtr] s (execSessionOpen f s) := by
  unfold execSessionOpen
  exact leavesOut_next (hostFrame_leaves _ _)

theorem execSessionEnd_leaves (f : HostFrame) (s : State) :
    LeavesOut [.fresh, .nor, .mram, .psram, .img, .cfg, .bat, .owl, .tha, .est, .led, .pgr, .rdg, .spar, .cpr, .priv,
      .eav, .hst, .can, .vrg, .fbk, .pwr, .cdc, .gtr] s (execSessionEnd f s) := by
  unfold execSessionEnd
  exact leavesOut_next (hostFrame_leaves _ _)

theorem execReadRequest_leaves (f : HostFrame) (s : State) :
    LeavesOut [.fresh, .nor, .mram, .psram, .img, .cfg, .bat, .owl, .tha, .est, .led, .pgr, .rdg, .spar, .cpr, .priv,
      .eav, .hst, .can, .vrg, .fbk, .pwr, .cdc, .gtr] s (execReadRequest f s) := by
  unfold execReadRequest
  exact leavesOut_next (hostFrame_leaves _ _)

theorem execWriteRequest_leaves (f : HostFrame) (s : State) :
    LeavesOut [.fresh, .nor, .mram, .psram, .img, .cfg, .bat, .owl, .tha, .est, .led, .pgr, .rdg, .spar, .cpr, .priv,
      .eav, .hst, .can, .vrg, .fbk, .pwr, .cdc, .gtr] s (execWriteRequest f s) := by
  unfold execWriteRequest
  exact leavesOut_next (hostFrame_leaves _ _)

theorem execEventAck_leaves (f : HostFrame) (s : State) :
    LeavesOut [.fresh, .nor, .mram, .psram, .img, .cfg, .bat, .owl, .tha, .est, .led, .pgr, .rdg, .spar, .cpr, .priv,
      .eav, .hst, .can, .vrg, .fbk, .pwr, .cdc, .gtr] s (execEventAck f s) := by
  unfold execEventAck
  exact leavesOut_next (hostFrame_leaves _ _)

theorem execNopRequest_leaves (f : HostFrame) (s : State) :
    LeavesOut [.fresh, .nor, .mram, .psram, .img, .cfg, .bat, .owl, .tha, .est, .led, .pgr, .rdg, .spar, .cpr, .priv,
      .eav, .hst, .can, .vrg, .fbk, .pwr, .cdc, .gtr] s (execNopRequest f s) := by
  unfold execNopRequest
  exact leavesOut_next (hostFrame_leaves _ _)

theorem execEventResendTimeout_leaves (n : Fin 8) (s : State) :
    LeavesOut [.fresh, .hst, .gtr] s (execEventResendTimeout n s) := by
  unfold execEventResendTimeout
  with_reducible repeat' first
    | exact Leaves.refl | split | apply leavesOut_next | refine (sendMsg_leaves _ _).step rfl ?_
    | refine (modSess_leaves _ _ _).step rfl ?_ | refine (stopDelivery_leaves _ _ _).step rfl ?_

theorem execSessionIdleTimeout_leaves (n : Fin 8) (s : State) :
    LeavesOut [.fresh, .hst, .gtr] s (execSessionIdleTimeout n s) := by
  unfold execSessionIdleTimeout
  with_reducible repeat' first
    | exact Leaves.refl | split | apply leavesOut_next | refine (stopDelivery_leaves _ _ _).step rfl ?_

theorem execGableStatus_leaves (s : State) : LeavesOut [.fresh, .hst, .pwr, .gtr] s (execGableStatus s) := by
  unfold execGableStatus
  exact leavesOut_next (gableStatusOp_leaves _)

theorem execGableWrite_leaves (w : GableSend) (s : State) :
    LeavesOut [.fresh, .nor, .mram, .psram, .img, .cfg, .bat, .owl, .tha, .est, .led, .pgr, .rdg, .spar, .cpr, .priv,
      .eav, .hst, .can, .vrg, .fbk, .pwr, .cdc, .gtr] s (execGableWrite w s) := by
  unfold execGableWrite
  exact leavesOut_next (.ite ((gableReserved_leaves _).step rfl .refl) (gableWriteOp_leaves _ _))

theorem execGableRead_leaves (octetsClocked : Nat) (s : State) :
    LeavesOut [.fresh, .hst, .pwr, .gtr] s (execGableRead octetsClocked s) := by
  unfold execGableRead
  exact leavesOut_next (gableReadOp_leaves _ _)

/-! ## Net -/

theorem setLink_leaves (s : State) (p : NetPort) (l : LinkState) : Leaves [.hst] s (setLink s p l) := by
  unfold setLink
  with_reducible repeat' first
    | exact Leaves.refl | split | refine leaves_hst rfl ?_

theorem countLoss_leaves (s : State) (p : NetPort) : Leaves [.hst] s (countLoss s p) := by
  unfold countLoss
  with_reducible repeat' first
    | exact Leaves.refl | split | refine leaves_hst rfl ?_

theorem pollPort_leaves (s : State) (p : NetPort) (l : LinkState) :
    Leaves [.fresh, .hst, .gtr] s (pollPort s p l) := by
  unfold pollPort
  with_reducible repeat' first
    | exact Leaves.refl | apply Leaves.ite | refine (logEv_leaves _ _ _ _).step rfl ?_
    | refine (countLoss_leaves _ _).step rfl ?_ | refine (setLink_leaves _ _ _).step rfl ?_
    | refine (sendArp_leaves _ _).step rfl ?_

theorem execLinkPoll_leaves (a : LinkState) (b : LinkState) (s : State) :
    LeavesOut [.fresh, .hst, .gtr] s (execLinkPoll a b s) := by
  unfold execLinkPoll
  with_reducible repeat' first
    | exact Leaves.refl | apply leavesOut_next | refine (pollPort_leaves _ _ _).step rfl ?_

theorem netFrame_leaves {us : List Part} {s : State} {p : NetPort} {src : LanSource} {f : State → State}
    (hu : among [.hst] us = true) (hf : ∀ u, Leaves us u (f u)) : Leaves us s (netFrame s p src f) := by
  unfold netFrame
  exact .ite .refl (onTaken_leaves ((prpHear_leaves _ _ _ _).step hu .refl) hf)

theorem execArpRequest_leaves (port : NetPort) (target : Word) (src : LanSource) (s : State) :
    LeavesOut [.hst] s (execArpRequest port target src s) := by
  unfold execArpRequest
  exact leavesOut_next (netFrame_leaves rfl fun u => .ite ((netSend_leaves _ _).step rfl .refl) .refl)

theorem countEcho_leaves (s : State) (x1 : NetPort) : Leaves [.hst] s (countEcho s x1) := by
  unfold countEcho
  with_reducible repeat' first
    | exact Leaves.refl | split | refine leaves_hst rfl ?_

theorem execIcmpEchoRequest_leaves (port : NetPort) (target : Word) (src : LanSource) (payload : List Byte)
    (s : State) : LeavesOut [.hst] s (execIcmpEchoRequest port target src payload s) := by
  unfold execIcmpEchoRequest
  split
  · exact leavesOut_next .refl
  · exact leavesOut_next (netFrame_leaves rfl fun u => .ite ((netSend_leaves _ _).step rfl ((countEcho_leaves _ _).step rfl .refl)) .refl)

theorem execPrpSupervisionTimer_leaves (s : State) : LeavesOut [.hst] s (execPrpSupervisionTimer s) := by
  unfold execPrpSupervisionTimer
  with_reducible repeat' first
    | exact Leaves.refl | split | apply leavesOut_next | refine (netSend_leaves _ _).step rfl ?_

theorem execPrpSupervisionFrameReceived_leaves (lanB : Bool) (src : LanSource) (s : State) :
    LeavesOut [.hst] s (execPrpSupervisionFrameReceived lanB src s) := by
  unfold execPrpSupervisionFrameReceived
  split
  · exact leavesOut_next .refl
  · exact leavesOut_next (netFrame_leaves rfl fun u => (hearNode_leaves _ _ _).step rfl .refl)

theorem execPrpSingleLanTimeout_leaves (mac : BitVec 48) (s : State) :
    LeavesOut [.fresh, .hst, .gtr] s (execPrpSingleLanTimeout mac s) := by
  unfold execPrpSingleLanTimeout
  with_reducible repeat' first
    | exact Leaves.refl | split | apply leavesOut_next | refine (logEv_leaves _ _ _ _).step rfl ?_
    | refine leaves_hst rfl ?_

theorem enterSync_leaves (s : State) (x : SyncState) : Leaves [.fresh, .bat, .gtr] s (enterSync s x) := by
  unfold enterSync
  with_reducible repeat' first
    | exact Leaves.refl | apply Leaves.ite | refine (logEv_leaves _ _ _ _).step rfl ?_ | refine leaves_bat rfl ?_

theorem loseMaster_leaves (s : State) : Leaves [.fresh, .bat, .hst, .gtr] s (loseMaster s) := by
  unfold loseMaster
  with_reducible repeat' first
    | exact Leaves.refl | apply Leaves.ite | refine (enterSync_leaves _ _).step rfl ?_ | refine leaves_hst rfl ?_
    | refine leaves_bat rfl ?_

theorem chooseMaster_leaves (s : State) : Leaves [.fresh, .bat, .hst, .gtr] s (chooseMaster s) := by
  unfold chooseMaster
  with_reducible repeat' first
    | exact Leaves.refl | split | apply Leaves.ite | refine (loseMaster_leaves _).step rfl ?_
    | refine (enterSync_leaves _ _).step rfl ?_ | refine (logEv_leaves _ _ _ _).step rfl ?_ | refine leaves_hst rfl ?_

theorem execPtpAnnounceReceived_leaves (a : Announce) (s : State) :
    LeavesOut [.fresh, .bat, .hst, .gtr] s (execPtpAnnounceReceived a s) := by
  unfold execPtpAnnounceReceived
  with_reducible repeat' first
    | exact Leaves.refl | split | apply leavesOut_next | refine (chooseMaster_leaves _).step rfl ?_
    | refine leaves_hst rfl ?_

theorem takePort_leaves (s : State) (p : NetPort) : Leaves [.hst] s (takePort s p) := by
  unfold takePort
  with_reducible repeat' first
    | exact Leaves.refl | apply Leaves.ite | refine leaves_hst rfl ?_

theorem takeSync_leaves (s : State) (m : SyncMeas) : Leaves [.fresh, .bat, .hst, .gtr] s (takeSync s m) := by
  unfold takeSync
  with_reducible repeat' first
    | exact Leaves.refl | split | apply Leaves.ite | refine (enterSync_leaves _ _).step rfl ?_
    | refine leaves_of_snd (by assumption) ?_ | refine (takeFresh_leaves _).step rfl ?_ | refine leaves_bat_hst rfl ?_

theorem execPtpSyncReceived_leaves (m : SyncMeas) (s : State) :
    LeavesOut [.fresh, .bat, .hst, .gtr] s (execPtpSyncReceived m s) := by
  unfold execPtpSyncReceived; dsimp only
  with_reducible repeat' first
    | exact Leaves.refl | split | apply leavesOut_next | refine (takeSync_leaves _ _).step rfl ?_
    | refine (takePort_leaves _ _).step rfl ?_ | refine leaves_hst rfl ?_

theorem syncLoss_leaves (s : State) : Leaves [.fresh, .bat, .hst, .gtr] s (syncLoss s) := by
  unfold syncLoss
  with_reducible repeat' first
    | exact Leaves.refl | apply Leaves.ite | refine (loseMaster_leaves _).step rfl ?_

theorem execSyncLossTimeout_leaves (s : State) :
    LeavesOut [.fresh, .bat, .hst, .gtr] s (execSyncLossTimeout s) := by
  unfold execSyncLossTimeout
  with_reducible repeat' first
    | exact Leaves.refl | apply leavesOut_next | refine (syncLoss_leaves _).step rfl ?_

theorem ptpSend_leaves (s : State) (t : NetTx) : Leaves [.hst] s (ptpSend s t) := by
  unfold ptpSend
  with_reducible repeat' first
    | exact Leaves.refl | refine leaves_hst rfl ?_

theorem execPdelayTimer_leaves (s : State) : LeavesOut [.hst] s (execPdelayTimer s) := by
  unfold execPdelayTimer
  with_reducible repeat' first
    | exact Leaves.refl | split | apply leavesOut_next | apply Leaves.ite | refine (ptpSend_leaves _ _).step rfl ?_

theorem execPdelayMessageReceived_leaves (port : NetPort) (m : PdelayMsg) (s : State) :
    LeavesOut [.hst] s (execPdelayMessageReceived port m s) := by
  unfold execPdelayMessageReceived
  with_reducible repeat' first
    | exact Leaves.refl | split | apply leavesOut_next | refine (ptpSend_leaves _ _).step rfl ?_
    | refine leaves_hst rfl ?_

theorem displaceOrder_leaves (s : State) (n : Fin 8) (o : Order) : Leaves [.hst] s (displaceOrder s n o) := by
  unfold displaceOrder
  with_reducible repeat' first
    | exact Leaves.refl | apply Leaves.ite | refine leaves_hst rfl ?_

theorem latchRequest_leaves (s : State) (mask : BitVec 4) :
    Leaves [.rdg, .hst, .pwr] s (latchRequest s mask) := by
  unfold latchRequest; dsimp only
  with_reducible repeat' first
    | exact Leaves.refl | apply Leaves.ite | split | refine (displaceOrder_leaves _ _ _).step rfl ?_
    | refine leaves_rdg_hst_pwr rfl ?_

theorem gooseHeard_leaves (s : State) (k : Nat) (ttl : Nat) :
    Leaves [.fresh, .hst, .gtr] s (gooseHeard s k ttl) := by
  unfold gooseHeard
  with_reducible repeat' first
    | exact Leaves.refl | apply Leaves.ite | refine (logEv_leaves _ _ _ _).step rfl ?_
    | refine (modGoose_leaves _ _ _).step rfl ?_

theorem gooseTake_leaves (s : State) (k : Nat) (g : GooseFrame) :
    Leaves [.fresh, .rdg, .hst, .pwr, .gtr] s (gooseTake s k g) := by
  unfold gooseTake
  with_reducible repeat' first
    | exact Leaves.refl | apply Leaves.ite | refine (gooseHeard_leaves _ _ _).step rfl ?_
    | refine (latchRequest_leaves _ _).step rfl ?_ | refine (modGoose_leaves _ _ _).step rfl ?_
    | refine leaves_hst rfl ?_

theorem execGooseFrameReceived_leaves (g : GooseFrame) (s : State) :
    LeavesOut [.fresh, .rdg, .hst, .pwr, .gtr] s (execGooseFrameReceived g s) := by
  unfold execGooseFrameReceived
  exact leavesOut_next (netFrame_leaves rfl fun u => .forEach (fun v k => (gooseTake_leaves _ _ _).step rfl .refl) .refl)

theorem execGooseSubscriptionLost_leaves (k : Fin 24) (s : State) :
    LeavesOut [.fresh, .hst, .gtr] s (execGooseSubscriptionLost k s) := by
  unfold execGooseSubscriptionLost; dsimp only
  with_reducible repeat' first
    | exact Leaves.refl | split | apply leavesOut_next | refine (logEv_leaves _ _ _ _).step rfl ?_
    | refine (modGoose_leaves _ _ _).step rfl ?_

/-! ## Batten -/

theorem deferWork_leaves (s : State) (w : Work) : Leaves [.fresh, .bat, .hst, .gtr] s (deferWork s w) := by
  unfold deferWork
  with_reducible repeat' first
    | exact Leaves.refl | apply Leaves.ite | refine (poolDropped_leaves _ _).step rfl ?_
    | refine (logEv_leaves _ _ _ _).step rfl ?_ | refine leaves_bat rfl ?_

theorem endRunning_leaves (s : State) (cycle : Nat) : Leaves [.bat, .pgr] s (endRunning s cycle) := by
  unfold endRunning
  with_reducible repeat' first
    | exact Leaves.refl | split | apply Leaves.ite | refine leaves_pgr rfl ?_ | refine leaves_bat rfl ?_

theorem deferRest_leaves (s : State) : Leaves [.fresh, .bat, .hst, .gtr] s (deferRest s) := by
  unfold deferRest
  with_reducible repeat' first
    | exact Leaves.refl | (apply Leaves.forEach; intro u a) | refine (deferWork_leaves _ _).step rfl ?_
    | refine leaves_bat rfl ?_

theorem suspend_leaves (s : State) : Leaves [.fresh, .bat, .hst, .gtr] s (suspend s) := by
  unfold suspend
  with_reducible repeat' first
    | exact Leaves.refl | split | apply Leaves.ite | refine (deferWork_leaves _ _).step rfl ?_
    | refine leaves_bat rfl ?_

theorem taskRun_leaves (s : State) (e : SlotEntry) (adc : AdcSample) :
    Leaves [.fresh, .nor, .mram, .psram, .img, .cfg, .bat, .owl, .tha, .est, .led, .pgr, .rdg, .spar, .cpr, .priv, .eav,
      .hst, .can, .vrg, .fbk, .pwr, .cdc, .gtr] s (taskRun s e adc) := by
  unfold taskRun
  with_reducible repeat' first
    | exact Leaves.refl | split | refine (hostReservedRun_leaves _ _).step rfl ?_
    | refine (hostPoolRun_leaves _ _).step rfl ?_ | refine (gooseSlot_leaves _).step rfl ?_
    | refine (gutterRoute_leaves _).step rfl ?_ | refine (histPageRun_leaves _).step rfl ?_
    | refine (pageDemandRun_leaves _ _).step rfl ?_ | refine (learnRun_leaves _).step rfl ?_
    | refine (impRun_leaves _).step rfl ?_ | refine (housekeeping_leaves _ _).step rfl ?_
    | refine (openWireSlot_leaves _).step rfl ?_ | refine (ledgerRun_leaves _).step rfl ?_

theorem startWork_leaves (s : State) (w : Work) (adc : AdcSample) :
    Leaves [.fresh, .nor, .mram, .psram, .img, .cfg, .bat, .owl, .tha, .est, .led, .pgr, .rdg, .spar, .cpr, .priv, .eav,
      .hst, .can, .vrg, .fbk, .pwr, .cdc, .gtr] s (startWork s w adc) := by
  unfold startWork
  with_reducible repeat' first
    | exact Leaves.refl | apply Leaves.ite | refine (taskRun_leaves _ _ _).step rfl ?_ | refine leaves_bat rfl ?_

theorem startNext_leaves (s : State) (cycle : Nat) (adc : AdcSample) (x3 : List Work) :
    Leaves [.fresh, .nor, .mram, .psram, .img, .cfg, .bat, .owl, .tha, .est, .led, .pgr, .rdg, .spar, .cpr, .priv, .eav,
      .hst, .can, .vrg, .fbk, .pwr, .cdc, .gtr] s (startNext s cycle adc x3) := by
  induction x3 generalizing s with
  | nil => exact leaves_bat rfl .refl
  | cons w l ih =>
    unfold startNext
    exact .ite ((startWork_leaves _ w adc).step rfl (leaves_bat rfl .refl))
      (.ite (((deferWork_leaves _ w).step rfl (leaves_bat rfl .refl)).trans (ih _))
        (.ite (leaves_bat_pwr rfl (leaves_bat rfl .refl)) ((startWork_leaves _ w adc).step rfl (leaves_bat rfl .refl))))

theorem execSlotEntryStart_leaves (cycle : Nat) (adc : AdcSample) (s : State) :
    LeavesOut [.fresh, .nor, .mram, .psram, .img, .cfg, .bat, .owl, .tha, .est, .led, .pgr, .rdg, .spar, .cpr, .priv,
      .eav, .hst, .can, .vrg, .fbk, .pwr, .cdc, .gtr] s (execSlotEntryStart cycle adc s) := by
  unfold execSlotEntryStart
  with_reducible repeat' first
    | exact Leaves.refl | split | apply leavesOut_fault | apply leavesOut_next
    | refine (deferRest_leaves _).step rfl ?_ | refine (endRunning_leaves _ _).step rfl ?_
    | refine (startNext_leaves _ _ _ _).step rfl ?_ | refine leaves_pwr rfl ?_

theorem execThrottlePauseEnd_leaves (s : State) : LeavesOut [.bat, .pwr] s (execThrottlePauseEnd s) := by
  unfold execThrottlePauseEnd
  with_reducible repeat' first
    | exact Leaves.refl | split | apply leavesOut_next | refine leaves_bat_pwr rfl ?_

theorem criticalOverrun_leaves (s : State) (w : Work) (e : SlotEntry) :
    Leaves [.fresh, .img, .bat, .owl, .est, .led, .pgr, .rdg, .cpr, .priv, .eav, .hst, .can, .gtr] s (criticalOverrun s w
      e) := by
  unfold criticalOverrun
  with_reducible repeat' first
    | exact Leaves.refl | apply Leaves.ite | refine (logEv_leaves _ _ _ _).step rfl ?_ | split
    | refine (mismatch_leaves _ _ _).step rfl ?_ | refine leaves_of_snd (by assumption) ?_
    | refine (freeKind_leaves _).step rfl ?_ | refine leaves_bat rfl ?_

theorem execSlotWcetReached_leaves (s : State) :
    LeavesOut [.fresh, .img, .bat, .owl, .est, .led, .pgr, .rdg, .cpr, .priv, .eav, .hst, .can, .gtr] s
      (execSlotWcetReached s) := by
  unfold execSlotWcetReached; dsimp only
  with_reducible repeat' first
    | exact Leaves.refl | split | apply leavesOut_next | refine (criticalOverrun_leaves _ _ _).step rfl ?_
    | refine (logEv_leaves _ _ _ _).step rfl ?_ | refine leaves_bat_pgr rfl ?_ | refine leaves_bat rfl ?_

theorem execFixedSlotDeadlineMiss_leaves (slot : Fin 9) (s : State) :
    LeavesOut [.fresh, .img, .bat, .owl, .est, .led, .pgr, .rdg, .cpr, .priv, .eav, .hst, .can, .gtr] s
      (execFixedSlotDeadlineMiss slot s) := by
  unfold execFixedSlotDeadlineMiss
  with_reducible repeat' first
    | exact Leaves.refl | split | apply leavesOut_next | apply Leaves.ite
    | refine (recordShadow_leaves _ _ _).step rfl ?_ | refine leaves_of_snd (by assumption) ?_
    | refine (fixedPart_leaves _ _).step rfl ?_ | refine (freeKind_leaves _).step rfl ?_
    | refine (protectiveMismatch_leaves _ _ _).step rfl ?_ | refine leaves_bat rfl ?_

theorem ceilingWork_leaves (s : State) : Leaves [.fresh, .bat, .hst, .gtr] s (ceilingWork s) := by
  unfold ceilingWork
  with_reducible repeat' first
    | exact Leaves.refl | refine (deferRest_leaves _).step rfl ?_ | refine (suspend_leaves _).step rfl ?_
    | refine leaves_bat rfl ?_

theorem execCeilingReached_leaves (s : State) :
    LeavesOut [.fresh, .bat, .hst, .gtr] s (execCeilingReached s) := by
  unfold execCeilingReached
  with_reducible repeat' first
    | exact Leaves.refl | split | apply leavesOut_next | refine (ceilingWork_leaves _).step rfl ?_

theorem execDozeWake_leaves (s : State) : LeavesOut [.pwr] s (execDozeWake s) := by
  unfold execDozeWake
  with_reducible repeat' first
    | exact Leaves.refl | split | apply leavesOut_next | refine leaves_pwr rfl ?_

theorem execThatchUpdate_leaves (s : State) :
    LeavesOut [.fresh, .bat, .owl, .tha, .est, .led, .pgr, .gtr] s (execThatchUpdate s) := by
  unfold execThatchUpdate
  with_reducible repeat' first
    | exact Leaves.refl | split | apply leavesOut_next | apply Leaves.ite
    | refine (freezeSnapshot_leaves _).step rfl ?_ | (apply Leaves.forEach; intro u a)
    | refine (quietBatten_leaves _ _).step rfl ?_ | refine (thatchUpdate_leaves _).step rfl ?_
    | refine (endSlot_leaves _ _).step rfl ?_ | refine leaves_led_pgr rfl ?_

theorem gateWord_leaves (s : State) (w : IntentWord) : Leaves [.fresh, .eav, .cdc, .gtr] s (gateWord s w) := by
  unfold gateWord
  with_reducible repeat' first
    | exact Leaves.refl | apply Leaves.ite | refine (crossWord_leaves _ _).step rfl ?_ | refine leaves_eav rfl ?_

theorem execOutputIntentWrite_leaves (s : State) :
    LeavesOut [.fresh, .bat, .eav, .pwr, .cdc, .gtr] s (execOutputIntentWrite s) := by
  unfold execOutputIntentWrite; dsimp only
  with_reducible repeat' first
    | exact Leaves.refl | split | apply leavesOut_next | refine (gateWord_leaves _ _).step rfl ?_
    | refine (endSlot_leaves _ _).step rfl ?_ | refine leaves_pwr rfl ?_

theorem execCheckpointA_leaves (obs : CheckObs) (s : State) :
    LeavesOut [.fresh, .nor, .psram, .img, .bat, .owl, .est, .led, .pgr, .rdg, .cpr, .priv, .eav, .hst, .can, .gtr] s
      (execCheckpointA obs s) := by
  unfold execCheckpointA
  with_reducible repeat' first
    | exact Leaves.refl | split | apply leavesOut_next | refine (checkpoint_leaves _ _ _).step rfl ?_
    | refine (endSlot_leaves _ _).step rfl ?_

theorem execClosingCheckpoint_leaves (cycle : Nat) (obs : CheckObs) (s : State) :
    LeavesOut [.fresh, .nor, .psram, .img, .bat, .owl, .est, .led, .pgr, .rdg, .spar, .cpr, .priv, .eav, .hst, .can, .pwr,
      .cdc, .gtr] s (execClosingCheckpoint cycle obs s) := by
  unfold execClosingCheckpoint
  with_reducible repeat' first
    | exact Leaves.refl | split | apply leavesOut_fault | apply leavesOut_next | apply Leaves.ite
    | refine (powerCheckpoint_leaves _).step rfl ?_ | refine (checkpoint_leaves _ _ _).step rfl ?_
    | refine (ceilingWork_leaves _).step rfl ?_ | refine (deferRest_leaves _).step rfl ?_
    | refine (endRunning_leaves _ _).step rfl ?_ | refine leaves_bat rfl ?_ | refine leaves_pwr rfl ?_

theorem closeBatten_leaves (s : State) : Leaves [.fresh, .bat, .hst, .gtr] s (closeBatten s) := by
  unfold closeBatten
  with_reducible repeat' first
    | exact Leaves.refl | refine (deferRest_leaves _).step rfl ?_ | refine (suspend_leaves _).step rfl ?_

theorem battenEnds_leaves (s : State) :
    Leaves [.fresh, .bat, .owl, .tha, .est, .pgr, .hst, .vrg, .gtr] s (battenEnds s) := by
  unfold battenEnds
  with_reducible repeat' first
    | exact Leaves.refl | refine (closeBatten_leaves _).step rfl ?_ | refine (histBatten_leaves _).step rfl ?_
    | refine (vergeBattenEnd_leaves _).step rfl ?_ | refine (impBattenEnd_leaves _).step rfl ?_

theorem resumeCores_leaves (s : State) : Leaves [.rdg, .cpr] s (resumeCores s) := by
  unfold resumeCores
  with_reducible repeat' first
    | exact Leaves.refl | apply Leaves.ite | refine leaves_rdg_cpr rfl ?_ | refine leaves_cpr rfl ?_

theorem courseEdge_leaves (s : State) :
    Leaves [.fresh, .img, .bat, .owl, .tha, .est, .led, .pgr, .rdg, .cpr, .priv, .eav, .hst, .can, .pwr, .gtr] s
      (courseEdge s) := by
  unfold courseEdge
  with_reducible repeat' first
    | exact Leaves.refl | apply Leaves.ite | refine (oweLedger_leaves _ _).step rfl ?_
    | refine (wireUpdate_leaves _).step rfl ?_ | refine (balanceCompute_leaves _).step rfl ?_
    | refine (wakeRoundStep_leaves _).step rfl ?_ | refine (splitEdge_leaves _).step rfl ?_
    | refine (periodicDue_leaves _).step rfl ?_ | (apply Leaves.forEach; intro u a)
    | refine (bleedCourse_leaves _ _).step rfl ?_ | refine (thatchCourse_leaves _).step rfl ?_
    | refine (proveCourse_leaves _ _).step rfl ?_ | refine (handOver_leaves _).step rfl ?_

theorem latchEdge_leaves (s : State) : Leaves [.fresh, .rdg, .pwr, .gtr] s (latchEdge s) := by
  unfold latchEdge
  with_reducible repeat' first
    | exact Leaves.refl | apply Leaves.ite | refine (abandonEntry_leaves _).step rfl ?_ | refine leaves_pwr rfl ?_
    | refine leaves_rdg rfl ?_

theorem downlink_leaves (s : State) (p : Nat) : Leaves [.owl, .tha] s (downlink s p) := by
  unfold downlink
  with_reducible repeat' first
    | exact Leaves.refl | apply Leaves.ite | refine (sleepCmd_leaves _ _).step rfl ?_
    | refine (balanceEdge_leaves _ _).step rfl ?_

theorem keepCurrent_leaves (s : State) (k : Nat) : Leaves [.rdg] s (keepCurrent s k) := by
  unfold keepCurrent
  with_reducible repeat' first
    | exact Leaves.refl | apply Leaves.ite | refine (modStr_leaves _ _ _).step rfl ?_

theorem clearBatten_leaves (s : State) :
    Leaves [.bat, .spar, .cpr, .hst, .can, .fbk, .pwr, .cdc] s (clearBatten s) := by
  unfold clearBatten
  with_reducible repeat' first
    | exact Leaves.refl | refine (crossDrain_leaves _).step rfl ?_ | refine leaves_bat_spar_cpr_hst_can_fbk_pwr rfl ?_

theorem stopEdge_leaves (s : State) : Leaves [.pwr] s (stopEdge s) := by
  unfold stopEdge
  with_reducible repeat' first
    | exact Leaves.refl | apply Leaves.ite | refine leaves_pwr rfl ?_

theorem edgeWork_leaves (s : State) :
    Leaves [.fresh, .img, .bat, .owl, .tha, .est, .led, .pgr, .rdg, .spar, .cpr, .priv, .eav, .hst, .can, .vrg, .fbk,
      .pwr, .cdc, .gtr] s (edgeWork s) := by
  unfold edgeWork
  with_reducible repeat' first
    | exact Leaves.refl | apply Leaves.ite | refine (jobRequests_leaves _).step rfl ?_
    | refine (chooseMaster_leaves _).step rfl ?_ | (apply Leaves.forEach; intro u a)
    | refine (keepCurrent_leaves _ _).step rfl ?_ | refine (stopEdge_leaves _).step rfl ?_
    | refine (pulseCharge_leaves _ _).step rfl ?_ | refine (downlink_leaves _ _).step rfl ?_
    | refine (beginLast_leaves _).step rfl ?_ | refine (entryCheck_leaves _).step rfl ?_
    | refine (latchEdge_leaves _).step rfl ?_ | refine (clearBatten_leaves _).step rfl ?_
    | refine (bleedEdge_leaves _ _).step rfl ?_ | refine (histClose_leaves _).step rfl ?_
    | refine (courseEdge_leaves _).step rfl ?_ | refine (sparGates_leaves _).step rfl ?_
    | refine (serviceEdge_leaves _ _).step rfl ?_ | refine (openExchange_leaves _ _).step rfl ?_
    | refine (vergeBattenStart_leaves _).step rfl ?_ | refine (resumeCores_leaves _).step rfl ?_
    | refine (canNotFormed_leaves _).step rfl ?_ | refine leaves_owl rfl ?_ | refine leaves_bat rfl ?_

theorem advance_leaves (s : State) :
    Leaves [.fresh, .bat, .owl, .tha, .est, .pgr, .hst, .vrg, .gtr] s (advance s) := by
  unfold advance
  with_reducible repeat' first
    | exact Leaves.refl | apply Leaves.ite | refine (battenEnds_leaves _).step rfl ?_ | refine leaves_bat rfl ?_

theorem execBattenEdge_leaves (s : State) :
    LeavesOut [.fresh, .img, .bat, .owl, .tha, .est, .led, .pgr, .rdg, .spar, .cpr, .priv, .eav, .hst, .can, .vrg, .fbk,
      .pwr, .cdc, .gtr] s (execBattenEdge s) := by
  unfold execBattenEdge; dsimp only
  with_reducible repeat' first
    | exact Leaves.refl | split | apply leavesOut_next | refine (haltCores_leaves _).step rfl ?_
    | refine (advance_leaves _).step rfl ?_ | refine (restartEdge_leaves _).step rfl ?_
    | refine (edgeWork_leaves _).step rfl ?_

/-! ## Debug -/

theorem haltLead_leaves (s : State) (lead : CoreTrace) (check : CoreTrace) (running : Fin 8) :
    Leaves [.cpr, .priv] s (haltLead s lead check running) := by
  unfold haltLead
  with_reducible repeat' first
    | exact Leaves.refl | split | refine leaves_of_fst (by assumption) ?_
    | refine (runCores_leaves _ _ _ _).step rfl ?_ | refine leaves_cpr rfl ?_

theorem debugAnswer_leaves (s : State) (w : Word) : Leaves [.cpr] s (debugAnswer s w) := by
  unfold debugAnswer
  with_reducible repeat' first
    | exact Leaves.refl | refine leaves_cpr rfl ?_

theorem debugBench_leaves (s : State) (op : DebugOp) :
    LeavesOut [.fresh, .bat, .cpr, .priv] s (debugBench s op) := by
  unfold debugBench
  with_reducible repeat' first
    | exact Leaves.refl | split | apply leavesOut_next | apply Leaves.ite
    | refine (haltLead_leaves _ _ _ _).step rfl ?_ | refine (debugAnswer_leaves _ _).step rfl ?_
    | apply leavesOut_refused | refine leaves_bat_cpr rfl ?_ | refine leaves_fresh rfl ?_ | refine leaves_cpr rfl ?_

theorem execDebugInstruction_leaves (op : DebugOp) (s : State) :
    LeavesOut [.fresh, .bat, .cpr, .priv] s (execDebugInstruction op s) := by
  unfold execDebugInstruction
  split
  · exact leavesOut_next ((debugAnswer_leaves _ _).step rfl (leaves_fresh rfl .refl))
  · exact leavesOut_next .refl
  · split
    · exact leavesOut_step (debugBench_leaves _ _) rfl .refl
    · exact leavesOut_next .refl

theorem editShared_leaves (s : State) (e : DebugEdit) :
    Leaves [.fresh, .nor, .mram, .psram, .img, .cfg, .bat, .owl, .tha, .est, .led, .pgr, .rdg, .spar, .cpr, .priv, .eav,
      .hst, .can, .vrg, .fbk, .pwr, .cdc, .gtr] s (editShared s e) := by
  unfold editShared
  with_reducible repeat' first
    | exact Leaves.refl | split | refine (writeRow_leaves _ _ _ _).step rfl ?_

theorem execDebugChange_leaves (edit : DebugEdit) (s : State) :
    LeavesOut [.fresh, .nor, .mram, .psram, .img, .cfg, .bat, .owl, .tha, .est, .led, .pgr, .rdg, .spar, .cpr, .priv,
      .eav, .hst, .can, .vrg, .fbk, .pwr, .cdc, .gtr] s (execDebugChange edit s) := by
  unfold execDebugChange
  dsimp only
  split
  · exact leavesOut_next ((editShared_leaves _ _).step rfl (leaves_cpr_priv rfl (fun w => ⟨editCore_wf _ w.2.2.2.1, w.2.2.2.2⟩) .refl))
  · exact leavesOut_next .refl

end Sys2Proof.Machine
end

