-- ==== Sys2Proof/Laws/State.lean ====
section
/-! SUPPORT. The state's fields after each named update: what the update leaves is left, and the record updated reads as
updated. -/

namespace Sys2Proof

/-! ## Vectors and masks -/

@[simp] theorem vget_vset_same {α : Type} [Inhabited α] {n : Nat} (v : Vector α n) {i : Nat} (x : α) (h : i < n) :
    vget (vset v i x) i = x := by simp [vget, vset, h]

@[simp] theorem vget_vset_ne {α : Type} [Inhabited α] {n : Nat} (v : Vector α n) {i j : Nat} (x : α) (h : j ≠ i) :
    vget (vset v i x) j = vget v j := by
  unfold vget vset
  split
  · split
    · rw [Vector.getElem_set_ne _ _ (Ne.symm h)]
    · rfl
  · rfl

@[simp] theorem vget_vmod_same {α : Type} [Inhabited α] {n : Nat} (v : Vector α n) {i : Nat} (f : α → α) (h : i < n) :
    vget (vmod v i f) i = f (vget v i) := vget_vset_same v _ h

@[simp] theorem vget_vmod_ne {α : Type} [Inhabited α] {n : Nat} (v : Vector α n) {i j : Nat} (f : α → α) (h : j ≠ i) :
    vget (vmod v i f) j = vget v j := vget_vset_ne v _ h

/-- A bit of a mask after one bit is set or cleared. -/
theorem getLsbD_setBit {w : Nat} (m : BitVec w) (i j : Nat) (b : Bool) :
    (setBit m i b).getLsbD j = if j = i ∧ j < w then b else m.getLsbD j := by
  by_cases c : j = i ∧ j < w
  · rw [if_pos c]
    obtain ⟨rfl, h⟩ := c
    cases b <;> simp [setBit, h]
  · rw [if_neg c]
    by_cases hj : j < w
    · have e : j < i ∨ j - i ≠ 0 := by omega
      cases b <;> rcases e with h | h <;> simp [setBit, hj, h]
    · cases b <;> simp [setBit, BitVec.getLsbD_of_ge _ _ (Nat.le_of_not_lt hj)]

namespace Machine

/-! ## Named updates -/

@[simp] theorem modPort_pending (s : State) (p : Nat) (f : Port → Port) : (modPort s p f).pending = s.pending := rfl
@[simp] theorem modPort_fresh (s : State) (p : Nat) (f : Port → Port) : (modPort s p f).fresh = s.fresh := rfl
@[simp] theorem modPort_lands (s : State) (p : Nat) (f : Port → Port) : (modPort s p f).lands = s.lands := rfl
@[simp] theorem modPort_nor (s : State) (p : Nat) (f : Port → Port) : (modPort s p f).nor = s.nor := rfl
@[simp] theorem modPort_mram (s : State) (p : Nat) (f : Port → Port) : (modPort s p f).mram = s.mram := rfl
@[simp] theorem modPort_psram (s : State) (p : Nat) (f : Port → Port) : (modPort s p f).psram = s.psram := rfl
@[simp] theorem modPort_img (s : State) (p : Nat) (f : Port → Port) : (modPort s p f).img = s.img := rfl
@[simp] theorem modPort_cfg (s : State) (p : Nat) (f : Port → Port) : (modPort s p f).cfg = s.cfg := rfl
@[simp] theorem modPort_bat (s : State) (p : Nat) (f : Port → Port) : (modPort s p f).bat = s.bat := rfl
@[simp] theorem modPort_tha (s : State) (p : Nat) (f : Port → Port) : (modPort s p f).tha = s.tha := rfl
@[simp] theorem modPort_est (s : State) (p : Nat) (f : Port → Port) : (modPort s p f).est = s.est := rfl
@[simp] theorem modPort_led (s : State) (p : Nat) (f : Port → Port) : (modPort s p f).led = s.led := rfl
@[simp] theorem modPort_pgr (s : State) (p : Nat) (f : Port → Port) : (modPort s p f).pgr = s.pgr := rfl
@[simp] theorem modPort_rdg (s : State) (p : Nat) (f : Port → Port) : (modPort s p f).rdg = s.rdg := rfl
@[simp] theorem modPort_spar (s : State) (p : Nat) (f : Port → Port) : (modPort s p f).spar = s.spar := rfl
@[simp] theorem modPort_cpr (s : State) (p : Nat) (f : Port → Port) : (modPort s p f).cpr = s.cpr := rfl
@[simp] theorem modPort_priv (s : State) (p : Nat) (f : Port → Port) : (modPort s p f).priv = s.priv := rfl
@[simp] theorem modPort_eav (s : State) (p : Nat) (f : Port → Port) : (modPort s p f).eav = s.eav := rfl
@[simp] theorem modPort_hst (s : State) (p : Nat) (f : Port → Port) : (modPort s p f).hst = s.hst := rfl
@[simp] theorem modPort_can (s : State) (p : Nat) (f : Port → Port) : (modPort s p f).can = s.can := rfl
@[simp] theorem modPort_vrg (s : State) (p : Nat) (f : Port → Port) : (modPort s p f).vrg = s.vrg := rfl
@[simp] theorem modPort_fbk (s : State) (p : Nat) (f : Port → Port) : (modPort s p f).fbk = s.fbk := rfl
@[simp] theorem modPort_pwr (s : State) (p : Nat) (f : Port → Port) : (modPort s p f).pwr = s.pwr := rfl
@[simp] theorem modPort_cdc (s : State) (p : Nat) (f : Port → Port) : (modPort s p f).cdc = s.cdc := rfl
@[simp] theorem modPort_gtr (s : State) (p : Nat) (f : Port → Port) : (modPort s p f).gtr = s.gtr := rfl
@[simp] theorem portOf_modPort (s : State) {p : Nat} (f : Port → Port) (h : p < 32) :
    portOf (modPort s p f) p = f (portOf s p) := vget_vmod_same _ f h
@[simp] theorem portOf_modPort_ne (s : State) {p j : Nat} (f : Port → Port) (h : j ≠ p) :
    portOf (modPort s p f) j = portOf s j := vget_vmod_ne _ f h

@[simp] theorem modCell_pending (s : State) (c : Nat) (f : CellRec → CellRec) : (modCell s c f).pending = s.pending := rfl
@[simp] theorem modCell_fresh (s : State) (c : Nat) (f : CellRec → CellRec) : (modCell s c f).fresh = s.fresh := rfl
@[simp] theorem modCell_lands (s : State) (c : Nat) (f : CellRec → CellRec) : (modCell s c f).lands = s.lands := rfl
@[simp] theorem modCell_nor (s : State) (c : Nat) (f : CellRec → CellRec) : (modCell s c f).nor = s.nor := rfl
@[simp] theorem modCell_mram (s : State) (c : Nat) (f : CellRec → CellRec) : (modCell s c f).mram = s.mram := rfl
@[simp] theorem modCell_psram (s : State) (c : Nat) (f : CellRec → CellRec) : (modCell s c f).psram = s.psram := rfl
@[simp] theorem modCell_img (s : State) (c : Nat) (f : CellRec → CellRec) : (modCell s c f).img = s.img := rfl
@[simp] theorem modCell_cfg (s : State) (c : Nat) (f : CellRec → CellRec) : (modCell s c f).cfg = s.cfg := rfl
@[simp] theorem modCell_bat (s : State) (c : Nat) (f : CellRec → CellRec) : (modCell s c f).bat = s.bat := rfl
@[simp] theorem modCell_owl (s : State) (c : Nat) (f : CellRec → CellRec) : (modCell s c f).owl = s.owl := rfl
@[simp] theorem modCell_est (s : State) (c : Nat) (f : CellRec → CellRec) : (modCell s c f).est = s.est := rfl
@[simp] theorem modCell_led (s : State) (c : Nat) (f : CellRec → CellRec) : (modCell s c f).led = s.led := rfl
@[simp] theorem modCell_pgr (s : State) (c : Nat) (f : CellRec → CellRec) : (modCell s c f).pgr = s.pgr := rfl
@[simp] theorem modCell_rdg (s : State) (c : Nat) (f : CellRec → CellRec) : (modCell s c f).rdg = s.rdg := rfl
@[simp] theorem modCell_spar (s : State) (c : Nat) (f : CellRec → CellRec) : (modCell s c f).spar = s.spar := rfl
@[simp] theorem modCell_cpr (s : State) (c : Nat) (f : CellRec → CellRec) : (modCell s c f).cpr = s.cpr := rfl
@[simp] theorem modCell_priv (s : State) (c : Nat) (f : CellRec → CellRec) : (modCell s c f).priv = s.priv := rfl
@[simp] theorem modCell_eav (s : State) (c : Nat) (f : CellRec → CellRec) : (modCell s c f).eav = s.eav := rfl
@[simp] theorem modCell_hst (s : State) (c : Nat) (f : CellRec → CellRec) : (modCell s c f).hst = s.hst := rfl
@[simp] theorem modCell_can (s : State) (c : Nat) (f : CellRec → CellRec) : (modCell s c f).can = s.can := rfl
@[simp] theorem modCell_vrg (s : State) (c : Nat) (f : CellRec → CellRec) : (modCell s c f).vrg = s.vrg := rfl
@[simp] theorem modCell_fbk (s : State) (c : Nat) (f : CellRec → CellRec) : (modCell s c f).fbk = s.fbk := rfl
@[simp] theorem modCell_pwr (s : State) (c : Nat) (f : CellRec → CellRec) : (modCell s c f).pwr = s.pwr := rfl
@[simp] theorem modCell_cdc (s : State) (c : Nat) (f : CellRec → CellRec) : (modCell s c f).cdc = s.cdc := rfl
@[simp] theorem modCell_gtr (s : State) (c : Nat) (f : CellRec → CellRec) : (modCell s c f).gtr = s.gtr := rfl

@[simp] theorem modStr_pending (s : State) (k : Nat) (f : Str → Str) : (modStr s k f).pending = s.pending := rfl
@[simp] theorem modStr_fresh (s : State) (k : Nat) (f : Str → Str) : (modStr s k f).fresh = s.fresh := rfl
@[simp] theorem modStr_lands (s : State) (k : Nat) (f : Str → Str) : (modStr s k f).lands = s.lands := rfl
@[simp] theorem modStr_nor (s : State) (k : Nat) (f : Str → Str) : (modStr s k f).nor = s.nor := rfl
@[simp] theorem modStr_mram (s : State) (k : Nat) (f : Str → Str) : (modStr s k f).mram = s.mram := rfl
@[simp] theorem modStr_psram (s : State) (k : Nat) (f : Str → Str) : (modStr s k f).psram = s.psram := rfl
@[simp] theorem modStr_img (s : State) (k : Nat) (f : Str → Str) : (modStr s k f).img = s.img := rfl
@[simp] theorem modStr_cfg (s : State) (k : Nat) (f : Str → Str) : (modStr s k f).cfg = s.cfg := rfl
@[simp] theorem modStr_bat (s : State) (k : Nat) (f : Str → Str) : (modStr s k f).bat = s.bat := rfl
@[simp] theorem modStr_owl (s : State) (k : Nat) (f : Str → Str) : (modStr s k f).owl = s.owl := rfl
@[simp] theorem modStr_tha (s : State) (k : Nat) (f : Str → Str) : (modStr s k f).tha = s.tha := rfl
@[simp] theorem modStr_est (s : State) (k : Nat) (f : Str → Str) : (modStr s k f).est = s.est := rfl
@[simp] theorem modStr_led (s : State) (k : Nat) (f : Str → Str) : (modStr s k f).led = s.led := rfl
@[simp] theorem modStr_pgr (s : State) (k : Nat) (f : Str → Str) : (modStr s k f).pgr = s.pgr := rfl
@[simp] theorem modStr_spar (s : State) (k : Nat) (f : Str → Str) : (modStr s k f).spar = s.spar := rfl
@[simp] theorem modStr_cpr (s : State) (k : Nat) (f : Str → Str) : (modStr s k f).cpr = s.cpr := rfl
@[simp] theorem modStr_priv (s : State) (k : Nat) (f : Str → Str) : (modStr s k f).priv = s.priv := rfl
@[simp] theorem modStr_eav (s : State) (k : Nat) (f : Str → Str) : (modStr s k f).eav = s.eav := rfl
@[simp] theorem modStr_hst (s : State) (k : Nat) (f : Str → Str) : (modStr s k f).hst = s.hst := rfl
@[simp] theorem modStr_can (s : State) (k : Nat) (f : Str → Str) : (modStr s k f).can = s.can := rfl
@[simp] theorem modStr_vrg (s : State) (k : Nat) (f : Str → Str) : (modStr s k f).vrg = s.vrg := rfl
@[simp] theorem modStr_fbk (s : State) (k : Nat) (f : Str → Str) : (modStr s k f).fbk = s.fbk := rfl
@[simp] theorem modStr_pwr (s : State) (k : Nat) (f : Str → Str) : (modStr s k f).pwr = s.pwr := rfl
@[simp] theorem modStr_cdc (s : State) (k : Nat) (f : Str → Str) : (modStr s k f).cdc = s.cdc := rfl
@[simp] theorem modStr_gtr (s : State) (k : Nat) (f : Str → Str) : (modStr s k f).gtr = s.gtr := rfl
@[simp] theorem strOf_modStr (s : State) {k : Nat} (f : Str → Str) (h : k < 4) :
    strOf (modStr s k f) k = f (strOf s k) := vget_vmod_same _ f h
@[simp] theorem strOf_modStr_ne (s : State) {k j : Nat} (f : Str → Str) (h : j ≠ k) :
    strOf (modStr s k f) j = strOf s j := vget_vmod_ne _ f h

@[simp] theorem modChan_pending (s : State) (c : Nat) (f : Chan → Chan) : (modChan s c f).pending = s.pending := rfl
@[simp] theorem modChan_fresh (s : State) (c : Nat) (f : Chan → Chan) : (modChan s c f).fresh = s.fresh := rfl
@[simp] theorem modChan_lands (s : State) (c : Nat) (f : Chan → Chan) : (modChan s c f).lands = s.lands := rfl
@[simp] theorem modChan_nor (s : State) (c : Nat) (f : Chan → Chan) : (modChan s c f).nor = s.nor := rfl
@[simp] theorem modChan_mram (s : State) (c : Nat) (f : Chan → Chan) : (modChan s c f).mram = s.mram := rfl
@[simp] theorem modChan_psram (s : State) (c : Nat) (f : Chan → Chan) : (modChan s c f).psram = s.psram := rfl
@[simp] theorem modChan_img (s : State) (c : Nat) (f : Chan → Chan) : (modChan s c f).img = s.img := rfl
@[simp] theorem modChan_cfg (s : State) (c : Nat) (f : Chan → Chan) : (modChan s c f).cfg = s.cfg := rfl
@[simp] theorem modChan_bat (s : State) (c : Nat) (f : Chan → Chan) : (modChan s c f).bat = s.bat := rfl
@[simp] theorem modChan_owl (s : State) (c : Nat) (f : Chan → Chan) : (modChan s c f).owl = s.owl := rfl
@[simp] theorem modChan_tha (s : State) (c : Nat) (f : Chan → Chan) : (modChan s c f).tha = s.tha := rfl
@[simp] theorem modChan_est (s : State) (c : Nat) (f : Chan → Chan) : (modChan s c f).est = s.est := rfl
@[simp] theorem modChan_led (s : State) (c : Nat) (f : Chan → Chan) : (modChan s c f).led = s.led := rfl
@[simp] theorem modChan_pgr (s : State) (c : Nat) (f : Chan → Chan) : (modChan s c f).pgr = s.pgr := rfl
@[simp] theorem modChan_rdg (s : State) (c : Nat) (f : Chan → Chan) : (modChan s c f).rdg = s.rdg := rfl
@[simp] theorem modChan_spar (s : State) (c : Nat) (f : Chan → Chan) : (modChan s c f).spar = s.spar := rfl
@[simp] theorem modChan_cpr (s : State) (c : Nat) (f : Chan → Chan) : (modChan s c f).cpr = s.cpr := rfl
@[simp] theorem modChan_priv (s : State) (c : Nat) (f : Chan → Chan) : (modChan s c f).priv = s.priv := rfl
@[simp] theorem modChan_hst (s : State) (c : Nat) (f : Chan → Chan) : (modChan s c f).hst = s.hst := rfl
@[simp] theorem modChan_can (s : State) (c : Nat) (f : Chan → Chan) : (modChan s c f).can = s.can := rfl
@[simp] theorem modChan_vrg (s : State) (c : Nat) (f : Chan → Chan) : (modChan s c f).vrg = s.vrg := rfl
@[simp] theorem modChan_fbk (s : State) (c : Nat) (f : Chan → Chan) : (modChan s c f).fbk = s.fbk := rfl
@[simp] theorem modChan_pwr (s : State) (c : Nat) (f : Chan → Chan) : (modChan s c f).pwr = s.pwr := rfl
@[simp] theorem modChan_cdc (s : State) (c : Nat) (f : Chan → Chan) : (modChan s c f).cdc = s.cdc := rfl
@[simp] theorem modChan_gtr (s : State) (c : Nat) (f : Chan → Chan) : (modChan s c f).gtr = s.gtr := rfl
@[simp] theorem chanOf_modChan (s : State) {c : Nat} (f : Chan → Chan) (h : c < 24) :
    chanOf (modChan s c f) c = f (chanOf s c) := vget_vmod_same _ f h
@[simp] theorem chanOf_modChan_ne (s : State) {c j : Nat} (f : Chan → Chan) (h : j ≠ c) :
    chanOf (modChan s c f) j = chanOf s j := vget_vmod_ne _ f h

@[simp] theorem modSess_pending (s : State) (n : Nat) (f : Sess → Sess) : (modSess s n f).pending = s.pending := rfl
@[simp] theorem modSess_fresh (s : State) (n : Nat) (f : Sess → Sess) : (modSess s n f).fresh = s.fresh := rfl
@[simp] theorem modSess_lands (s : State) (n : Nat) (f : Sess → Sess) : (modSess s n f).lands = s.lands := rfl
@[simp] theorem modSess_nor (s : State) (n : Nat) (f : Sess → Sess) : (modSess s n f).nor = s.nor := rfl
@[simp] theorem modSess_mram (s : State) (n : Nat) (f : Sess → Sess) : (modSess s n f).mram = s.mram := rfl
@[simp] theorem modSess_psram (s : State) (n : Nat) (f : Sess → Sess) : (modSess s n f).psram = s.psram := rfl
@[simp] theorem modSess_img (s : State) (n : Nat) (f : Sess → Sess) : (modSess s n f).img = s.img := rfl
@[simp] theorem modSess_cfg (s : State) (n : Nat) (f : Sess → Sess) : (modSess s n f).cfg = s.cfg := rfl
@[simp] theorem modSess_bat (s : State) (n : Nat) (f : Sess → Sess) : (modSess s n f).bat = s.bat := rfl
@[simp] theorem modSess_owl (s : State) (n : Nat) (f : Sess → Sess) : (modSess s n f).owl = s.owl := rfl
@[simp] theorem modSess_tha (s : State) (n : Nat) (f : Sess → Sess) : (modSess s n f).tha = s.tha := rfl
@[simp] theorem modSess_est (s : State) (n : Nat) (f : Sess → Sess) : (modSess s n f).est = s.est := rfl
@[simp] theorem modSess_led (s : State) (n : Nat) (f : Sess → Sess) : (modSess s n f).led = s.led := rfl
@[simp] theorem modSess_pgr (s : State) (n : Nat) (f : Sess → Sess) : (modSess s n f).pgr = s.pgr := rfl
@[simp] theorem modSess_rdg (s : State) (n : Nat) (f : Sess → Sess) : (modSess s n f).rdg = s.rdg := rfl
@[simp] theorem modSess_spar (s : State) (n : Nat) (f : Sess → Sess) : (modSess s n f).spar = s.spar := rfl
@[simp] theorem modSess_cpr (s : State) (n : Nat) (f : Sess → Sess) : (modSess s n f).cpr = s.cpr := rfl
@[simp] theorem modSess_priv (s : State) (n : Nat) (f : Sess → Sess) : (modSess s n f).priv = s.priv := rfl
@[simp] theorem modSess_eav (s : State) (n : Nat) (f : Sess → Sess) : (modSess s n f).eav = s.eav := rfl
@[simp] theorem modSess_can (s : State) (n : Nat) (f : Sess → Sess) : (modSess s n f).can = s.can := rfl
@[simp] theorem modSess_vrg (s : State) (n : Nat) (f : Sess → Sess) : (modSess s n f).vrg = s.vrg := rfl
@[simp] theorem modSess_fbk (s : State) (n : Nat) (f : Sess → Sess) : (modSess s n f).fbk = s.fbk := rfl
@[simp] theorem modSess_pwr (s : State) (n : Nat) (f : Sess → Sess) : (modSess s n f).pwr = s.pwr := rfl
@[simp] theorem modSess_cdc (s : State) (n : Nat) (f : Sess → Sess) : (modSess s n f).cdc = s.cdc := rfl
@[simp] theorem modSess_gtr (s : State) (n : Nat) (f : Sess → Sess) : (modSess s n f).gtr = s.gtr := rfl
@[simp] theorem sessOf_modSess (s : State) {n : Nat} (f : Sess → Sess) (h : n < 8) :
    sessOf (modSess s n f) n = f (sessOf s n) := vget_vmod_same _ f h
@[simp] theorem sessOf_modSess_ne (s : State) {n j : Nat} (f : Sess → Sess) (h : j ≠ n) :
    sessOf (modSess s n f) j = sessOf s j := vget_vmod_ne _ f h

@[simp] theorem modCan_pending (s : State) (c : Nat) (f : Can → Can) : (modCan s c f).pending = s.pending := rfl
@[simp] theorem modCan_fresh (s : State) (c : Nat) (f : Can → Can) : (modCan s c f).fresh = s.fresh := rfl
@[simp] theorem modCan_lands (s : State) (c : Nat) (f : Can → Can) : (modCan s c f).lands = s.lands := rfl
@[simp] theorem modCan_nor (s : State) (c : Nat) (f : Can → Can) : (modCan s c f).nor = s.nor := rfl
@[simp] theorem modCan_mram (s : State) (c : Nat) (f : Can → Can) : (modCan s c f).mram = s.mram := rfl
@[simp] theorem modCan_psram (s : State) (c : Nat) (f : Can → Can) : (modCan s c f).psram = s.psram := rfl
@[simp] theorem modCan_img (s : State) (c : Nat) (f : Can → Can) : (modCan s c f).img = s.img := rfl
@[simp] theorem modCan_cfg (s : State) (c : Nat) (f : Can → Can) : (modCan s c f).cfg = s.cfg := rfl
@[simp] theorem modCan_bat (s : State) (c : Nat) (f : Can → Can) : (modCan s c f).bat = s.bat := rfl
@[simp] theorem modCan_owl (s : State) (c : Nat) (f : Can → Can) : (modCan s c f).owl = s.owl := rfl
@[simp] theorem modCan_tha (s : State) (c : Nat) (f : Can → Can) : (modCan s c f).tha = s.tha := rfl
@[simp] theorem modCan_est (s : State) (c : Nat) (f : Can → Can) : (modCan s c f).est = s.est := rfl
@[simp] theorem modCan_led (s : State) (c : Nat) (f : Can → Can) : (modCan s c f).led = s.led := rfl
@[simp] theorem modCan_pgr (s : State) (c : Nat) (f : Can → Can) : (modCan s c f).pgr = s.pgr := rfl
@[simp] theorem modCan_rdg (s : State) (c : Nat) (f : Can → Can) : (modCan s c f).rdg = s.rdg := rfl
@[simp] theorem modCan_spar (s : State) (c : Nat) (f : Can → Can) : (modCan s c f).spar = s.spar := rfl
@[simp] theorem modCan_cpr (s : State) (c : Nat) (f : Can → Can) : (modCan s c f).cpr = s.cpr := rfl
@[simp] theorem modCan_priv (s : State) (c : Nat) (f : Can → Can) : (modCan s c f).priv = s.priv := rfl
@[simp] theorem modCan_eav (s : State) (c : Nat) (f : Can → Can) : (modCan s c f).eav = s.eav := rfl
@[simp] theorem modCan_hst (s : State) (c : Nat) (f : Can → Can) : (modCan s c f).hst = s.hst := rfl
@[simp] theorem modCan_vrg (s : State) (c : Nat) (f : Can → Can) : (modCan s c f).vrg = s.vrg := rfl
@[simp] theorem modCan_fbk (s : State) (c : Nat) (f : Can → Can) : (modCan s c f).fbk = s.fbk := rfl
@[simp] theorem modCan_pwr (s : State) (c : Nat) (f : Can → Can) : (modCan s c f).pwr = s.pwr := rfl
@[simp] theorem modCan_cdc (s : State) (c : Nat) (f : Can → Can) : (modCan s c f).cdc = s.cdc := rfl
@[simp] theorem modCan_gtr (s : State) (c : Nat) (f : Can → Can) : (modCan s c f).gtr = s.gtr := rfl
@[simp] theorem canOf_modCan (s : State) {c : Nat} (f : Can → Can) (h : c < 2) :
    canOf (modCan s c f) c = f (canOf s c) := vget_vmod_same _ f h
@[simp] theorem canOf_modCan_ne (s : State) {c j : Nat} (f : Can → Can) (h : j ≠ c) :
    canOf (modCan s c f) j = canOf s j := vget_vmod_ne _ f h

@[simp] theorem modFbk_pending (s : State) (c : Nat) (f : Fbk → Fbk) : (modFbk s c f).pending = s.pending := rfl
@[simp] theorem modFbk_fresh (s : State) (c : Nat) (f : Fbk → Fbk) : (modFbk s c f).fresh = s.fresh := rfl
@[simp] theorem modFbk_lands (s : State) (c : Nat) (f : Fbk → Fbk) : (modFbk s c f).lands = s.lands := rfl
@[simp] theorem modFbk_nor (s : State) (c : Nat) (f : Fbk → Fbk) : (modFbk s c f).nor = s.nor := rfl
@[simp] theorem modFbk_mram (s : State) (c : Nat) (f : Fbk → Fbk) : (modFbk s c f).mram = s.mram := rfl
@[simp] theorem modFbk_psram (s : State) (c : Nat) (f : Fbk → Fbk) : (modFbk s c f).psram = s.psram := rfl
@[simp] theorem modFbk_img (s : State) (c : Nat) (f : Fbk → Fbk) : (modFbk s c f).img = s.img := rfl
@[simp] theorem modFbk_cfg (s : State) (c : Nat) (f : Fbk → Fbk) : (modFbk s c f).cfg = s.cfg := rfl
@[simp] theorem modFbk_bat (s : State) (c : Nat) (f : Fbk → Fbk) : (modFbk s c f).bat = s.bat := rfl
@[simp] theorem modFbk_owl (s : State) (c : Nat) (f : Fbk → Fbk) : (modFbk s c f).owl = s.owl := rfl
@[simp] theorem modFbk_tha (s : State) (c : Nat) (f : Fbk → Fbk) : (modFbk s c f).tha = s.tha := rfl
@[simp] theorem modFbk_est (s : State) (c : Nat) (f : Fbk → Fbk) : (modFbk s c f).est = s.est := rfl
@[simp] theorem modFbk_led (s : State) (c : Nat) (f : Fbk → Fbk) : (modFbk s c f).led = s.led := rfl
@[simp] theorem modFbk_pgr (s : State) (c : Nat) (f : Fbk → Fbk) : (modFbk s c f).pgr = s.pgr := rfl
@[simp] theorem modFbk_rdg (s : State) (c : Nat) (f : Fbk → Fbk) : (modFbk s c f).rdg = s.rdg := rfl
@[simp] theorem modFbk_spar (s : State) (c : Nat) (f : Fbk → Fbk) : (modFbk s c f).spar = s.spar := rfl
@[simp] theorem modFbk_cpr (s : State) (c : Nat) (f : Fbk → Fbk) : (modFbk s c f).cpr = s.cpr := rfl
@[simp] theorem modFbk_priv (s : State) (c : Nat) (f : Fbk → Fbk) : (modFbk s c f).priv = s.priv := rfl
@[simp] theorem modFbk_eav (s : State) (c : Nat) (f : Fbk → Fbk) : (modFbk s c f).eav = s.eav := rfl
@[simp] theorem modFbk_hst (s : State) (c : Nat) (f : Fbk → Fbk) : (modFbk s c f).hst = s.hst := rfl
@[simp] theorem modFbk_can (s : State) (c : Nat) (f : Fbk → Fbk) : (modFbk s c f).can = s.can := rfl
@[simp] theorem modFbk_vrg (s : State) (c : Nat) (f : Fbk → Fbk) : (modFbk s c f).vrg = s.vrg := rfl
@[simp] theorem modFbk_pwr (s : State) (c : Nat) (f : Fbk → Fbk) : (modFbk s c f).pwr = s.pwr := rfl
@[simp] theorem modFbk_cdc (s : State) (c : Nat) (f : Fbk → Fbk) : (modFbk s c f).cdc = s.cdc := rfl
@[simp] theorem modFbk_gtr (s : State) (c : Nat) (f : Fbk → Fbk) : (modFbk s c f).gtr = s.gtr := rfl
@[simp] theorem fbkOf_modFbk (s : State) {c : Nat} (f : Fbk → Fbk) (h : c < 4) :
    fbkOf (modFbk s c f) c = f (fbkOf s c) := vget_vmod_same _ f h
@[simp] theorem fbkOf_modFbk_ne (s : State) {c j : Nat} (f : Fbk → Fbk) (h : j ≠ c) :
    fbkOf (modFbk s c f) j = fbkOf s j := vget_vmod_ne _ f h

@[simp] theorem modCopy_pending (s : State) (who : Who) (f : Latches → Latches) : (modCopy s who f).pending = s.pending := rfl
@[simp] theorem modCopy_fresh (s : State) (who : Who) (f : Latches → Latches) : (modCopy s who f).fresh = s.fresh := rfl
@[simp] theorem modCopy_lands (s : State) (who : Who) (f : Latches → Latches) : (modCopy s who f).lands = s.lands := rfl
@[simp] theorem modCopy_nor (s : State) (who : Who) (f : Latches → Latches) : (modCopy s who f).nor = s.nor := rfl
@[simp] theorem modCopy_mram (s : State) (who : Who) (f : Latches → Latches) : (modCopy s who f).mram = s.mram := rfl
@[simp] theorem modCopy_psram (s : State) (who : Who) (f : Latches → Latches) : (modCopy s who f).psram = s.psram := rfl
@[simp] theorem modCopy_img (s : State) (who : Who) (f : Latches → Latches) : (modCopy s who f).img = s.img := rfl
@[simp] theorem modCopy_cfg (s : State) (who : Who) (f : Latches → Latches) : (modCopy s who f).cfg = s.cfg := rfl
@[simp] theorem modCopy_bat (s : State) (who : Who) (f : Latches → Latches) : (modCopy s who f).bat = s.bat := rfl
@[simp] theorem modCopy_owl (s : State) (who : Who) (f : Latches → Latches) : (modCopy s who f).owl = s.owl := rfl
@[simp] theorem modCopy_tha (s : State) (who : Who) (f : Latches → Latches) : (modCopy s who f).tha = s.tha := rfl
@[simp] theorem modCopy_est (s : State) (who : Who) (f : Latches → Latches) : (modCopy s who f).est = s.est := rfl
@[simp] theorem modCopy_led (s : State) (who : Who) (f : Latches → Latches) : (modCopy s who f).led = s.led := rfl
@[simp] theorem modCopy_pgr (s : State) (who : Who) (f : Latches → Latches) : (modCopy s who f).pgr = s.pgr := rfl
@[simp] theorem modCopy_rdg (s : State) (who : Who) (f : Latches → Latches) : (modCopy s who f).rdg = s.rdg := rfl
@[simp] theorem modCopy_spar (s : State) (who : Who) (f : Latches → Latches) : (modCopy s who f).spar = s.spar := rfl
@[simp] theorem modCopy_cpr (s : State) (who : Who) (f : Latches → Latches) : (modCopy s who f).cpr = s.cpr := rfl
@[simp] theorem modCopy_priv (s : State) (who : Who) (f : Latches → Latches) : (modCopy s who f).priv = s.priv := rfl
@[simp] theorem modCopy_eav (s : State) (who : Who) (f : Latches → Latches) : (modCopy s who f).eav = s.eav := rfl
@[simp] theorem modCopy_can (s : State) (who : Who) (f : Latches → Latches) : (modCopy s who f).can = s.can := rfl
@[simp] theorem modCopy_vrg (s : State) (who : Who) (f : Latches → Latches) : (modCopy s who f).vrg = s.vrg := rfl
@[simp] theorem modCopy_fbk (s : State) (who : Who) (f : Latches → Latches) : (modCopy s who f).fbk = s.fbk := rfl
@[simp] theorem modCopy_pwr (s : State) (who : Who) (f : Latches → Latches) : (modCopy s who f).pwr = s.pwr := rfl
@[simp] theorem modCopy_cdc (s : State) (who : Who) (f : Latches → Latches) : (modCopy s who f).cdc = s.cdc := rfl
@[simp] theorem modCopy_gtr (s : State) (who : Who) (f : Latches → Latches) : (modCopy s who f).gtr = s.gtr := rfl

@[simp] theorem modImp_pending (s : State) (c : Nat) (f : ImpCell → ImpCell) : (modImp s c f).pending = s.pending := rfl
@[simp] theorem modImp_fresh (s : State) (c : Nat) (f : ImpCell → ImpCell) : (modImp s c f).fresh = s.fresh := rfl
@[simp] theorem modImp_lands (s : State) (c : Nat) (f : ImpCell → ImpCell) : (modImp s c f).lands = s.lands := rfl
@[simp] theorem modImp_nor (s : State) (c : Nat) (f : ImpCell → ImpCell) : (modImp s c f).nor = s.nor := rfl
@[simp] theorem modImp_mram (s : State) (c : Nat) (f : ImpCell → ImpCell) : (modImp s c f).mram = s.mram := rfl
@[simp] theorem modImp_psram (s : State) (c : Nat) (f : ImpCell → ImpCell) : (modImp s c f).psram = s.psram := rfl
@[simp] theorem modImp_img (s : State) (c : Nat) (f : ImpCell → ImpCell) : (modImp s c f).img = s.img := rfl
@[simp] theorem modImp_cfg (s : State) (c : Nat) (f : ImpCell → ImpCell) : (modImp s c f).cfg = s.cfg := rfl
@[simp] theorem modImp_bat (s : State) (c : Nat) (f : ImpCell → ImpCell) : (modImp s c f).bat = s.bat := rfl
@[simp] theorem modImp_owl (s : State) (c : Nat) (f : ImpCell → ImpCell) : (modImp s c f).owl = s.owl := rfl
@[simp] theorem modImp_tha (s : State) (c : Nat) (f : ImpCell → ImpCell) : (modImp s c f).tha = s.tha := rfl
@[simp] theorem modImp_led (s : State) (c : Nat) (f : ImpCell → ImpCell) : (modImp s c f).led = s.led := rfl
@[simp] theorem modImp_pgr (s : State) (c : Nat) (f : ImpCell → ImpCell) : (modImp s c f).pgr = s.pgr := rfl
@[simp] theorem modImp_rdg (s : State) (c : Nat) (f : ImpCell → ImpCell) : (modImp s c f).rdg = s.rdg := rfl
@[simp] theorem modImp_spar (s : State) (c : Nat) (f : ImpCell → ImpCell) : (modImp s c f).spar = s.spar := rfl
@[simp] theorem modImp_cpr (s : State) (c : Nat) (f : ImpCell → ImpCell) : (modImp s c f).cpr = s.cpr := rfl
@[simp] theorem modImp_priv (s : State) (c : Nat) (f : ImpCell → ImpCell) : (modImp s c f).priv = s.priv := rfl
@[simp] theorem modImp_eav (s : State) (c : Nat) (f : ImpCell → ImpCell) : (modImp s c f).eav = s.eav := rfl
@[simp] theorem modImp_hst (s : State) (c : Nat) (f : ImpCell → ImpCell) : (modImp s c f).hst = s.hst := rfl
@[simp] theorem modImp_can (s : State) (c : Nat) (f : ImpCell → ImpCell) : (modImp s c f).can = s.can := rfl
@[simp] theorem modImp_vrg (s : State) (c : Nat) (f : ImpCell → ImpCell) : (modImp s c f).vrg = s.vrg := rfl
@[simp] theorem modImp_fbk (s : State) (c : Nat) (f : ImpCell → ImpCell) : (modImp s c f).fbk = s.fbk := rfl
@[simp] theorem modImp_pwr (s : State) (c : Nat) (f : ImpCell → ImpCell) : (modImp s c f).pwr = s.pwr := rfl
@[simp] theorem modImp_cdc (s : State) (c : Nat) (f : ImpCell → ImpCell) : (modImp s c f).cdc = s.cdc := rfl
@[simp] theorem modImp_gtr (s : State) (c : Nat) (f : ImpCell → ImpCell) : (modImp s c f).gtr = s.gtr := rfl

@[simp] theorem modLearn_pending (s : State) (c : Nat) (f : LearnCell → LearnCell) : (modLearn s c f).pending = s.pending := rfl
@[simp] theorem modLearn_fresh (s : State) (c : Nat) (f : LearnCell → LearnCell) : (modLearn s c f).fresh = s.fresh := rfl
@[simp] theorem modLearn_lands (s : State) (c : Nat) (f : LearnCell → LearnCell) : (modLearn s c f).lands = s.lands := rfl
@[simp] theorem modLearn_nor (s : State) (c : Nat) (f : LearnCell → LearnCell) : (modLearn s c f).nor = s.nor := rfl
@[simp] theorem modLearn_mram (s : State) (c : Nat) (f : LearnCell → LearnCell) : (modLearn s c f).mram = s.mram := rfl
@[simp] theorem modLearn_psram (s : State) (c : Nat) (f : LearnCell → LearnCell) : (modLearn s c f).psram = s.psram := rfl
@[simp] theorem modLearn_img (s : State) (c : Nat) (f : LearnCell → LearnCell) : (modLearn s c f).img = s.img := rfl
@[simp] theorem modLearn_cfg (s : State) (c : Nat) (f : LearnCell → LearnCell) : (modLearn s c f).cfg = s.cfg := rfl
@[simp] theorem modLearn_bat (s : State) (c : Nat) (f : LearnCell → LearnCell) : (modLearn s c f).bat = s.bat := rfl
@[simp] theorem modLearn_owl (s : State) (c : Nat) (f : LearnCell → LearnCell) : (modLearn s c f).owl = s.owl := rfl
@[simp] theorem modLearn_tha (s : State) (c : Nat) (f : LearnCell → LearnCell) : (modLearn s c f).tha = s.tha := rfl
@[simp] theorem modLearn_est (s : State) (c : Nat) (f : LearnCell → LearnCell) : (modLearn s c f).est = s.est := rfl
@[simp] theorem modLearn_pgr (s : State) (c : Nat) (f : LearnCell → LearnCell) : (modLearn s c f).pgr = s.pgr := rfl
@[simp] theorem modLearn_rdg (s : State) (c : Nat) (f : LearnCell → LearnCell) : (modLearn s c f).rdg = s.rdg := rfl
@[simp] theorem modLearn_spar (s : State) (c : Nat) (f : LearnCell → LearnCell) : (modLearn s c f).spar = s.spar := rfl
@[simp] theorem modLearn_cpr (s : State) (c : Nat) (f : LearnCell → LearnCell) : (modLearn s c f).cpr = s.cpr := rfl
@[simp] theorem modLearn_priv (s : State) (c : Nat) (f : LearnCell → LearnCell) : (modLearn s c f).priv = s.priv := rfl
@[simp] theorem modLearn_eav (s : State) (c : Nat) (f : LearnCell → LearnCell) : (modLearn s c f).eav = s.eav := rfl
@[simp] theorem modLearn_hst (s : State) (c : Nat) (f : LearnCell → LearnCell) : (modLearn s c f).hst = s.hst := rfl
@[simp] theorem modLearn_can (s : State) (c : Nat) (f : LearnCell → LearnCell) : (modLearn s c f).can = s.can := rfl
@[simp] theorem modLearn_vrg (s : State) (c : Nat) (f : LearnCell → LearnCell) : (modLearn s c f).vrg = s.vrg := rfl
@[simp] theorem modLearn_fbk (s : State) (c : Nat) (f : LearnCell → LearnCell) : (modLearn s c f).fbk = s.fbk := rfl
@[simp] theorem modLearn_pwr (s : State) (c : Nat) (f : LearnCell → LearnCell) : (modLearn s c f).pwr = s.pwr := rfl
@[simp] theorem modLearn_cdc (s : State) (c : Nat) (f : LearnCell → LearnCell) : (modLearn s c f).cdc = s.cdc := rfl
@[simp] theorem modLearn_gtr (s : State) (c : Nat) (f : LearnCell → LearnCell) : (modLearn s c f).gtr = s.gtr := rfl

@[simp] theorem modSeg_pending (s : State) (i : Nat) (f : Seg → Seg) : (modSeg s i f).pending = s.pending := rfl
@[simp] theorem modSeg_fresh (s : State) (i : Nat) (f : Seg → Seg) : (modSeg s i f).fresh = s.fresh := rfl
@[simp] theorem modSeg_lands (s : State) (i : Nat) (f : Seg → Seg) : (modSeg s i f).lands = s.lands := rfl
@[simp] theorem modSeg_nor (s : State) (i : Nat) (f : Seg → Seg) : (modSeg s i f).nor = s.nor := rfl
@[simp] theorem modSeg_mram (s : State) (i : Nat) (f : Seg → Seg) : (modSeg s i f).mram = s.mram := rfl
@[simp] theorem modSeg_psram (s : State) (i : Nat) (f : Seg → Seg) : (modSeg s i f).psram = s.psram := rfl
@[simp] theorem modSeg_img (s : State) (i : Nat) (f : Seg → Seg) : (modSeg s i f).img = s.img := rfl
@[simp] theorem modSeg_cfg (s : State) (i : Nat) (f : Seg → Seg) : (modSeg s i f).cfg = s.cfg := rfl
@[simp] theorem modSeg_bat (s : State) (i : Nat) (f : Seg → Seg) : (modSeg s i f).bat = s.bat := rfl
@[simp] theorem modSeg_owl (s : State) (i : Nat) (f : Seg → Seg) : (modSeg s i f).owl = s.owl := rfl
@[simp] theorem modSeg_tha (s : State) (i : Nat) (f : Seg → Seg) : (modSeg s i f).tha = s.tha := rfl
@[simp] theorem modSeg_est (s : State) (i : Nat) (f : Seg → Seg) : (modSeg s i f).est = s.est := rfl
@[simp] theorem modSeg_led (s : State) (i : Nat) (f : Seg → Seg) : (modSeg s i f).led = s.led := rfl
@[simp] theorem modSeg_rdg (s : State) (i : Nat) (f : Seg → Seg) : (modSeg s i f).rdg = s.rdg := rfl
@[simp] theorem modSeg_spar (s : State) (i : Nat) (f : Seg → Seg) : (modSeg s i f).spar = s.spar := rfl
@[simp] theorem modSeg_cpr (s : State) (i : Nat) (f : Seg → Seg) : (modSeg s i f).cpr = s.cpr := rfl
@[simp] theorem modSeg_priv (s : State) (i : Nat) (f : Seg → Seg) : (modSeg s i f).priv = s.priv := rfl
@[simp] theorem modSeg_eav (s : State) (i : Nat) (f : Seg → Seg) : (modSeg s i f).eav = s.eav := rfl
@[simp] theorem modSeg_hst (s : State) (i : Nat) (f : Seg → Seg) : (modSeg s i f).hst = s.hst := rfl
@[simp] theorem modSeg_can (s : State) (i : Nat) (f : Seg → Seg) : (modSeg s i f).can = s.can := rfl
@[simp] theorem modSeg_vrg (s : State) (i : Nat) (f : Seg → Seg) : (modSeg s i f).vrg = s.vrg := rfl
@[simp] theorem modSeg_fbk (s : State) (i : Nat) (f : Seg → Seg) : (modSeg s i f).fbk = s.fbk := rfl
@[simp] theorem modSeg_pwr (s : State) (i : Nat) (f : Seg → Seg) : (modSeg s i f).pwr = s.pwr := rfl
@[simp] theorem modSeg_cdc (s : State) (i : Nat) (f : Seg → Seg) : (modSeg s i f).cdc = s.cdc := rfl
@[simp] theorem modSeg_gtr (s : State) (i : Nat) (f : Seg → Seg) : (modSeg s i f).gtr = s.gtr := rfl

@[simp] theorem modSensor_pending (s : State) (n : Nat) (f : Sensor → Sensor) : (modSensor s n f).pending = s.pending := rfl
@[simp] theorem modSensor_fresh (s : State) (n : Nat) (f : Sensor → Sensor) : (modSensor s n f).fresh = s.fresh := rfl
@[simp] theorem modSensor_lands (s : State) (n : Nat) (f : Sensor → Sensor) : (modSensor s n f).lands = s.lands := rfl
@[simp] theorem modSensor_nor (s : State) (n : Nat) (f : Sensor → Sensor) : (modSensor s n f).nor = s.nor := rfl
@[simp] theorem modSensor_mram (s : State) (n : Nat) (f : Sensor → Sensor) : (modSensor s n f).mram = s.mram := rfl
@[simp] theorem modSensor_psram (s : State) (n : Nat) (f : Sensor → Sensor) : (modSensor s n f).psram = s.psram := rfl
@[simp] theorem modSensor_img (s : State) (n : Nat) (f : Sensor → Sensor) : (modSensor s n f).img = s.img := rfl
@[simp] theorem modSensor_cfg (s : State) (n : Nat) (f : Sensor → Sensor) : (modSensor s n f).cfg = s.cfg := rfl
@[simp] theorem modSensor_bat (s : State) (n : Nat) (f : Sensor → Sensor) : (modSensor s n f).bat = s.bat := rfl
@[simp] theorem modSensor_owl (s : State) (n : Nat) (f : Sensor → Sensor) : (modSensor s n f).owl = s.owl := rfl
@[simp] theorem modSensor_tha (s : State) (n : Nat) (f : Sensor → Sensor) : (modSensor s n f).tha = s.tha := rfl
@[simp] theorem modSensor_est (s : State) (n : Nat) (f : Sensor → Sensor) : (modSensor s n f).est = s.est := rfl
@[simp] theorem modSensor_led (s : State) (n : Nat) (f : Sensor → Sensor) : (modSensor s n f).led = s.led := rfl
@[simp] theorem modSensor_pgr (s : State) (n : Nat) (f : Sensor → Sensor) : (modSensor s n f).pgr = s.pgr := rfl
@[simp] theorem modSensor_rdg (s : State) (n : Nat) (f : Sensor → Sensor) : (modSensor s n f).rdg = s.rdg := rfl
@[simp] theorem modSensor_spar (s : State) (n : Nat) (f : Sensor → Sensor) : (modSensor s n f).spar = s.spar := rfl
@[simp] theorem modSensor_cpr (s : State) (n : Nat) (f : Sensor → Sensor) : (modSensor s n f).cpr = s.cpr := rfl
@[simp] theorem modSensor_priv (s : State) (n : Nat) (f : Sensor → Sensor) : (modSensor s n f).priv = s.priv := rfl
@[simp] theorem modSensor_eav (s : State) (n : Nat) (f : Sensor → Sensor) : (modSensor s n f).eav = s.eav := rfl
@[simp] theorem modSensor_hst (s : State) (n : Nat) (f : Sensor → Sensor) : (modSensor s n f).hst = s.hst := rfl
@[simp] theorem modSensor_can (s : State) (n : Nat) (f : Sensor → Sensor) : (modSensor s n f).can = s.can := rfl
@[simp] theorem modSensor_vrg (s : State) (n : Nat) (f : Sensor → Sensor) : (modSensor s n f).vrg = s.vrg := rfl
@[simp] theorem modSensor_fbk (s : State) (n : Nat) (f : Sensor → Sensor) : (modSensor s n f).fbk = s.fbk := rfl
@[simp] theorem modSensor_cdc (s : State) (n : Nat) (f : Sensor → Sensor) : (modSensor s n f).cdc = s.cdc := rfl
@[simp] theorem modSensor_gtr (s : State) (n : Nat) (f : Sensor → Sensor) : (modSensor s n f).gtr = s.gtr := rfl

@[simp] theorem modGoose_pending (s : State) (k : Nat) (f : GooseRun → GooseRun) : (modGoose s k f).pending = s.pending := rfl
@[simp] theorem modGoose_fresh (s : State) (k : Nat) (f : GooseRun → GooseRun) : (modGoose s k f).fresh = s.fresh := rfl
@[simp] theorem modGoose_lands (s : State) (k : Nat) (f : GooseRun → GooseRun) : (modGoose s k f).lands = s.lands := rfl
@[simp] theorem modGoose_nor (s : State) (k : Nat) (f : GooseRun → GooseRun) : (modGoose s k f).nor = s.nor := rfl
@[simp] theorem modGoose_mram (s : State) (k : Nat) (f : GooseRun → GooseRun) : (modGoose s k f).mram = s.mram := rfl
@[simp] theorem modGoose_psram (s : State) (k : Nat) (f : GooseRun → GooseRun) : (modGoose s k f).psram = s.psram := rfl
@[simp] theorem modGoose_img (s : State) (k : Nat) (f : GooseRun → GooseRun) : (modGoose s k f).img = s.img := rfl
@[simp] theorem modGoose_cfg (s : State) (k : Nat) (f : GooseRun → GooseRun) : (modGoose s k f).cfg = s.cfg := rfl
@[simp] theorem modGoose_bat (s : State) (k : Nat) (f : GooseRun → GooseRun) : (modGoose s k f).bat = s.bat := rfl
@[simp] theorem modGoose_owl (s : State) (k : Nat) (f : GooseRun → GooseRun) : (modGoose s k f).owl = s.owl := rfl
@[simp] theorem modGoose_tha (s : State) (k : Nat) (f : GooseRun → GooseRun) : (modGoose s k f).tha = s.tha := rfl
@[simp] theorem modGoose_est (s : State) (k : Nat) (f : GooseRun → GooseRun) : (modGoose s k f).est = s.est := rfl
@[simp] theorem modGoose_led (s : State) (k : Nat) (f : GooseRun → GooseRun) : (modGoose s k f).led = s.led := rfl
@[simp] theorem modGoose_pgr (s : State) (k : Nat) (f : GooseRun → GooseRun) : (modGoose s k f).pgr = s.pgr := rfl
@[simp] theorem modGoose_rdg (s : State) (k : Nat) (f : GooseRun → GooseRun) : (modGoose s k f).rdg = s.rdg := rfl
@[simp] theorem modGoose_spar (s : State) (k : Nat) (f : GooseRun → GooseRun) : (modGoose s k f).spar = s.spar := rfl
@[simp] theorem modGoose_cpr (s : State) (k : Nat) (f : GooseRun → GooseRun) : (modGoose s k f).cpr = s.cpr := rfl
@[simp] theorem modGoose_priv (s : State) (k : Nat) (f : GooseRun → GooseRun) : (modGoose s k f).priv = s.priv := rfl
@[simp] theorem modGoose_eav (s : State) (k : Nat) (f : GooseRun → GooseRun) : (modGoose s k f).eav = s.eav := rfl
@[simp] theorem modGoose_can (s : State) (k : Nat) (f : GooseRun → GooseRun) : (modGoose s k f).can = s.can := rfl
@[simp] theorem modGoose_vrg (s : State) (k : Nat) (f : GooseRun → GooseRun) : (modGoose s k f).vrg = s.vrg := rfl
@[simp] theorem modGoose_fbk (s : State) (k : Nat) (f : GooseRun → GooseRun) : (modGoose s k f).fbk = s.fbk := rfl
@[simp] theorem modGoose_pwr (s : State) (k : Nat) (f : GooseRun → GooseRun) : (modGoose s k f).pwr = s.pwr := rfl
@[simp] theorem modGoose_cdc (s : State) (k : Nat) (f : GooseRun → GooseRun) : (modGoose s k f).cdc = s.cdc := rfl
@[simp] theorem modGoose_gtr (s : State) (k : Nat) (f : GooseRun → GooseRun) : (modGoose s k f).gtr = s.gtr := rfl

/-! ## A part that an operation leaves -/

theorem Leaves.pending {us : List Part} {s t : State} (h : Leaves us s t) (hu : us.contains .pending = false) :
    t.pending = s.pending := (h.rest .pending).resolve_left fun m => by simp [m] at hu
theorem Leaves.fresh {us : List Part} {s t : State} (h : Leaves us s t) (hu : us.contains .fresh = false) :
    t.fresh = s.fresh := (h.rest .fresh).resolve_left fun m => by simp [m] at hu
theorem Leaves.lands {us : List Part} {s t : State} (h : Leaves us s t) (hu : us.contains .lands = false) :
    t.lands = s.lands := (h.rest .lands).resolve_left fun m => by simp [m] at hu
theorem Leaves.nor {us : List Part} {s t : State} (h : Leaves us s t) (hu : us.contains .nor = false) :
    t.nor = s.nor := (h.rest .nor).resolve_left fun m => by simp [m] at hu
theorem Leaves.mram {us : List Part} {s t : State} (h : Leaves us s t) (hu : us.contains .mram = false) :
    t.mram = s.mram := (h.rest .mram).resolve_left fun m => by simp [m] at hu
theorem Leaves.psram {us : List Part} {s t : State} (h : Leaves us s t) (hu : us.contains .psram = false) :
    t.psram = s.psram := (h.rest .psram).resolve_left fun m => by simp [m] at hu
theorem Leaves.img {us : List Part} {s t : State} (h : Leaves us s t) (hu : us.contains .img = false) :
    t.img = s.img := (h.rest .img).resolve_left fun m => by simp [m] at hu
theorem Leaves.cfg {us : List Part} {s t : State} (h : Leaves us s t) (hu : us.contains .cfg = false) :
    t.cfg = s.cfg := (h.rest .cfg).resolve_left fun m => by simp [m] at hu
theorem Leaves.bat {us : List Part} {s t : State} (h : Leaves us s t) (hu : us.contains .bat = false) :
    t.bat = s.bat := (h.rest .bat).resolve_left fun m => by simp [m] at hu
theorem Leaves.owl {us : List Part} {s t : State} (h : Leaves us s t) (hu : us.contains .owl = false) :
    t.owl = s.owl := (h.rest .owl).resolve_left fun m => by simp [m] at hu
theorem Leaves.tha {us : List Part} {s t : State} (h : Leaves us s t) (hu : us.contains .tha = false) :
    t.tha = s.tha := (h.rest .tha).resolve_left fun m => by simp [m] at hu
theorem Leaves.est {us : List Part} {s t : State} (h : Leaves us s t) (hu : us.contains .est = false) :
    t.est = s.est := (h.rest .est).resolve_left fun m => by simp [m] at hu
theorem Leaves.led {us : List Part} {s t : State} (h : Leaves us s t) (hu : us.contains .led = false) :
    t.led = s.led := (h.rest .led).resolve_left fun m => by simp [m] at hu
theorem Leaves.pgr {us : List Part} {s t : State} (h : Leaves us s t) (hu : us.contains .pgr = false) :
    t.pgr = s.pgr := (h.rest .pgr).resolve_left fun m => by simp [m] at hu
theorem Leaves.rdg {us : List Part} {s t : State} (h : Leaves us s t) (hu : us.contains .rdg = false) :
    t.rdg = s.rdg := (h.rest .rdg).resolve_left fun m => by simp [m] at hu
theorem Leaves.spar {us : List Part} {s t : State} (h : Leaves us s t) (hu : us.contains .spar = false) :
    t.spar = s.spar := (h.rest .spar).resolve_left fun m => by simp [m] at hu
theorem Leaves.cpr {us : List Part} {s t : State} (h : Leaves us s t) (hu : us.contains .cpr = false) :
    t.cpr = s.cpr := (h.rest .cpr).resolve_left fun m => by simp [m] at hu
theorem Leaves.priv {us : List Part} {s t : State} (h : Leaves us s t) (hu : us.contains .priv = false) :
    t.priv = s.priv := (h.rest .priv).resolve_left fun m => by simp [m] at hu
theorem Leaves.eav {us : List Part} {s t : State} (h : Leaves us s t) (hu : us.contains .eav = false) :
    t.eav = s.eav := (h.rest .eav).resolve_left fun m => by simp [m] at hu
theorem Leaves.hst {us : List Part} {s t : State} (h : Leaves us s t) (hu : us.contains .hst = false) :
    t.hst = s.hst := (h.rest .hst).resolve_left fun m => by simp [m] at hu
theorem Leaves.can {us : List Part} {s t : State} (h : Leaves us s t) (hu : us.contains .can = false) :
    t.can = s.can := (h.rest .can).resolve_left fun m => by simp [m] at hu
theorem Leaves.vrg {us : List Part} {s t : State} (h : Leaves us s t) (hu : us.contains .vrg = false) :
    t.vrg = s.vrg := (h.rest .vrg).resolve_left fun m => by simp [m] at hu
theorem Leaves.fbk {us : List Part} {s t : State} (h : Leaves us s t) (hu : us.contains .fbk = false) :
    t.fbk = s.fbk := (h.rest .fbk).resolve_left fun m => by simp [m] at hu
theorem Leaves.pwr {us : List Part} {s t : State} (h : Leaves us s t) (hu : us.contains .pwr = false) :
    t.pwr = s.pwr := (h.rest .pwr).resolve_left fun m => by simp [m] at hu
theorem Leaves.cdc {us : List Part} {s t : State} (h : Leaves us s t) (hu : us.contains .cdc = false) :
    t.cdc = s.cdc := (h.rest .cdc).resolve_left fun m => by simp [m] at hu
theorem Leaves.gtr {us : List Part} {s t : State} (h : Leaves us s t) (hu : us.contains .gtr = false) :
    t.gtr = s.gtr := (h.rest .gtr).resolve_left fun m => by simp [m] at hu

end Machine

end Sys2Proof
end

