-- ==== Sys2Proof/WellFormed.lean ====
section
/-! DEFINITION. Which terms of `Instr` are commands the module can meet: the bounds the manual sets on what a
command brings, where its type does not set them already. `exec` gives every term a meaning. -/

namespace Sys2Proof

/-- A core's trace as a checkpoint sees it has 32 registers (R272). -/
def CoreTrace.wf (t : CoreTrace) : Bool := t.regs.length == 32

/-- A checkpoint's observation: both cores' traces well-formed (R272). -/
def CheckObs.wf (o : CheckObs) : Bool := o.lead.wf && o.check.wf

/-- A halt of the lead core brings both cores' traces (R265, R287). -/
def DebugOp.wf : DebugOp → Bool
  | .halt l k _ => l.wf && k.wf
  | .breakpointHit l k _ => l.wf && k.wf
  | _ => true

/-- A host message fits a UDP frame: at most 1 472 octets (R314). -/
def HostFrame.wf (f : HostFrame) : Bool := f.octets.length ≤ 1472

/-- A Verge frame's codes lie in the converters' 24 bits (R357). -/
def VergeFrame.wf (f : VergeFrame) : Bool :=
  f.volts.toList.all (fun v => -8388608 ≤ v && v ≤ 8388607)
    && f.amps.toList.all (fun v => -8388608 ≤ v && v ≤ 8388607)

/-- A received GOOSE dataset's member carries a value where it is a BOOLEAN (R334). -/
def GooseFrame.wf (g : GooseFrame) : Bool := g.members.all (fun m => m.value.isSome || !m.isBool)

/-- The commands the module can meet. -/
def Instr.WellFormed : Instr → Bool
  | .checkpointA o => o.wf
  | .closingCheckpoint c o => c < 240000 && o.wf
  | .slotEntryStart c _ => c < 240000
  | .sessionOpen f => f.wf
  | .sessionEnd f => f.wf
  | .readRequest f => f.wf
  | .writeRequest f => f.wf
  | .eventAck f => f.wf
  | .nopRequest f => f.wf
  | .vergeFrameReceived f => f.wf
  | .debugInstruction op => op.wf
  | .gooseFrameReceived g => g.wf
  | .resetContactor _ _ r => r.toNat < 3
  | _ => true

end Sys2Proof
end

