-- ==== Sys2Proof/Tests/Slice0.lean ====
section
/-! SUPPORT. The model's own tests: the refusals of WellFormed, for every statement states and operands that meet
the hypotheses of each of its clauses, and single commands checked against values worked out from the manual. -/

namespace Sys2Proof.Tests

open Machine

set_option Elab.async false

/-! ## Helper states -/

/-- A small image: one string of one port with two cells, three coils, a feedback channel of each kind. -/
def image : Image where
  sequence := 1
  plant := { cellsTotal := 2, strings := 1, avgWindow := 100, quietDiv := 100, quietTime := 1, cellAh := 100 }
  schedule := [{ id := 1, task := 1, cls := 1 }, { id := 2, task := 3, cls := 1, wcet := 1000 },
    { id := 3, task := 9, cls := 2, wcet := 5000, maxDefer := 3 }, { id := 4, task := 6, cls := 2, wcet := 5000 }]
  ports := [{ cells := 2, kind := 1, chem := 1, string := 0 }]
  strings := [{ firstPort := 0, portCount := 1, openOrder := 1, preWindow := 500, rampMs := 100 }]
  contactors := [{ role := 0, output := 0 }, { role := 1, output := 1 }, { role := 2, output := 2 }]
  models := [{ chem := 1, vMax := 42000, vMin := 25000, tMax := 600, tMin := -200, persist := 10 }]
  eaves := List.replicate 3 { use := 1, pullIn := 20 } ++ List.replicate 13 {} ++ [{ use := 3, pgFreq := 10, duty := 50 }]
  network := some { mode := 0, ptp := 1, macA := 1, ipA := 0x0A000001, localUdp := 5000 }
  goose := [{ dir := 2, appid := 7, content := 0x40 }, { dir := 1, heartbeat := 1000 }]
  partitions := [{ part := 6, cls := 1 }]
  power := some { shipOk := 1 }

/-- A session of the image with a role, on a port, at a UDP port of host 10.0.0.2. -/
def sess (role port udp : Nat) : Sess :=
  { defn := { role := role, port := port, reserve := 2, peerIp := 0x0A000002, peerUdp := udp }, defined := true }

/-- The module in Operating at batten 100 with that image: session 0 MAINTAIN, 1 SUPERVISE, 2 CONVERTER on NET A. -/
def up : State :=
  { State.reset with
    img := { module := .operating }
    cfg := image
    bat := { num := 100, first := false }
    owl := { ports := vset (Vector.replicate 32 {}) 0 { st := .syncing } }
    hst := {
      sess := vset (vset (vset (Vector.replicate 8 {}) 0 (sess 5 0 6000)) 1 (sess 4 0 6001)) 2 (sess 3 0 6002)
      linkA := .up1000 } }

/-- The module in Bench with SEALOPEN asserted. -/
def bench : State := { up with img := { module := .bench }, lands := { sealOpen := true } }

/-- The module in Unconfigured with SEALOPEN asserted. -/
def bare : State := { State.reset with lands := { sealOpen := true } }

/-- Session 0, which has MAINTAIN rights. -/
def mt : Who := .session 0
/-- Session 1, which has SUPERVISE rights. -/
def sv : Who := .session 1
/-- Session 2, which has CONVERTER rights. -/
def cv : Who := .session 2

/-- A data-lane frame of a type with a payload (R93). -/
def line (type : Nat) (payload : List Byte) : LineFrame :=
  let body := BitVec.ofNat 8 type :: BitVec.ofNat 8 payload.length :: payload
  ⟨[0xAA, 0x3C] ++ body ++ natLe 2 (crc16 body).toNat, false⟩

/-- A MEAS frame of a batten with a status word, every reading 0 (R97). -/
def measFrame (batten status : Nat) : LineFrame :=
  line 9 (natLe 2 batten ++ List.replicate 40 0 ++ natLe 4 status)

/-- A port's record replaced. -/
def withPort (q : Port) (s : State) : State := modPort s 0 (fun _ => q)

/-- A state whose memories list nothing has them in their canonical form. -/
theorem memSafe_blank (s : State) (h1 : s.nor = []) (h2 : s.mram = []) (h3 : s.psram = []) (h4 : s.priv = {}) : memSafe s := by
  simp only [memSafe, h1, h2, h3, h4]; decide

/-! ## WellFormed refuses -/

/-- A trace of 32 registers, all else 0. -/
def trace : CoreTrace := ⟨[], 0, 0, List.replicate 32 0, 0, 0⟩
/-- A checkpoint at which the cores agree. -/
def clean : CheckObs := ⟨trace, trace, 0, 0⟩
/-- A frame of a session host without octets. -/
def host0 : HostFrame := { via := .netA, ip := 0x0A000002, udp := 6000, mac := 1, octets := [] }
/-- The commands that bring a host's message. -/
def hostRows (f : HostFrame) : List Instr :=
  [.sessionOpen f, .sessionEnd f, .readRequest f, .writeRequest f, .eventAck f, .nopRequest f]

theorem smoke_trace_lead : Instr.WellFormed (.checkpointA { clean with lead := { trace with regs := [] } }) = false := by decide
theorem smoke_trace_check :
    Instr.WellFormed (.closingCheckpoint 0 { clean with check := { trace with regs := List.replicate 33 0 } }) = false := by decide
theorem smoke_halt_trace : Instr.WellFormed (.debugInstruction (.halt { trace with regs := [] } trace 0)) = false := by decide
theorem smoke_breakpoint_trace :
    Instr.WellFormed (.debugInstruction (.breakpointHit trace { trace with regs := [] } 0)) = false := by decide
theorem smoke_checkpoint_cycle : Instr.WellFormed (.closingCheckpoint 240000 clean) = false := by decide +kernel
theorem smoke_slot_cycle : Instr.WellFormed (.slotEntryStart 240000 .failed) = false := by decide +kernel
theorem smoke_host_frames : ∀ c ∈ hostRows { host0 with octets := List.replicate 1473 0 }, c.WellFormed = false := by decide +kernel
theorem smoke_verge_volts : Instr.WellFormed (.vergeFrameReceived
    ⟨0, 0, true, true, true, true, Vector.replicate 8 8388608, Vector.replicate 4 0⟩) = false := by decide +kernel
theorem smoke_verge_amps : Instr.WellFormed (.vergeFrameReceived
    ⟨0, 0, true, true, true, true, Vector.replicate 8 0, Vector.replicate 4 (-8388609)⟩) = false := by decide +kernel
theorem smoke_goose_member : Instr.WellFormed (.gooseFrameReceived
    ⟨.netA, 0, 0, [], 1, 0, false, [⟨none, true, none⟩], ⟨0, none⟩⟩) = false := by decide
theorem smoke_contactor_role : Instr.WellFormed (.resetContactor .gable 0 3) = false := by decide
theorem smoke_well_formed : (Instr.closingCheckpoint 239999 clean).WellFormed = true := by decide +kernel
/-! ## The hypotheses of the statements: queue, reset, ports -/

theorem witness_StepRunsFrontCommand : (bare.pending = []) ∧ ({ bare with pending := [.dozeWake] } : State).pending = .dozeWake :: [] := by
  decide
theorem witness_CommandsLeaveQueue :
    ∃ t, exec .dozeWake { bare with pwr := { power := .doze } } = .next t ∧ t.pwr.power = .run := ⟨_, rfl, rfl⟩
theorem witness_StepKeepsMemories : memSafe { bare with pending := [.dozeWake] } ∧
    step { bare with pending := [.dozeWake] } = .next bare := ⟨memSafe_blank _ rfl rfl rfl rfl, rfl⟩

theorem witness_MeasurementExchange_closed : portActive up 1 = false ∧ (portOf (withPort { st := .syncing, exch := .late } up) 0).exch ≠ .pending := by
  decide +kernel
theorem witness_MeasurementExchange_open : portActive up 0 = true ∧ (portOf up 0).exch = .pending
    ∧ readMeas up 0 ⟨[], true⟩ = none := by decide +kernel
theorem witness_MeasurementExchange_frame :
    ((readMeas up 0 (measFrame 99 0)).map (fun r => (r.2.batten, sampleLate r.2))) = some (99, false)
    ∧ ((readMeas up 0 (measFrame 100 0x800000)).map (fun r => (r.2.batten, sampleLate r.2))) = some (100, true)
    ∧ ((readMeas up 0 (measFrame 100 0)).map (fun r => (r.2.batten, sampleLate r.2))) = some (100, false) := by decide +kernel

theorem witness_PortRoad :
    (∀ p ∈ [{ st := .syncing, missed := 10 }, { st := .inService, missed := 11 : Port }],
      let q := portOf (withPort p up) 0
      10 ≤ q.missed ∧ (q.st = .syncing ∨ q.st = .identifying ∨ q.st = .proving ∨ q.st = .inService))
    ∧ (portOf (withPort { st := .syncing, missed := 9 } up) 0).missed < 10
    ∧ (let s := { up with spar := { toneMask := 0 } }
       let q := portOf (withPort { st := .syncing, accRun := 4 } s) 0
       q.st = .syncing ∧ 4 ≤ q.accRun ∧ s.spar.toneMask.getLsbD 0 = false)
    ∧ ((portOf up 0).accRun < 4 ∧ up.spar.toneMask.getLsbD 0 = true)
    ∧ (let q := portOf (withPort { st := .identifying, identFails := 3 } up) 0
       q.st = .identifying ∧ 3 ≤ q.identFails)
    ∧ (portOf (withPort { st := .identifying, identFails := 2 } up) 0).identFails < 3
    ∧ (let q := portOf (withPort { st := .proving, clean := 3 } up) 0
       q.st = .proving ∧ 3 ≤ q.clean)
    ∧ (portOf (withPort { st := .proving, clean := 2 } up) 0).clean < 3 := by decide +kernel

theorem witness_ExchangeAndBulkWindow :
    portActive up 31 = false ∧ coresRun up = true ∧ portActive up 0 = true ∧ (portOf up 0).exch = .pending
    ∧ battensRun bare = false ∧ battensRun up = true ∧ (fixedRuns up = true ∧ up.bat.fixedDone ≤ 3) := by decide +kernel

theorem witness_BulkAnswers :
    (let s := { up with owl := { up.owl with bulkOpen := true } }
     s.owl.bulkOpen = true ∧ coresRun s = true ∧ portActive s 0 = true
     ∧ coresRun { s with cpr := { run := .inReset 0 } } = false
     ∧ (portOf (withPort { st := .syncing, inFlight := some .repeatMeas } s) 0).repeats = 0
     ∧ (portOf (withPort { st := .identifying, inFlight := some .ident } s) 0).inFlight = some .ident)
    ∧ up.owl.bulkOpen = false ∧ (portOf up 0).bulkGate = false ∧ ({ bulkGate := true } : Port).bulkGate = true
    ∧ bulkPayload (portRec up 0).kind (line 0xA (1#8 :: List.replicate 16 0#8)) 1 = some (List.replicate 16 0#8)
    ∧ uplinkGood (portRec up 0).kind (line 0xA (1#8 :: List.replicate 15 0#8)) = false := by decide +kernel

/-! ## Cells, estimator, image and stage -/

theorem witness_CellChecks :
    (portOf (withPort { st := .inService, satRun := 10 } up) 0).satRun = 10
    ∧ (let q := portOf (withPort { st := .inService, satRun := 100, testedInService := true, owIntact := true } up) 0
       100 ≤ q.satRun ∧ q.testedInService = true ∧ q.owIntact = true)
    ∧ 1 ∈ cellsOfPort up 0 ∧ 1 ∈ cellsOfStr up 0
    ∧ 100 ≤ (vget (vset up.tha.strChk 0 { fails := 100 }) 0).fails
    ∧ (vget (vset up.tha.strChk 0 { fails := 99 }) 0).fails < 100
    ∧ (0 + 1 < portCells up 0 ∧ 10 ≤ vget (portOf (withPort { pairRuns := Vector.replicate 16 10 } up) 0).pairRuns 0
       ∧ firstCell up 0 + 0 + 1 < 512)
    ∧ (10 ≤ vget (portOf (withPort { singleRuns := Vector.replicate 16 10 } up) 0).singleRuns 1
       ∧ flagOf up (firstCell up 0 + 1) 4 = false ∧ (portOf up 0).confirmed.getLsbD 1 = false)
    ∧ (let q := portOf (withPort { blankRun := 10 } up) 0
       10 ≤ q.blankRun ∧ q.balSuspended = false)
    ∧ (portOf (withPort { blankRun := 9 } up) 0).blankRun < 10
    ∧ (portOf (withPort { balSuspended := true } up) 0).balSuspended = true := by decide +kernel

theorem witness_CellTimersAndRuns :
    (let r := vget (vset up.tha.cells 511 { tcore := some 250, tcoreAt := 40000 }) 511
     r.tcore ≠ none ∧ r.tcoreAt + 60000 ≤ 100000 ∧ 99999 < r.tcoreAt + 60000)
    ∧ ((estCell up 1).refAt + 259200000 < 259200001 ∧ (1 : Nat) < nCells up ∧ up.est.refStale.getLsbD 1 = false)
    ∧ ¬ (2 < nCells up)
    ∧ (up.cfg.plant.quietDiv ≠ 0 ∧ up.cfg.plant.quietTime ≠ 0 ∧ 0 < nStr up ∧ up.est.quiet.getLsbD 0 = false
       ∧ up.cfg.plant.quietTime * 1000 ≤ vget (vset up.est.quietRun 0 1000) 0)
    ∧ vget up.est.quietRun 0 < up.cfg.plant.quietTime * 1000
    ∧ up.est.snap = none ∧ ({ up.est with snap := some {} } : Est).snap.isSome = true := by decide +kernel

theorem witness_ThatchUpdates :
    fixedRuns bare = false ∧ fixedRuns up = true ∧ coresRun up = true ∧ 0 ∈ usedPorts up
    ∧ phaseOf up = 0 ∧ up.pwr.level < 2 ∧ phaseOf { up with bat := { num := 101, first := false } } ≠ 0 := by decide +kernel

theorem witness_StageErasesAndPrograms :
    (stageMay bench mt = true ∧ bench.lands.sealOpen = true ∧ sealSeen bench = true ∧ (unconfigured bench = true ∨ false = false)
      ∧ (bench.img.stage = .idle ∨ bench.img.stage = .failed ∨ bench.img.stage = .verified) ∧ norAnswers bench true = true)
    ∧ (stageMay bare .gable = true ∧ unconfigured bare = true)
    ∧ stageMay bench sv = false ∧ norAnswers { bench with lands := { norBOk := false } } true = false
    ∧ (let s := { bench with img := { module := .bench, stage := .writing, owner := some mt, addr := 0x3FFFF8 } }
       stageMay s mt = true ∧ s.lands.sealOpen = true ∧ s.img.stage = .writing ∧ s.img.addr < 0x3FFFFC)
    ∧ ¬ ({ bench.img with addr := 0x3FFFFC } : Img).addr < 0x3FFFFC := by decide +kernel

theorem witness_StageErasesAndPrograms_memories : memSafe bench ∧ memSafe bare ∧ memSafe (modStr bench 0 (fun x => { x with st := .closed })) :=
  ⟨memSafe_blank _ rfl rfl rfl rfl, memSafe_blank _ rfl rfl rfl rfl, memSafe_blank _ rfl rfl rfl rfl⟩

theorem witness_StageVerifiesAndCommits :
    (let s := { bench with img := { module := .bench, stage := .verified, owner := some mt } }
     stageMay s mt = true ∧ s.lands.sealOpen = true ∧ unconfigured s = false ∧ allOpen s = true)
    ∧ (let s := { bare with img := { stage := .verified, owner := some .gable } }
       stageMay s .gable = true ∧ unconfigured s = true ∧ norAnswers s s.img.targetB = true)
    ∧ (let s := { bench with img := { module := .bench, stage := .writing, owner := some mt } }
       stageMay s mt = true ∧ stageMay s sv = false)
    ∧ allOpen (modStr bench 0 (fun x => { x with st := .closed })) = false := by decide +kernel

theorem witness_StageEndsAndBench :
    (stageMay up mt = true ∧ up.img.stage = .idle ∧ unconfigured up = false ∧ allOpen up = true)
    ∧ stageMay up sv = false
    ∧ (let s := { up with lands := { sealOpen := true } }
       isMaintain s mt = true ∧ operating s = true ∧ allOpen s = true ∧ s.lands.sealOpen = true ∧ sealSeen s = true
       ∧ writesServed s = true ∧ mapUp s = true ∧ s.pwr.shipOrdered = false ∧ s.pwr.stop ≠ 1 ∧ s.pwr.stop ≠ 2)
    ∧ (({ stop := 1 } : Pwr).stop = 1 ∧ ({ stop := 2 } : Pwr).stop = 2)
    ∧ up.lands.sealOpen = false ∧ inBench bench = true ∧ inBench up = false := by decide +kernel

theorem witness_SealopenRelease :
    ∀ st ∈ [Stage.erasing, .writing, .verifying, .verified],
      let s := { up with lands := { sealOpen := true }, img := { up.img with stage := st } }
      s.lands.sealOpen = true
      ∧ (s.img.stage = .erasing ∨ s.img.stage = .writing ∨ s.img.stage = .verifying ∨ s.img.stage = .verified) := by
  decide +kernel

/-! ## Spar -/

/-- The module with Spar in a mode, its one string's lane, port and gate in use. -/
def sparIn (m : SparMode) : State :=
  { up with spar := {
      mode := m, usedPorts := 1, toneMask := 0, strings := 1, laneMask := 0, gateUse := 7, gateReq := 7,
      inputs := 0x3FFFFF, testDone := true } }

theorem witness_SparTripsOnFaults :
    (∀ m ∈ [SparMode.proving, .armed, .tripped],
      let s := sparIn m
      latching s.spar = true ∧ sparRuns s = true
      ∧ (s.spar.usedPorts.getLsbD 0 = true ∧ s.spar.toneMask.getLsbD 0 = false)
      ∧ (laneUsed s.spar 4 = true ∧ s.spar.laneMask.getLsbD 4 = false) ∧ laneUsed s.spar 0 = true
      ∧ s.spar.gateCmd.getLsbD 15 = false
      ∧ (s.spar.inReset = false ∧ s.pwr.power ≠ .ship ∧ s.spar.stopped = false))
    ∧ (let s := { sparIn .armed with spar := { (sparIn .armed).spar with inputs := 0x3FFFFE } }
       latching s.spar = true ∧ sparRuns s = true ∧ pairUsed s.spar 0 = true ∧ pairAgrees s.spar 0 = false)
    ∧ (pairUsed { (sparIn .armed).spar with fireGas := 2 } 7 = true
       ∧ pairAgrees { (sparIn .armed).spar with fireGas := 2, inputs := 0x3F7FFF } 7 = false) := by decide +kernel

theorem witness_SparTripsOnFaults_harmless :
    (let s := sparIn .start
     sparRuns s = true ∧ latching s.spar = false ∧ s.spar.gateCmd.getLsbD 0 = false ∧ s.pwr.power ≠ .ship)
    ∧ (let s := sparIn .armed
       s.spar.usedPorts.getLsbD 31 = false ∧ laneUsed s.spar 3 = false
       ∧ pairAgrees s.spar 10 = false ∧ pairAgrees s.spar 0 = true ∧ pairUsed s.spar 7 = false
       ∧ pairAgrees { s.spar with inputs := 0x3F7FFF } 7 = false)
    ∧ ({ (sparIn .armed).spar with stopped := true } : Spar).stopped = true
    ∧ sparRuns { sparIn .armed with spar := { (sparIn .armed).spar with inReset := true } } = false
    ∧ ({ (sparIn .armed).spar with gateCmd := 1 } : Spar).gateCmd.getLsbD 0 = true := by decide +kernel

theorem witness_SparStartsAndConfigures :
    (let s := sparIn .start
     sparRuns s = true ∧ s.spar.mode = .start ∧ s.spar.testDone = true)
    ∧ ({ (sparIn .start).spar with testDone := false } : Spar).testDone = false
    ∧ (unconfigured bare = true ∧ sparRuns bare = true)
    ∧ (let s := sparIn .unconfigured
       s.spar.cfgDue = false ∧ s.spar.resumeOwed = false)
    ∧ (let s := { sparIn .unconfigured with spar := { (sparIn .unconfigured).spar with resumeOwed := true } }
       sparRuns s = true ∧ unconfigured s = false ∧ s.spar.mode ≠ .start ∧ s.spar.resumeOwed = true)
    ∧ laneToggles up 0 = false ∧ laneToggles { up with vrg := { powered := true } } 4 = true
    ∧ laneToggles { up with vrg := { powered := true, stopped := true } } 4 = false := by decide +kernel

theorem witness_SparContacts :
    (let s := sparIn .armed
     sparRuns s = true ∧ s.spar.mode ≠ .start
     ∧ pairUsed s.spar 1 = true ∧ pairPassed s.spar 1 = false ∧ pairAtRest s.spar 1 = true
     ∧ pulseVerdict ⟨0x3FFFFF, 8, 0x3FFFFF⟩ 1 = .failed
     ∧ s.spar.inputs.getLsbD 3 ≠ false ∧ (3 : Nat) / 2 < 8 ∧ pairUsed s.spar (3 / 2) = true ∧ s.spar.causes.getLsbD (3 / 2) = false)
    ∧ (sparIn .armed).spar.inputs.getLsbD 21 = true
    ∧ (let sp : Spar := { (sparIn .proving).spar with twoHand := true, firstBtn := some true, inputs := 0x2AFFFF, pairTest := Vector.replicate 11 .passed }
       sp.twoHand = true ∧ sp.firstBtn ≠ none ∧ btnReleased sp 8 = true ∧ btnReleased sp 9 = true
       ∧ sp.mode = .proving ∧ sp.doorProof = 0 ∧ anyDemand sp = false ∧ sp.gateBad = 0 ∧ sp.supplyOk = true)
    ∧ (sparIn .armed).spar.twoHand = false ∧ (sparIn .start).spar.mode = .start ∧ (sparIn .tripped).spar.mode = .tripped := by
  decide +kernel

theorem witness_SparResetAndClock :
    (let s := { sparIn .armed with pwr := { power := .ship } }
     s.pwr.power = .ship)
    ∧ (sparIn .armed).pwr.power ≠ .ship ∧ (sparIn .armed).spar.inReset = false ∧ (sparIn .armed).spar.stopped = false
    ∧ sparRuns (sparIn .armed) = true
    ∧ ({ (sparIn .armed).spar with inReset := true } : Spar).inReset = true
    ∧ (let sp : Spar := { (sparIn .armed).spar with stopped := true }
       sp.stopped = true ∧ sp.inReset = false ∧ latching sp = true) := by decide +kernel

/-- Gates 0 to 2 commanded on, every condition met; nothing waits. -/
theorem witness_StepKeepsGatesSafe :
    let s : State := { sparIn .armed with spar := { (sparIn .armed).spar with gateCmd := 7 } }
    gatesSafe s ∧ s.spar.gateCmd.getLsbD 2 = true ∧ step s = .next s := by
  refine ⟨?_, by decide +kernel, rfl⟩
  intro c hc
  have h : ∀ c < 16, gateHolds (sparIn .armed).spar c = true ∨ (7#16).getLsbD c = false := by decide +kernel
  rcases Nat.lt_or_ge c 16 with hlt | hge
  · rcases h c hlt with h | h
    · exact h
    · exact absurd (h.symm.trans hc) (by decide)
  · exact absurd ((BitVec.getLsbD_of_ge (7#16) c hge).symm.trans hc) (by decide)

/-! ## Eaves -/

/-- The channels of the image at the die, channel 0 on and conducting. -/
def eavUp : State :=
  { up with eav := {
      on := 1, chans := vset (Vector.ofFn (fun i => { cfg := eavRec up i })) 0 { cfg := eavRec up 0, conducting := true }
      word := some ⟨0x05000000, 0xFFFF0000, 0, 0, 0⟩ } }

/-- An intent word with nothing on and its check. -/
def offWord : IntentWord :=
  let w : IntentWord := ⟨0x05000000, 0xFFFF0000, 0, 0, 0⟩
  { w with p4 := crc32 (intentOctets w) }

theorem witness_IntentWords :
    slotsRun bare = false
    ∧ (slotsRun up = true ∧ up.pwr.allOff = false ∧ up.eav.word = none)
    ∧ (slotsRun eavUp = true ∧ eavUp.eav.word ≠ none ∧ eavUp.eav.wordNext = none)
    ∧ (slotsRun { up with pwr := { allOff := true } } = true)
    ∧ gateOn up = true
    ∧ (let s := { eavUp with cpr := { coupling := .shadow } }
       slotsRun s = true ∧ gateOn s = false ∧ s.spar.inReset = false ∧ s.eav.word ≠ none ∧ s.eav.wordNext = none)
    ∧ ({ inReset := true } : Spar).inReset = true ∧ ({ wordNext := some offWord } : Eav).wordNext ≠ none
    ∧ eavRuns { up with spar := { stopped := true } } = false
    ∧ (eavRuns up = true ∧ acceptable up offWord = true ∧ acceptable up { offWord with p4 := 0 } = false)
    ∧ acceptable { up with eav := { haveWord := true, seqNo := 5 } } offWord = false := by decide +kernel

theorem witness_HoldWindowAndSupply :
    (up.eav.hold = false ∧ up.eav.down = false ∧ eavRuns up = true ∧ up.eav.vsupLow = false)
    ∧ (let s := { up with eav := { hold := true, vsupLow := true } }
       s.eav.hold = true ∧ eavRuns s = true ∧ s.eav.vsupLow = true)
    ∧ ({ up.eav with down := true } : Eav).down = true
    ∧ eavRuns { up with pwr := { power := .ship } } = false
    ∧ (let c := chanOf eavUp 0
       chanAsked eavUp 0 = true ∧ c.overTemp = false ∧ c.latched = false ∧ c.waitReclaim = false ∧ c.retryPending = false) := by
  decide +kernel

theorem witness_ChannelFailuresAndRetries :
    (let c := chanOf eavUp 0
     c.conducting = true ∧ eavRuns eavUp = true ∧ c.overTemp = false ∧ c.cfg.use ≠ 0 ∧ c.pullIn = false ∧ c.openOn ≠ true)
    ∧ (chanOf eavUp 16).conducting = false ∧ (chanOf eavUp 16).cfg.use ≠ 0 ∧ (chanOf eavUp 23).cfg.use = 0
    ∧ (let s := modChan eavUp 0 (fun c => { c with overTemp := true })
       (chanOf s 0).overTemp = true ∧ eavRuns s = true)
    ∧ (let s := modChan eavUp 0 (fun c => { c with retryPending := true, conducting := false })
       let c := chanOf s 0
       (c.retryPending = true ∧ c.isRetry = false ∧ c.latched = false ∧ c.deferredRetry = false ∧ eavRuns s = true)
       ∧ c.conducting = false
       ∧ (chanAsked s 0 = true ∧ s.eav.vsupLow = false ∧ c.overTemp = false ∧ c.waitReclaim = false))
    ∧ (let s := modChan eavUp 1 (fun c => { c with retryPending := true })
       (chanOf s 1).retryPending = true ∧ (chanOf s 1).conducting = false ∧ chanAsked s 1 = false)
    ∧ (chanOf eavUp 0).retryPending = false
    ∧ eavRuns { eavUp with spar := { stopped := true } } = false := by decide +kernel

theorem witness_EavesAndHostWrites :
    (isSupervise up sv = true ∧ unconfigured up = false) ∧ isSupervise up cv = false
    ∧ (auxMay up sv = true ∧ auxMay bench mt = true ∧ auxMay bench sv = false
       ∧ ∀ i, i < 8 → (1#8).getLsbD i = true → (eavRec up (16 + i)).use ≠ 0)
    ∧ (eavRec up (16 + 7)).use = 0
    ∧ (writeRole up sv ≠ 0 ∧ normWho up sv = .session 1) ∧ normWho up sv ≠ .session 0
    ∧ up.bat.num < 101 ∧ ¬ up.bat.num < 100 := by decide +kernel

/-! ## The core pair -/

theorem witness_OutputGate :
    (let g : CmdGate := {
       queue := [], thermPos := 0, clearDue := false, clearAt := none, admitted := false, test := none, pulsing := false }
     let s := withPort { st := .syncing, cmdGate := some g } up
     gateOn s = true ∧ protectivePart s (partNo 0) = true ∧ portGated s 0 = true ∧ (portOf s 0).cmdGate ≠ none)
    ∧ (let s := withPort { st := .syncing, bulkGate := true, inFlight := some .ident } up
       portGated s 0 = true ∧ (portOf s 0).cmdGate = none ∧ (portOf s 0).inFlight = some .ident)
    ∧ (let s := { up with eav := { gated := some offWord } }
       s.eav.gated = some offWord ∧ s.spar.inReset = false ∧ s.eav.word = none ∧ protectivePart s (partNo 3) = true)
    ∧ (let k : Can := { cfg := { limitId := 0x40000100 }, configured := true }
       let s := { up with bat := { num := 102, first := false }, can := Vector.replicate 2 k, hst := { limitsGate := some ⟨0, [], []⟩ } }
       s.hst.limitsGate = some ⟨0, [], []⟩ ∧ phaseOf s = 2 ∧ canSends s 1 = true ∧ (canOf s 1).frameBatten ≠ s.bat.num
       ∧ protectivePart s (partNo 4) = true)
    ∧ (let s := { up with gtr := { held := [(2, {})] } }
       s.gtr.held.find? (fun h => h.1 == partNo 1) = some (2, {}))
    ∧ (∀ p ∈ [5, 6, 7], protectivePart { up with cfg := { image with partitions := [] } } (partNo p) = true)
    ∧ (coresRun up = true ∧ protectivePart up (partNo 0) = true ∧ up.cpr.coupling = .joined) ∧ (1#32 ≠ 2#32)
    ∧ ({ up.cpr with coupling := .shadow } : Cpr).coupling = .shadow
    ∧ coresRun { up with cpr := { run := .inReset 0 } } = false ∧ protectivePart up (partNo 5) = false := by decide +kernel

theorem witness_AgreementReads :
    (4#32).toNat % 8 = 4 ∧ (3#32).toNat % 8 = (11#32).toNat % 8
    ∧ coresRun { up with cpr := { run := .halted } } = false ∧ coresRun up = true ∧ agreementOn up = true
    ∧ agreementOn { up with cpr := { coupling := .split } } = false := by decide +kernel

/-- A self-test every run of which shows what it must. -/
def passed : SelfTest where
  null := []
  regBit := ⟨0, [(1, 1)]⟩
  pc := ⟨1, [(2, 2)]⟩
  count := ⟨2, [(3, 2)]⟩
  sigs := [[(1, 3)], [(2, 3)], [(3, 3)], [(4, 3)], [(5, 3)], [(6, 3)], [(7, 3)], [(8, 3)]]
  gateData := ⟨3, [(4, 4)]⟩
  gateLate := ⟨4, [(5, 5)]⟩
  input := .pfail
  lead := 1
  check := 2
  got := 3
  queue := ⟨7, [(8, 6)]⟩

theorem witness_WatchdogAndRestart :
    coresRun { up with cpr := { run := .inReset 1 } } = false
    ∧ (coresRun up = true ∧ agreementOn up = true ∧ up.cpr.coupling ≠ .shadow)
    ∧ (let s := { up with cpr := { coupling := .shadow } }
       coresRun s = true ∧ agreementOn s = true ∧ s.cpr.coupling = .shadow)
    ∧ agreementOn { up with cpr := { coupling := .split } } = false
    ∧ firstFail passed = none ∧ firstFail { passed with null := [(1, 1)] } = some 0
    ∧ firstFail { passed with queue := { (passed.queue) with raised := [] } } = some 8
    ∧ ({ up.cpr with run := .inReset 0 } : Cpr).run = .inReset 0 ∧ ({ up.cpr with run := .inReset 1 } : Cpr).run = .inReset 1
    ∧ (up.cpr.run = .running ∧ up.bat.first = false)
    ∧ ({ up.bat with first := true } : Bat).first = true ∧ unconfigured up = false := by decide +kernel

theorem witness_SplitAndDebug :
    (unconfigured up = false ∧ writeRole up mt ≠ 0 ∧ isMaintain up mt = true ∧ up.cpr.run ≠ .halted)
    ∧ (writeRole up sv ≠ 0 ∧ isMaintain up sv = false) ∧ writeRole up (.session 7) = 0
    ∧ (operating up = true ∧ (∀ k, k < nStr up → strState up k ≠ .precharge) ∧ up.img.stage ≠ .reloadPending
       ∧ up.cpr.coupling = .joined ∧ coresRun up = true)
    ∧ operating bench = false ∧ (1#16 ≠ 0)
    ∧ (let c : Cpr := { coupling := .split, coursesLeft := 1, job := 1 }
       c.coupling = .split ∧ c.coursesLeft ≤ 1 ∧ c.job = 1)
    ∧ ¬ ({ coupling := .split, coursesLeft := 2 } : Cpr).coursesLeft ≤ 1
    ∧ (ringEnd up ≤ 3136 + 0 ∧ ¬ (3136 + 0 < ringEnd up))
    ∧ (let s := { up with pgr := { psramOk := true } }
       3136 + 0 < ringEnd s)
    ∧ inBench bench = true ∧ inBench up = false ∧ coresRun bench = true
    ∧ ((0#32) ∈ ({ dbgOn := true, breakpoints := [0] } : Cpr).breakpoints ∧ (1#32) ∉ ({ breakpoints := [0] } : Cpr).breakpoints)
    ∧ (let c : Cpr := { dbgOn := true, dbgHalted := true, dbgWaiting := List.replicate 255 (0, .pcWrite 0) }
       c.dbgOn = true ∧ c.dbgHalted = true ∧ c.dbgWaiting.length < 256)
    ∧ 256 ≤ ({ dbgWaiting := List.replicate 256 (0, .pcWrite 0) } : Cpr).dbgWaiting.length := by decide +kernel

/-- A checkpoint at which the cores differ in a register while partition `p` runs. -/
def differing (p : Fin 8) : CheckObs :=
  { clean with check := { trace with regs := 0#32 :: List.replicate 31 1 }, running := p }

theorem witness_Checkpoints :
    slotsRun bare = false ∧ slotNext up 8 = false
    ∧ (let s := { up with bat := { num := 100, first := false, fixedDone := 8 } }
       slotsRun s = true ∧ slotNext s 8 = true ∧ s.cpr.coupling = .joined)
    ∧ (let s := { up with bat := { num := 100, first := false, fixedDone := 9 } }
       slotsRun s = true ∧ slotNext s 9 = true)
    ∧ found up clean = []
    ∧ (found up (differing 0) = [(1, 1)] ∧ protectivePart up 1 = true)
    ∧ (found up (differing 5) = [(6, 1)] ∧ protectivePart up 6 = false ∧ overflowed up (differing 5) = false
       ∧ (up.cpr.recent.filter (fun b => up.bat.num ≤ b + 1000)).length < 2)
    ∧ (let s := { up with cpr := { coupling := .shadow } }
       s.cpr.coupling = .shadow ∧ found s (differing 5) ≠ [])
    ∧ (239999 < 240000) := by decide +kernel

theorem witness_NamedStops : (240000 ≤ 240000) ∧ inBench bench = true := by decide +kernel

/-! ## The batten and PTP -/

theorem witness_BattenEdges :
    unconfigured bare = true ∧ mapUp { up with pwr := { power := .dormant } } = false
    ∧ ({ halted := true } : Pwr).halted = true ∧ ({ restarting := true } : Img).restarting = true
    ∧ ¬ (unconfigured up = true ∨ mapUp up = false ∨ up.pwr.halted = true ∨ up.img.restarting = true ∨ up.cpr.loading = true)
    ∧ ({ loading := true } : Cpr).loading = true
    ∧ (restartArmed up = false ∧ up.pwr.offSent = false) ∧ 0 ∈ usedPorts up
    ∧ (let s := { up with img := { module := .operating, stage := .reloadPending, armed := true }, bat := { num := 109, first := false } }
       restartArmed s = true ∧ (s.bat.num + 1) % 10 = 0)
    ∧ restartArmed { bench with img := { module := .bench, benchExit := true, armed := true } } = true
    ∧ (let s := { up with pwr := { offSent := true } }
       restartArmed s = false ∧ s.pwr.offSent = true) := by decide +kernel

/-- Batten 100 with work waiting. -/
def busy (todo : List Work) (running : Option Work) : State :=
  { up with bat := { num := 100, first := false, todo := todo, running := running, fixedDone := 9 } }

/-- That batten with one entry of a task and a class at the front. -/
def tasked (task cls : Nat) (ran : Bool) (s : State) : State :=
  { s with
    cfg := { image with schedule := [{ id := 9, task := task, cls := cls, wcet := 5000 }] }
    bat := { num := 100, first := false, todo := [⟨9, 0, false, 100, ran⟩], fixedDone := 9 } }

/-- An entry at the front that starts, with the task that its effect is stated of. -/
theorem witness_SlotEntriesAndOverruns_starts :
    (∀ k ∈ [1, 4, 9, 10], let s := tasked k 1 false up
      slotsRun s = true ∧ isDeferrable s ⟨9, 0, false, 100, false⟩ = false ∧ (workEntry s ⟨9, 0, false, 100, false⟩).task = k)
    ∧ (∀ k ∈ [2, 5, 6], let s := tasked k 2 false up
      slotsRun s = true ∧ pauseDue s = false ∧ 206200 + (workEntry s ⟨9, 0, false, 100, false⟩).wcet ≤ ceilingCycle
      ∧ (workEntry s ⟨9, 0, false, 100, false⟩).task = k)
    ∧ (tasked 9 2 true up).bat.todo = [⟨9, 0, false, 100, true⟩]
    ∧ ({ psramOk := true } : Pgr).psramOk = true
    ∧ 6 ≤ courseOf { up with bat := { num := 60, first := false } } % 10
    ∧ (0 : Fin 8).val = (workEntry (tasked 1 1 false up) ⟨9, 0, false, 100, false⟩).inst
    ∧ wordsWait (tasked 1 1 false up) 6 = true := by decide +kernel

theorem witness_SlotEntriesAndOverruns :
    slotsRun { bare with bat := { pausing := true } } = false ∧ slotNext up 9 = false
    ∧ (let s := busy [] none
       slotsRun s = true ∧ s.bat.pausing = false ∧ slotNext s 9 = true ∧ s.bat.todo = [])
    ∧ (let w : Work := ⟨2, 0, false, 100, false⟩
       let s := busy [w] none
       slotsRun s = true ∧ s.bat.todo = w :: [] ∧ 211199 < ceilingCycle ∧ isDeferrable s w = false ∧ (workEntry s w).task ≠ 1
       ∧ (workEntry s w).task ≠ 2)
    ∧ (let w : Work := ⟨3, 2, true, 99, false⟩
       let s := busy [w] none
       slotsRun s = true ∧ s.bat.todo = [w] ∧ 206201 < ceilingCycle ∧ isDeferrable s w = true ∧ pauseDue s = false
       ∧ ceilingCycle < 206201 + (workEntry s w).wcet ∧ w.count + 1 ≤ (workEntry s w).maxDefer)
    ∧ ceilingCycle ≤ 211200
    ∧ (let w : Work := ⟨2, 0, false, 100, false⟩
       let s := busy [] (some w)
       slotsRun s = true ∧ s.bat.running = some w ∧ isDeferrable s w = false ∧ (s.bat.overRuns.find? (fun x => x.1 == w.slot)) = none)
    ∧ (let w : Work := ⟨4, 0, false, 100, false⟩
       let s := busy [] (some w)
       s.bat.running = some w ∧ isDeferrable s w = true ∧ demandDriven (workEntry s w).task = true)
    ∧ (let w : Work := ⟨3, 0, false, 100, false⟩
       let s := busy [] (some w)
       s.bat.running = some w ∧ isDeferrable s w = true ∧ demandDriven (workEntry s w).task = false)
    ∧ (up.bat.fixedDone ≤ 0 ∧ slotsRun up = true ∧ up.cpr.coupling ≠ .shadow) ∧ ¬ (busy [] none).bat.fixedDone ≤ 8
    ∧ ({ coupling := .shadow } : Cpr).coupling = .shadow := by decide +kernel

theorem witness_CeilingPauseDoze :
    slotsRun bare = false
    ∧ (let w : Work := ⟨3, 2, true, 99, false⟩
       let s := busy [w] (some w)
       slotsRun s = true ∧ s.bat.running = some w ∧ w ∈ s.bat.todo ∧ isDeferrable s w = true
       ∧ w.count + 1 ≤ (workEntry s w).maxDefer)
    ∧ ({ pausing := true } : Bat).pausing = true ∧ up.bat.pausing = false
    ∧ ({ power := .doze } : Pwr).power = .doze ∧ up.pwr.power ≠ .doze := by decide +kernel

/-- A grandmaster's Announce on NET A. -/
def announce : Announce := ⟨.netA, 0, 0x77, 128, 6, 0x21, 100, 128, 0x1234, 0, true⟩

/-- A Sync of its clock. -/
def sync : SyncMeas where
  port := .netA
  domain := 0
  source := 0x77
  offset := 0
  freq := 0
  edge := 1000000

theorem witness_PtpEvents :
    ptpOn bare = false ∧ ¬ (ptpOn up = false ∨ netHears up = false ∨ portUsed up .netA = false) ∧ portUsed up .netB = false
    ∧ syncKnown up sync = false
    ∧ (let s := { up with hst := { gm := some announce, gmA := some announce, ptpPort := ptpCode .netA }
                          bat := { num := 100, first := false, sync := .acquiring, goodRun := 3 } }
       ¬ (ptpOn s = false ∨ netHears s = false ∨ portUsed s sync.port = false ∨ syncKnown s sync = false) ∧ s.hst.gm ≠ none ∧ s.hst.ptpPort = ptpCode .netA ∧ s.bat.sync = .acquiring)
    ∧ 1000 < absI (-1001) ∧ absI 1000 ≤ 1000
    ∧ announce.domain.toNat = (netRec up).domain ∧ ({ announce with domain := 1 } : Announce).domain.toNat ≠ (netRec up).domain
    ∧ (let s := { up with bat := { num := 3000, first := false, sync := .locked } }
       (s.bat.sync = .locked ∨ s.bat.sync = .acquiring) ∧ s.hst.syncAt + 3000 ≤ s.bat.num ∧ ¬ s.hst.syncAt + 3000 ≤ 2999)
    ∧ up.bat.sync = .free ∧ portSends up .netA = true ∧ portSends { up with hst := {} } .netA = false := by decide +kernel

/-! ## Hosts, networks, CAN -/

/-- A message with its CRC (R315). -/
def msg (version kind seq session : Nat) (body : List Byte) : List Byte :=
  let o := [BitVec.ofNat 8 version, BitVec.ofNat 8 kind] ++ natLe 2 body.length ++ natLe 2 seq ++ [BitVec.ofNat 8 session, 0]
    ++ natLe 4 0 ++ body
  o ++ natLe 4 (crc32 o).toNat

/-- A host's frame from session 0's peer. -/
def from0 (o : List Byte) : HostFrame where
  via := .netA
  ip := 0x0A000002
  udp := 6000
  mac := 0x0000AABBCCDD
  dstIp := 0x0A000001
  dstUdp := 5000
  octets := o

/-- The module on a PRP pair of networks. -/
def prp : State :=
  { up with cfg := { image with network := some { mode := 1, ptp := 0, macA := 1, ipA := 0x0A000001 } } }

theorem witness_HostFramesJudged :
    netHears bare = false ∧ (netHears up = true ∧ portUsed up (netPortOf (from0 [])) = true)
    ∧ ((prpHear up false 7 none).2 = true ∧ datagramOk up (from0 []) = true ∧ datagramOk up { from0 [] with fragment := true } = false)
    ∧ (let s := { prp with hst := { prp.hst with dups := [⟨7, 3, true, 100⟩] } }
       (prpHear s false 7 (some ⟨3, false⟩)).2 = false)
    ∧ (viaOf up mt ≠ .gable ∧ up.pwr.last = false)
    ∧ (let f := from0 (msg 1 3 9 0 (natLe 4 0x51000000 ++ [1, 0, 0, 0]))
       let s := { up with pgr := { psramOk := true } }
       firstRefusal s mt f.via f.octets.length (reqMsg f.octets) = none ∧ haltedReset s mt f.via (reqMsg f.octets) = false
       ∧ (windowPages (reqMsg f.octets)).all (resident s) = false)
    ∧ msgCrcOk [1, 2, 3] = false ∧ writerOf up { from0 [] with udp := 6003 } = none
    ∧ (let f := from0 (msg 2 6 9 0 [])
       f.via ≠ .gable ∧ msgCrcOk f.octets = true ∧ writerOf up f = some mt
       ∧ firstRefusal up mt f.via f.octets.length (reqMsg f.octets) = some stFORMAT)
    ∧ (let f := from0 (msg 1 6 9 0 [])
       let s := { up with hst := { up.hst with sess := vmod up.hst.sess 0 (fun x => { x with seqs := [(9, 7)] }) } }
       firstRefusal s mt f.via f.octets.length (reqMsg f.octets) = some stDUPLICATE) := by decide +kernel

theorem witness_HostFramesJudged_accepted :
    ∀ o ∈ [msg 1 1 0 0 [1, 0, 0, 0], msg 1 2 1 0 [], msg 1 6 65535 0 [],
        msg 1 3 9 0 (natLe 4 0x40000020 ++ [1, 0, 0, 0]), msg 1 3 9 0 (natLe 4 0x51000000 ++ [1, 0, 0, 0]),
        msg 1 4 9 0 (natLe 4 0x40014110 ++ [1, 0, 0, 0] ++ natLe 4 1)],
      let f := from0 o
      let m := reqMsg o
      let x := prpHear { up with pgr := { psramOk := true, cache := [⟨0, false⟩] } } false f.mac f.trailer
      let s := x.1
      f.via ≠ .gable ∧ netHears s = true ∧ portUsed s (netPortOf f) = true ∧ x.2 = true
      ∧ datagramOk s f = true ∧ msgCrcOk f.octets = true ∧ writerOf s f = some (.session 0)
      ∧ firstRefusal s (.session 0) f.via f.octets.length m = none ∧ s.cpr.run = .running
      ∧ m.kind ≠ 5 ∧ isOrder m = false ∧ (windowPages m).all (resident s) = true ∧ (hostPins s).length < 8
      ∧ resHeld s 0 < (sessOf s 0).defn.reserve := by decide +kernel

/-- An EVENT of session 0 with SEQ 3. -/
def event : HostMsg where
  who := mt
  via := .netA
  kind := kindEVENT
  seq := 3
  status := 0
  batten := 100
  payload := []

theorem witness_HostOrdersAndDelivery :
    (let f := from0 (msg 1 4 9 0 (natLe 4 0x40022070 ++ [1, 0, 0, 0] ++ natLe 4 0x10))
     let m := reqMsg f.octets
     f.via ≠ .gable ∧ netHears up = true ∧ portUsed up (netPortOf f) = true ∧ prpMode up = false ∧ (prpHear up false f.mac f.trailer).2 = true
     ∧ datagramOk up f = true ∧ msgCrcOk f.octets = true ∧ writerOf up f = some (.session 0)
     ∧ firstRefusal up (.session 0) f.via f.octets.length m = none ∧ up.cpr.run = .running
     ∧ isOrder m = true ∧ coresRun up = true ∧ up.rdg.incoming.any (fun o => o.src == some 0) = false
     ∧ resHeld up 0 < (sessOf up 0).defn.reserve)
    ∧ (let f := from0 (msg 1 5 10 0 [3, 0, 0, 0])
       let m := reqMsg f.octets
       let s := { up with hst := { up.hst with sess := vmod up.hst.sess 0 (fun x =>
         { x with outstanding := some (event, 1, some 0, 3), routed := [0], delivering := true }) } }
       firstRefusal s (.session 0) f.via f.octets.length m = none ∧ m.kind = 5 ∧ 3 = fieldLe m.body 0 2
       ∧ (sessOf s 0).outstanding = some (event, 1, some 0, 3)
       ∧ event.via ≠ .gable ∧ s.pwr.last = false ∧ 0 + 100 ≤ s.bat.num ∧ ¬ 1 + 100 ≤ s.bat.num ∧ (2 < 3 ∧ 3 ≤ 3) ∧ (sessOf s 0).delivering = true)
    ∧ (sessOf up 0).outstanding = none
    ∧ (let x : Sess := { delivering := true }
       x.lastReq + 60000 ≤ 60000 ∧ x.delivering = true ∧ 59999 < x.lastReq + 60000) := by decide +kernel

theorem witness_GablePort :
    ({ power := .ship } : Pwr).power = .ship
    ∧ (let s := { up with pwr := { power := .dormant, asleep := true } }
       s.pwr.power ≠ .ship ∧ mapUp s = false ∧ s.pwr.asleep = true ∧ s.pwr.shipOrdered = false ∧ s.pwr.waking = false)
    ∧ mapUp up = true ∧ up.hst.gableRx ≠ 0 ∧ msgCrcOk [] = false ∧ ({ octets := [], reserved := true } : GableSend).reserved = true
    ∧ (let o := msg 1 6 9 0xFF []
       bare.hst.gableRx ≠ 0 ∧ msgCrcOk o = true ∧ unconfigured bare = true ∧ mapUp bare = true ∧ bare.pwr.entering = none
       ∧ (reqMsg o).kind = 6 ∧ haltedReset bare .gable .gable (reqMsg o) = false ∧ firstRefusal bare .gable .gable o.length (reqMsg o) = none)
    ∧ (msgOctets { event with who := .gable, via := .gable }).length ≤ 18 - 2 := by decide +kernel

/-- A source without a trailer. -/
def lan : LanSource := ⟨7, none⟩
/-- A source with a trailer of LAN A, sequence number 3. -/
def lanA : LanSource := ⟨7, some ⟨3, false⟩⟩
/-- The PRP pair after the other LAN brought that sequence number. -/
def heardB : State := { prp with hst := { prp.hst with dups := [⟨7, 3, true, 100⟩] } }

theorem witness_LinksAndPrp :
    netHears bare = false ∧ netHears up = true
    ∧ (portUsed up .netA = true ∧ linkUp up.hst.linkA = true ∧ linkUp .down = false)
    ∧ (portSends up .netA = true ∧ portIp up .netA ≠ 0 ∧ (0x0A000001#32).toNat = portIp up .netA ∧ up.hst.icmpA < 10)
    ∧ (0#32).toNat ≠ portIp up .netA ∧ 10 ≤ echoes { up with hst := { icmpA := 10 } } .netA
    ∧ ((prpHear up false lan.mac lan.trailer).2 = true ∧ (prpHear heardB false lanA.mac lanA.trailer).2 = false)
    ∧ (46 + 1482 + 6 * b2n lan.trailer.isSome ≤ 1528 ∧ ¬ (46 + 1482 + 6 * b2n lanA.trailer.isSome ≤ 1528))
    ∧ prpMode up = false ∧ (prpMode prp = true ∧ portSends prp .netA = true)
    ∧ (netHears prp = true ∧ portUsed prp .netA = true ∧ prp.hst.nodes.length < 64)
    ∧ (lanA.trailer ≠ none ∧ (⟨7, 3, true, 100⟩ : DupEntry) ∈ heardB.hst.dups ∧ heardB.bat.num < 100 + 400)
    ∧ prp.hst.nodes.find? (fun n => n.mac == 7) = none
    ∧ (let n : PrpNode := ⟨7, 1000, some 6000, none, none⟩
       [n].find? (fun n => n.mac == 7) = some n ∧ singleLan 6000 n = some false ∧ n.logged = none ∧ singleLan 5999 n = none
       ∧ ({ n with logged := some false } : PrpNode).logged ≠ none) := by
  decide +kernel

/-- A frame that subscription 0 of the image matches. -/
def goose : GooseFrame := ⟨.netA, 0, 7, [], 5, 2000, false, [⟨some 9, false, none⟩], lan⟩

theorem witness_GooseReceived :
    netHears bare = false
    ∧ (netHears heardB = true ∧ portUsed heardB .netA = true ∧ (prpHear heardB false lanA.mac lanA.trailer).2 = false)
    ∧ (List.range up.cfg.goose.length).filter (fun j => gooseMatches (gooseRec up j) { goose with appid := 8 }) = []
    ∧ (netHears up = true ∧ portUsed up .netA = true ∧ (prpHear up false goose.src.mac goose.src.trailer).2 = true
       ∧ (List.range up.cfg.goose.length).filter (fun j => gooseMatches (gooseRec up j) goose) = [0])
    ∧ (goose.simulation = false ∧ membersOk (gooseRec up 0).content goose.members = true)
    ∧ (goose.members[0]? = some ⟨some 9, false, none⟩)
    ∧ (let s := { up with
          cfg := { image with goose := [{ dir := 2, appid := 7, content := 0x41 }] }
          hst := { up.hst with
            sess := vset up.hst.sess 1 (sess 1 0 6001)
            goose := Vector.replicate 24 { first := true } } }
       let ms := List.replicate 4 (⟨some 1, true, some 0⟩ : GooseMember)
       (vget s.hst.goose 0).first = true ∧ (gooseRec s 0).content = 0x41 ∧ requestedStrings s ms ≠ 0 ∧ operating s = true
       ∧ coresRun s = true ∧ protectSess s = some 1 ∧ s.rdg.incoming.find? (fun o => o.src == some 1) = none
       ∧ membersOk (gooseRec s 0).content ms = true)
    ∧ ({ goose with simulation := true } : GooseFrame).simulation = true
    ∧ membersOk (gooseRec up 0).content (List.replicate 9 ⟨none, false, none⟩) = false
    ∧ (let g : GooseRun := { st := .valid, ttl := 100 }
       let s := { up with hst := { goose := vset (Vector.replicate 24 {}) 0 g } }
       (vget s.hst.goose 0).st = .valid ∧ (vget s.hst.goose 0).lastAt + gooseWait s 0 ≤ s.bat.num
       ∧ ¬ (1 + gooseWait s 0 ≤ s.bat.num))
    ∧ (vget up.hst.goose 0).st ≠ .valid := by decide +kernel

theorem witness_LimitsPublished :
    slotNext up 7 = false
    ∧ (let s := { bench with bat := { num := 100, first := false, fixedDone := 7 } }
       slotsRun s = true ∧ slotNext s 7 = true ∧ operating s = false)
    ∧ (let s := { up with bat := { num := 100, first := false, fixedDone := 7 } }
       slotsRun s = true ∧ slotNext s 7 = true ∧ operating s = true ∧ publishes s 0 = false ∧ gateOn s = true)
    ∧ gateOn { up with cpr := { coupling := .shadow } } = false
    ∧ (let k : Can := { cfg := { limitId := 0x40000100 }, configured := true }
       let s := { up with bat := { num := 102, first := false }, can := Vector.replicate 2 k }
       phaseOf s = 2 ∧ canSends s 1 = true ∧ (canOf s 1).frameBatten ≠ s.bat.num)
    ∧ (gooseRec up 0).dir ≠ 1
    ∧ (∀ b, let g : GooseRun := { stNum := 1, sqNum := 0xFFFFFFFF, interval := 2, unsent := b }
       let s := { up with hst := { linkA := .up100, goose := vset (Vector.replicate 24 {}) 1 g } }
       ¬ ((gooseRec s 1).dir ≠ 1 ∨ (vget s.hst.goose 1).interval = 0
          ∨ s.bat.num < (vget s.hst.goose 1).lastAt + (vget s.hst.goose 1).interval ∨ unconfigured s = true
          ∨ ((gooseRec s 1).content = 1 ∧ inBench s = true))
       ∧ (vget s.hst.goose 1).unsent = b
       ∧ goosePortUp s (gooseRec s 1).port = true ∧ mapUp s = true ∧ s.pwr.last = false ∧ s.pwr.halted = false)
    ∧ goosePortUp { up with hst := {} } (gooseRec up 1).port = false := by decide +kernel

theorem witness_CanController :
    (let k : Can := { configured := true, integrated := true, mb := 1, handed := true, frameBatten := 99 }
     let s := { up with can := Vector.replicate 2 k }
     ((canOf s 1).handed = true ∧ (canOf s 1).stopped = false) ∧ (canCompletes s 1 = true ∧ canOnBus s 1 = true) ∧ (canOf s 1).cancel = false
     ∧ ((canOf s 1).frameBatten < s.bat.num ∧ ¬ (canOf s 1).frameBatten < 99) ∧ ¬ (canOf s 1).mb = 2)
    ∧ (let s := { up with can := Vector.replicate 2 { handed := true, frameBatten := 100 } }
       (canOf s 0).handed = true ∧ (canOf s 0).stopped = false ∧ (canOf s 0).frameBatten = s.bat.num)
    ∧ ({ frameBatten := 99 } : Can).frameBatten ≠ up.bat.num ∧ ({ on := 1 } : CanNoAck).on = 1
    ∧ ({ cancel := true, mb := 2 } : Can).cancel = true ∧ 15 ≤ ({ ackErrs := 15 } : Can).ackErrs
    ∧ (canOf up 0).handed = false ∧ (canOf up 0).mb = 0 ∧ canOnBus up 0 = false ∧ (canOf up 0).err ≠ .busOff ∧ (canOf up 0).configured = false
    ∧ (let k : Can := { configured := true, integrated := true, mb := 1, err := .busOff }
       let s := { up with can := Vector.replicate 2 k }
       (canOf s 0).mb ≠ 0 ∧ canOnBus s 0 = false ∧ canCompletes s 0 = false ∧ (canOf s 0).err = .busOff ∧ (canOf s 0).stopped = false)
    ∧ (let k : Can := { configured := true }
       k.configured = true ∧ k.integrated = false ∧ k.stopped = false)
    ∧ beforeFirst up = false ∧ beforeFirst { up with bat := { num := 0, first := true } } = true
    ∧ ({ stopped := true } : Can).stopped = true ∧ ({ integrated := true } : Can).integrated = true := by decide +kernel

/-! ## Ridge -/

/-- The module with string 0's record, Verge answering with 400 V at the string, 380 V at the link. -/
def withStr (x : Str) : State :=
  { up with
    rdg := { strs := vset (Vector.replicate 4 {}) 0 x },
    vrg := {
      powered := true, configured := true, vOk := 0xFF, iOk := Vector.replicate 4 0xF
      v := vset (vset (Vector.replicate 8 0) 0 400) 1 380 } }

theorem witness_LockoutsAndTimers_rows :
    ridgeRuns bare 0 = false ∧ ridgeRuns up 1 = false ∧ ridgeRuns up 0 = true
    ∧ (let x := strOf up 0
       x.phase = .idle ∧ x.cntV = 0 ∧ x.cntT = 0 ∧ x.cooldown = none ∧ x.overrideTo = none ∧ x.weldRun < 10 ∧ x.st = .opened) := by
  decide +kernel

theorem witness_PrechargeRoad :
    (let s := withStr { st := .precharge, phase := .mnSettle, began := 80 }
     ridgeRuns s 0 = true ∧ (strOf s 0).phase = .mnSettle ∧ pullBattens s 0 0 ≤ inPhase s 0
     ∧ (strValid s 0 = true ∧ 0 < vString s 0 ∧ vString s 0 ≤ 2 * vLink s 0) ∧ 0 < (strRec s 0).preWindow)
    ∧ ({ joinMode := true } : Str).joinMode = true ∧ strValid up 0 = false
    ∧ (let s := withStr { st := .precharge, phase := .mnSettle, began := 80 }
       let s := { s with vrg := { s.vrg with v := vset (Vector.replicate 8 0) 0 400 } }
       (strOf s 0).joinMode = false ∧ ¬ vString s 0 ≤ 2 * vLink s 0 ∧ strValid s 0 = true ∧ 0 < vString s 0)
    ∧ (let s := withStr { st := .precharge, phase := .mnSettle, began := 80 }
       let s := { s with vrg := { s.vrg with v := Vector.replicate 8 0 } }
       (strOf s 0).joinMode = false ∧ vString s 0 ≤ 0)
    ∧ (let s := withStr { st := .precharge, phase := .charging, vS := 400, bB := 90, nFast := 10, preFails := 1 }
       (strOf s 0).phase = .charging ∧ at95 s 0 = true ∧ (strOf s 0).nFast ≤ ((s.bat.num - (strOf s 0).bB : Nat) : Rat)
       ∧ ((s.bat.num - 91 : Nat) : Rat) < (strOf s 0).nFast ∧ (strOf s 0).preFails < 2 ∧ ¬ 2 < 2 ∧ (strOf s 0).st ≠ .lockout)
    ∧ (let s := withStr { st := .precharge, phase := .charging, vS := 401, bB := 90, nSlow := 10 }
       at95 s 0 = false ∧ (strOf s 0).nSlow ≤ s.bat.num - (strOf s 0).bB ∧ (strOf s 0).preFails < 2)
    ∧ (let s := withStr { st := .precharge, phase := .joinWait, joinRun := 3, began := 100 }
       ridgeRuns s 0 = true ∧ (strOf s 0).phase = .joinWait ∧ 3 ≤ (strOf s 0).joinRun)
    ∧ (let s := { withStr { st := .precharge, phase := .joinWait, joinRun := 2 } with bat := { num := 500, first := false } }
       (strOf s 0).joinRun < 3 ∧ (strRec s 0).preWindow ≤ inPhase s 0) := by decide +kernel

theorem witness_RunAndOpening :
    (let s := withStr { st := .closed, phase := .overlap, began := 80 }
     ridgeRuns s 0 = true ∧ (strOf s 0).phase = .overlap ∧ pullBattens s 0 1 ≤ inPhase s 0 ∧ standstillCause (strOf s 0) = false)
    ∧ standstillCause { thermal := true } = true
    ∧ (let s := withStr { st := .closed, phase := .ramp, ramp := true, bR := 80, lowRun := 2 }
       (strOf s 0).phase = .ramp ∧ 2 ≤ (strOf s 0).lowRun ∧ (strRec s 0).openOrder ≠ 2
       ∧ (strOf s 0).ramp = true ∧ (strOf s 0).bR + 20 ≤ s.bat.num ∧ (strOf s 0).rampAck = false)
    ∧ (let s := withStr { st := .closed, phase := .ramp, bR := 0 }
       (strOf s 0).bR + (strRec s 0).rampMs ≤ s.bat.num)
    ∧ (let s := { withStr { phase := .ramp, lowRun := 2 } with cfg := { image with strings := [{ openOrder := 2 }] } }
       ridgeRuns s 0 = true ∧ (strOf s 0).phase = .ramp ∧ 2 ≤ (strOf s 0).lowRun ∧ (strRec s 0).openOrder = 2)
    ∧ (let s := withStr { phase := .sequence, began := 80 }
       (strOf s 0).phase = .sequence ∧ 20 ≤ inPhase s 0)
    ∧ (let s := withStr { st := .standstill, phase := .hold, clearRun := 10 }
       (strOf s 0).phase = .hold ∧ s.bat.num % 10 = 0 ∧ 10 ≤ (strOf s 0).clearRun ∧ standstillCause (strOf s 0) = false)
    ∧ (let s := withStr { st := .standstill, phase := .hold, began := 0 }
       let s := { s with vrg := { s.vrg with i := Vector.replicate 4 3 } }
       ridgeRuns s 0 = true ∧ holdCurrent s 0 = true)
    ∧ (let s := { withStr { st := .standstill, phase := .hold, stopLow := 2 } with pwr := { stop := 1 } }
       ridgeRuns s 0 = true ∧ thermalDue s 0 = true) := by decide +kernel

theorem witness_LockoutsAndTimers :
    (let s := withStr { st := .closed, phase := .run, cntV := 10 }
     ridgeRuns s 0 = true ∧ persists s 0 (strOf s 0).cntV = true ∧ (strOf s 0).st ≠ .lockout ∧ persists s 0 9 = false)
    ∧ (let s := withStr { st := .closed, phase := .run, cntT := 10 }
       persists s 0 (strOf s 0).cntV = false ∧ persists s 0 (strOf s 0).cntT = true ∧ (strOf s 0).st ≠ .lockout)
    ∧ (let s := withStr { st := .closed, phase := .run, cntI := 10 }
       persists s 0 (strOf s 0).cntV = false ∧ persists s 0 (strOf s 0).cntT = false ∧ persists s 0 (strOf s 0).cntI = true
       ∧ (strOf s 0).phase = .run ∧ (strRec s 0).rampMs ≠ 0)
    ∧ ((strOf (withStr { weldRun := 10 }) 0).st = .opened ∧ 10 ≤ (strOf (withStr { weldRun := 10 }) 0).weldRun)
    ∧ (strOf (withStr { cooldown := some 100, overrideTo := some 100 }) 0).cooldown = some 100
    ∧ (strOf (withStr { cooldown := some 100, overrideTo := some 100 }) 0).overrideTo = some 100 ∧ 100 ≤ up.bat.num
    ∧ ({ resetAt := some 100 } : Rdg).resetAt = some 100 ∧ 100 + 10000 < 10101 ∧ 10100 ≤ 100 + 10000 ∧ up.rdg.resetAt = none := by
  decide +kernel

theorem witness_OrdersLatched :
    (sessRole up 0 ≠ 0 ∧ operating up = true ∧ coresRun up = true ∧ ∀ o ∈ up.rdg.incoming, o.src ≠ some (0 : Fin 8))
    ∧ sessRole up 7 = 0 := by decide +kernel

theorem witness_RidgeEvaluates :
    slotNext up 5 = false
    ∧ (let s := { bench with bat := { num := 100, first := false, fixedDone := 5 },
                             rdg := { latched := [⟨some 0, .close, 1, false, 0, 9, true, false⟩] } }
       slotsRun s = true ∧ slotNext s 5 = true ∧ operating s = false
       ∧ s.rdg.latched = [⟨some 0, .close, 1, false, 0, 9, true, false⟩] ∧ (1#4) ≠ 0 ∧ (1#4).getLsbD 0 = true)
    ∧ sparTripSeen (ridgeWord up) = true
    ∧ (let s := { up with spar := { presented := 0xB, fresh := true },
                          bat := { num := 100, first := false, fixedDone := 5 },
                          rdg := { latched := [⟨some 0, .close, 1, false, 0, 9, true, false⟩] } }
       operating s = true ∧ slotsRun s = true ∧ slotNext s 5 = true ∧ ridgeWord s = some 0xB ∧ (0xB#32).getLsbD 3 = true
       ∧ 0 < nStr s ∧ (⟨some 0, .close, 1, false, 0, 9, true, false⟩ : Order) ∈ s.rdg.latched) := by decide +kernel

/-- The module with its port in service, a limit set in force and Verge answering, the string's record and the latched
orders given; Spar ARMED. -/
def arbiter (x : Str) (os : List Order) : State :=
  let s := withPort { st := .inService } (withStr x)
  { s with
    bat := { num := 100, first := false, fixedDone := 5 }
    est := { s.est with force := some { batten := 99, allIn := 1 } }
    tha := { s.tha with cells := Vector.replicate 512 {} }
    spar := { presented := 0xB, fresh := true }
    cfg := { image with plant := { image.plant with cellsTotal := 0 }, ports := [{ kind := 1, string := 0 }] }
    rdg := { s.rdg with latched := os, resetAt := some 90 }
    hst := { s.hst with sess := vset s.hst.sess 3 (sess 2 0 6004) } }

/-- An order of session `n` for string 0. -/
def order (n : Fin 8) (k : OrderKind) (v : Nat) : Order := ⟨some n, k, 1, false, v, 9, true, false⟩

theorem witness_RidgeEvaluates_close :
    let o := order 1 .close 0
    let s := arbiter {} [o]
    let r := ridgeGather (endSlot s 5)
    let w := ridgeWord s
    let os := s.rdg.latched ++ localOrder s w
    operating s = true ∧ slotsRun s = true ∧ slotNext s 5 = true ∧ 0 < nStr s ∧ sparTripSeen w = false ∧ lockCause r 0 = none
    ∧ ordersFor r os .opening 0 = [] ∧ closeRefusal r 0 w = none ∧ (∀ j < nStr s, strState r j ≠ .precharge)
    ∧ ordersFor r os .close 0 = [o] ∧ (strOf s 0).phase ≠ .run ∧ takesPart r o 0 = true
    ∧ (let s := { s with pwr := { level := 3 } }
       closeRefusal (ridgeGather (endSlot s 5)) 0 w = some .thermal)
    ∧ strState (ridgeGather (endSlot (arbiter { st := .precharge } [o]) 5)) 0 = .precharge := by decide +kernel

theorem witness_RidgeEvaluates_others :
    (let s := arbiter { st := .closed, phase := .run } [order 1 .opening 0, order 3 .close 0]
     let r := ridgeGather (endSlot s 5)
     let os := s.rdg.latched ++ localOrder s (ridgeWord s)
     ordersFor r os .opening 0 ≠ [] ∧ lockCause r 0 = none ∧ hardCauses r 0 = [] ∧ (strRec s 0).rampMs ≠ 0
     ∧ s.rdg.expired = false ∧ s.rdg.reclaim = false ∧ takesPart r (order 3 .close 0) 0 = true)
    ∧ (let s := arbiter { st := .closed, phase := .run, mismatch := true } []
       let r := ridgeGather (endSlot s 5)
       hardCauses r 0 = [] ∧ softCauses r 0 false = [] ∧ standstillCause (strOf r 0) = true)
    ∧ (let s := arbiter { st := .lockout, phase := .locked } [order 0 .lockoutAck 0]
       let r := ridgeGather (endSlot s 5)
       ordersFor r s.rdg.latched .lockoutAck 0 ≠ [] ∧ strState s 0 = .lockout ∧ s.rdg.resetAt = some 90 ∧ 90 < s.bat.num
       ∧ s.bat.num ≤ 90 + 10000 ∧ lockCause r 0 = none)
    ∧ (let s := arbiter {} [order 3 .limit 65535, order 4 .limit 7]
       let s := { s with hst := { s.hst with sess := vset s.hst.sess 4 (sess 2 0 6005) } }
       let r := ridgeGather (endSlot s 5)
       limitsFor r s.rdg.latched 0 false = [order 3 .limit 65535, order 4 .limit 7] ∧ limitsFor r s.rdg.latched 0 true = []
       ∧ takesPart r (order 3 .limit 65535) 0 = true)
    ∧ (let s := arbiter {} [order 2 .close 0]
       orderPermitted .close (sourceRole s (order 2 .close 0)) = false) := by decide +kernel

/-! ## Verge and feedback -/

/-- The Verge die up with a configuration. -/
def verge : Vrg where
  powered := true
  configured := true
  cfg := { div := [1000, 1000], shunt := [100, 0, 0, 0] }
  ended := some ⟨400, 400, 400, 400, 1⟩
  cycleOver := true

/-- Frame 0 of batten 100, every code within range. -/
def frame0 : VergeFrame := ⟨0, 100, true, true, true, true, Vector.replicate 8 131071, Vector.replicate 4 (-8388607)⟩

theorem witness_VergeFrames :
    up.vrg.powered = false
    ∧ (let s := { up with vrg := { verge with resultDue := some (1, 2, false, false, false, 1) } }
       ¬ (s.vrg.powered = false ∨ s.vrg.configured = false ∨ s.vrg.seen.getLsbD frame0.k = true ∨ unconfigured s = true)
       ∧ (frameGood s frame0 && shuntUsed s 0 && inside 8388608 (vget frame0.amps 0)) = true
       ∧ (frameGood s frame0 && shuntUsed s 3 && inside 8388608 (vget frame0.amps 3)) = false
       ∧ (decide (frame0.k.val = 0) && frameGood s frame0 && voltUsed s 1 && inside 131072 (vget frame0.volts 1)) = true
       ∧ (voltUsed s 7 = false) ∧ inside 131072 131072 = false ∧ frameGood s { frame0 with crcOk := false } = false
       ∧ s.vrg.resultDue = some (1, 2, false, false, false, 1))
    ∧ ({ frame0 with k := 3 } : VergeFrame).k.val ≠ 0 := by decide +kernel

theorem witness_VergeDie :
    (let s := { up with vrg := { verge with seen := 8 } }
     s.vrg.seen.getLsbD 3 = true ∧ s.vrg.seen.getLsbD 0 = false ∧ unconfigured s = false
     ∧ s.vrg.powered = true ∧ s.vrg.configured = true)
    ∧ unconfigured bare = true ∧ up.vrg.powered = false ∧ mapUp up = true
    ∧ mapUp { up with pwr := { power := .dormant } } = false := by decide +kernel

theorem witness_InsulationCycle :
    (let s := { up with vrg := verge }
     unconfigured s = false ∧ s.vrg.cycleOver = true ∧ vergeUp s = true ∧ s.vrg.ended = some ⟨400, 400, 400, 400, 1⟩ ∧ absR ((400 : Rat) - 400) ≤ 1 / 4)
    ∧ ¬ absR ((400 : Rat) - 399) ≤ 1 / 4
    ∧ (vergeUp up = false ∧ up.vrg.cycleOver = false ∧ up.vrg.ended = none)
    ∧ (absI (250000 - 0) ≤ 250000 ∧ absI (0 - 250000) ≤ 250000) ∧ ¬ absI (250001 - 0) ≤ 250000
    ∧ absI (-100000000) ≤ 100000000 ∧ ¬ absI 100000001 ≤ 100000000
    ∧ ((400 : Rat) * mkRat (-80000000) 1000000 ≠ 400 * mkRat (-60000000) 1000000)
    ∧ mkRat 25000000 1000000 ≠ mkRat (-25000000) 1000000 := by decide +kernel

theorem witness_FeedbackCounts :
    fbkRuns { up with pwr := { power := .dormant } } = false ∧ fbkRuns up = true
    ∧ (let f : Fbk := { cfg := { mode := 1 }, a := true, b := false, c := false, hallRef := some 1 }
       f.cfg.mode = 1 ∧ f.hallRef = some 1
       ∧ (b2n true + 2 * b2n true ≠ b2n f.a + 2 * b2n f.b + 4 * b2n f.c ∧ hallNext 1 = b2n true + 2 * b2n true)
       ∧ (hallNext 5 = 1 ∧ hallNext 1 ≠ 5) ∧ (hallNext 1 ≠ 2 ∧ hallNext 2 ≠ 1) ∧ f.still = false)
    ∧ (let f : Fbk := { cfg := { mode := 2, lines := 100 }, a := false, b := false, c := false, indexSeen := true, dir := .forward, indexDir := .forward }
       f.cfg.mode = 2 ∧ f.a ≠ true ∧ f.b = false ∧ f.c = false ∧ f.indexSeen = true ∧ f.dirChanged = false ∧ f.dir = .forward ∧ f.indexDir = .forward)
    ∧ (let f : Fbk := { cfg := { mode := 3 }, a := false, restart := false }
       f.cfg.mode = 3 ∧ f.a = false ∧ f.restart = false ∧ f.since + 1 ≠ 0)
    ∧ (fbkOf up 0).cfg.mode = 0 ∧ (fbkOf up 0).cfg.pass ≠ 1 ∧ ({ pass := 1 } : FeedbackRec).pass = 1
    ∧ (let s := { up with fbk := Vector.replicate 4 { cfg := { mode := 3, standstill := 100 } } }
       (fbkOf s 3).cfg.mode ≠ 0 ∧ (fbkOf s 3).still = false ∧ (fbkOf s 3).countAt + (fbkOf s 3).cfg.standstill ≤ s.bat.num
       ∧ ¬ 1 + (fbkOf s 3).cfg.standstill ≤ s.bat.num)
    ∧ battensRun { up with pwr := { halted := true } } = false := by decide +kernel

theorem witness_QuadratureChange :
    (let s := { up with fbk := Vector.replicate 4 { cfg := { mode := 2 }, a := true, b := false } }
     fbkRuns s = true ∧ (fbkOf s 3).cfg.mode = 2 ∧ b2n (fbkOf s 3).a + 2 * b2n (fbkOf s 3).b = 1)
    ∧ [(false, false), (true, false), (true, true), (false, true)].map (fun (x : Bool × Bool) => b2n x.1 + 2 * b2n x.2) = [0, 1, 3, 2] := by
  decide +kernel

/-! ## Ledger, pager, registers -/

theorem witness_LedgerCommits : ∃ pl, memSafe { up with led := { busy := some (.wipe (.cell 511) none, false, pl), vholdOk := true } }
    ∧ ({ up with led := { busy := some (.wipe (.cell 511) none, false, pl), vholdOk := true } } : State).led.busy
      = some (.wipe (.cell 511) none, false, pl)
    ∧ mayCommit { up with led := { busy := some (.wipe (.cell 511) none, false, pl), vholdOk := true } } = true :=
  ⟨List.replicate 56 0, memSafe_blank _ rfl rfl rfl rfl, rfl, by decide +kernel⟩
theorem witness_LedgerCommits_second :
    memSafe { up with led := { busy := some (.write .module, true, []) } } ∧ up.led.busy = none
    ∧ commitRec (.write .module) = .module := ⟨memSafe_blank _ rfl rfl rfl rfl, rfl, rfl⟩

theorem witness_LedgerCommits_powerFail :
    ({ pfail := true } : Led).pfail = true ∧ up.led.pfail = false ∧ up.led.vholdOk = false
    ∧ (let l : Led := { vholdOk := true, staged := [(.write .module, false)] }
       l.busy = none ∧ l.vholdOk = true ∧ l.staged = (.write .module, false) :: [] ∧ l.pfail = false)
    ∧ up.pwr.power ≠ .ship ∧ ({ power := .ship } : Pwr).power = .ship
    ∧ unconfigured up = false ∧ ({ busy := some (.write .module, false, []) } : Led).busy ≠ none := by decide +kernel

theorem witness_PagesAndSegments :
    up.pgr.budget = 0 ∧ demandRuns (busy [] (some ⟨4, 0, false, 100, false⟩)) = true ∧ demandRuns up = false
    ∧ (let p : Pgr := { budget := 1, psramOk := true, cache := [⟨5, true⟩] }
       p.budget ≠ 0 ∧ p.psramOk = true ∧ p.cache.find? (·.modified) = some ⟨5, true⟩)
    ∧ (let s := { up with pgr := { budget := 8, psramOk := true, cache := List.replicate 63 ⟨5, false⟩, queue := [⟨.host, 7, none⟩] } }
       s.pgr.cache.find? (·.modified) = none ∧ nextFetch s = some 7 ∧ s.pgr.cache.length < 64)
    ∧ nextFetch { up with pgr := { budget := 8, psramOk := true } } = none
    ∧ (let s := { up with bat := { num := 2288 }, pgr := { segs := vset (Vector.replicate 4 {}) 3 { st := .collecting, latest := 2000 } } }
       liveSeg s = some 3 ∧ (vget s.pgr.segs 3).st = .collecting ∧ (vget s.pgr.segs 3).start + 2288 ≤ s.bat.num
       ∧ (vget s.pgr.segs 0).st = .free)
    ∧ liveSeg up = none ∧ (isSupervise up sv = true ∧ unconfigured up = false ∧ up.cpr.run ≠ .halted) ∧ isSupervise up cv = false := by decide +kernel

theorem witness_RegisterReads :
    (unconfigured up = false ∧ up.cpr.run ≠ .halted ∧ writeRole up sv ≠ 0 ∧ writeRole up sv ≠ roleCONVERTER) ∧ writeRole up cv = roleCONVERTER
    ∧ readRole up (.session 7) = 0 ∧ (readRole up cv ≠ 0 ∧ readRole up cv ≤ 5)
    ∧ (readRole up sv = roleSUPERVISE ∨ readRole up sv = roleMAINTAIN) ∧ readRole up mt = roleMAINTAIN
    ∧ ¬ (readRole up cv = roleSUPERVISE ∨ readRole up cv = roleMAINTAIN) := by decide +kernel

theorem witness_MaintenanceWrites :
    (isMaintain up mt = true ∧ unconfigured up = false ∧ up.cpr.run ≠ .halted ∧ operating up = true ∧ hasStr up 0 = true ∧ strState up 0 = .opened)
    ∧ hasStr up 3 = false ∧ (writeRole up sv ≠ 0 ∧ isMaintain up sv = false)
    ∧ writeRole up (.session 7) = 0
    ∧ (0 < portCells up 0 ∧ strState up (portRec up 0).string = .opened)
    ∧ ¬ ((portOf up 31).st = .outOfService ∨ 0 < portCells up 31) ∧ ((2#2).toNat < 3 ∧ ¬ (3#2).toNat < 3)
    ∧ (1 < nCells up ∧ nCells up ≤ (511#9).toNat) := by decide +kernel

theorem witness_RegisterWrites :
    mayWrite up sv (0x40014110#32).toNat = false ∧ (writeRole up (.session 7) = 0 ∧ inBench up = false)
    ∧ (unconfigured bare = true ∧ 0x40014110#32 ∉ [0x40001034#32, 0x40001038, 0x4000103C, 0x40029018, 0x40027108])
    ∧ (isMaintain up mt = true ∧ unconfigured up = false ∧ up.cpr.run ≠ .halted) ∧ isSupervise up sv = true
    ∧ ({ run := .halted } : Cpr).run = .halted := by decide +kernel

/-! ## Starts, low power, heat -/

theorem witness_ColdStarts :
    ({ power := .ship } : Pwr).power = .ship ∧ up.pwr.power ≠ .ship ∧ (up.eav.down = false ∧ eavRuns up = true) ∧ up.led.busy = none := by
  decide +kernel

theorem witness_WarmAndSoftRestarts :
    ({ restarting := true } : Img).restarting = true ∧ up.cpr.run ≠ .halted ∧ up.pwr.halted = false ∧ ({ halted := true } : Pwr).halted = true ∧ up.img.restarting = false ∧ restartArmed up = false
    ∧ (let s := { up with img := { stage := .reloadPending, armed := true }, bat := { num := 109 } }
       restartArmed s = true ∧ phaseOf s = 9)
    ∧ (let s := { up with cpr := { run := .halted } }
       s.cpr.run = .halted ∧ mapUp s = true ∧ anyLockout s = false)
    ∧ anyLockout (withStr { st := .lockout }) = true
    ∧ writeRole up (.session 7) = 0 ∧ (writeRole up sv ≠ 0 ∧ isMaintain up sv = false ∧ unconfigured up = false)
    ∧ (isMaintain up mt = true ∧ up.cpr.run ≠ .halted ∧ allOpen up = true)
    ∧ (let s := withStr { st := .closed }
       isMaintain s mt = true ∧ ¬ (unconfigured s = true ∨ inBench s = true ∨ allOpen s = true)) := by decide +kernel

theorem witness_DormantAndWakes :
    up.pwr.entering = none
    ∧ (let p : Pwr := { entering := some 90 }
       p.entering ≠ none ∧ p.asleep = false)
    ∧ (let p : Pwr := { asleep := true }
       p.asleep = true ∧ p.shipOrdered = false ∧ p.power ≠ .dormant ∧ p.waking = false)
    ∧ (operating up = true ∧ operating bench = false ∧ allOpen up = true ∧ allOpen (withStr { st := .closed }) = false)
    ∧ sparWakes up = false ∧ sparWakes { up with spar := { pressed := true } } = true
    ∧ (let p : Pwr := { power := .dormant, timer := some (500, 1), asleep := true }
       p.power = .dormant ∧ p.timer = some (500, 1) ∧ p.asleep = true ∧ p.shipOrdered = false ∧ p.waking = false)
    ∧ ({ waking := true } : Pwr).waking = true ∧ up.pwr.waking = false
    ∧ (0 ∈ usedPorts up ∧ (portOf (withPort { st := .inService } up) 0).st = .inService)
    ∧ (let s := { up with bat := { num := 10000, first := false }, pwr := { wakeRound := some 0 } }
       s.pwr.wakeRound = some 0 ∧ 0 + 10000 ≤ s.bat.num ∧ roundOver s 0 = true)
    ∧ up.pwr.wakeRound = none := by decide +kernel

theorem witness_ShipAndHalt :
    up.cfg.power.map (·.shipOk) = some 1 ∧ writeRole up (.session 7) = 0 ∧ (writeRole up sv ≠ 0 ∧ isMaintain up sv = false)
    ∧ (isMaintain up mt = true ∧ operating up = true ∧ allOpen up = true ∧ up.led.work.stopCells = none ∧ up.cpr.run ≠ .halted)
    ∧ (unconfigured bare = true ∧ bare.pwr.halted = false ∧ mapUp bare = true ∧ bare.img.restarting = false ∧ bare.pwr.level < 3
       ∧ bare.pwr.stop = 0)
    ∧ (isMaintain bench mt = true ∧ unconfigured bench = false ∧ operating bench = false)
    ∧ ({ image with power := none } : Image).power.map (·.shipOk) ≠ some 1
    ∧ (let p : Pwr := { shipOrdered := true, asleep := true }
       p.shipOrdered = true ∧ p.asleep = true)
    ∧ (let s := { up with pwr := { offSent := true } }
       s.pwr.halted = false ∧ mapUp s = true ∧ s.img.restarting = false ∧ s.pwr.offSent = true)
    ∧ (up.pwr.halted = false ∧ unconfigured up = false ∧ up.pwr.offSent = false)
    ∧ (let p : Pwr := { halted := true, coolRounds := 9 }
       p.halted = true ∧ 9 ≤ p.coolRounds) ∧ up.cpr.run ≠ .halted
    ∧ (-550 ≤ max (1199 : Int) 1198 ∧ max (1199 : Int) 1198 < 1200 ∧ ¬ max (1199 : Int) 1200 < 1200)
    ∧ mapUp { up with pwr := { power := .dormant } } = false ∧ mapUp up = true
    ∧ (readerInReset up 2 = true ∧ readerInReset up 3 = false ∧ readerInReset up 14 = false ∧ vget up.cdc.fill 14 = 0) := by decide +kernel
theorem witness_ShipAndHalt_cool : ∀ n : Fin 6, ∃ a b,
    vget (Vector.replicate 6 (AdcSample.ok 1199 (-550))) n = .ok a b ∧ -550 ≤ max a b ∧ max a b < 1200 := by
  intro n; exact ⟨1199, -550, by revert n; decide, by decide, by decide⟩

/-! ## Single commands, against values worked out from the manual -/

/-- What a command's next state shows; none where it stops. -/
def after {α : Type} (c : Instr) (s : State) (f : State → α) : Option α :=
  match exec c s with
  | .next t => some (f t)
  | _ => none

/-- The octets of the text 123456789. -/
def digits : List Byte := [0x31, 0x32, 0x33, 0x34, 0x35, 0x36, 0x37, 0x38, 0x39]

/-- R51: the check value of the IEEE 802.3 CRC-32. -/
theorem test_crc32 : crc32 digits = 0xCBF43926#32 := by decide +kernel
/-- R93: the check value of CRC-16 with polynomial 0x1021 and initial value 0xFFFF. -/
theorem test_crc16 : crc16 digits = 0x29B1#16 := by decide +kernel
/-- R52: FIPS 180-4's example of SHA-256, "abc". -/
theorem test_sha256 : (sha256 [0x61, 0x62, 0x63]).take 4 = [0xBA, 0x78, 0x16, 0xBF] := by decide +kernel
/-- R6: words are little-endian. -/
theorem test_octets : natLe 4 0x11223344 = [0x44, 0x33, 0x22, 0x11] ∧ leNat [0x44, 0x33, 0x22, 0x11] = 0x11223344 := by decide +kernel
/-- R47: programming clears bits; an erased byte is listed no more. -/
theorem test_memory : memPut 0xFF (memPut 0xFF [] 5 0x0F) 5 0xFF = [] ∧ memGet 0xFF (memPut 0xFF [] 5 0x0F) 5 = 0x0F := by decide +kernel
/-- R97: a MEAS frame's fields where its layout puts them. -/
theorem test_meas_fields : (readMeas up 0 (line 9 (natLe 2 7 ++ natLe 2 33000 ++ List.replicate 38 0 ++ natLe 4 3))).map
    (fun r => (r.2.batten, r.2.volts.headD 0, r.2.status)) = some (7, 33000, 3) := by decide +kernel
/-- The operation table gives no row bits: no word spells a command. -/
theorem test_decode_none : decodeTableWord 16 0x1234 = none := by decide

/-- R25: the next batten's number. -/
theorem test_batten_edge : after .battenEdge up (fun t => (t.bat.num, t.bat.cycle)) = some (101, 0) := by decide +kernel
/-- R35: an entry due again runs once, with a deferral count of 0; the instance that was pending is withdrawn. -/
theorem test_coalesces : after .battenEdge { up with
      cfg := { image with schedule := [{ id := 9, task := 9, cls := 2, mask := 1023 }] }
      bat := { num := 100, first := false, deferred := [⟨9, 2, true, 99, false⟩] } }
    (fun t => (coresRun t, t.bat.todo, t.bat.deferred)) = some (true, [⟨9, 0, false, 101, false⟩], []) := by decide +kernel
/-- R91: no answer by 70.0 µs. -/
theorem test_uplink_start : after (.uplinkStartExpiry 0) up (fun t => ((portOf t 0).exch, (portOf t 0).errMisses))
    = some (.noResponse, 1) := by decide +kernel
/-- R98: a frame of the batten is accepted. -/
theorem test_meas_accepted : after (.measFrameReceived 0 (measFrame 100 0)) up (fun t => (portOf t 0).exch) = some .accepted := by
  decide +kernel
/-- R98: a frame stamped with another batten is refused. -/
theorem test_meas_stamp : after (.measFrameReceived 0 (measFrame 99 0)) up (fun t => ((portOf t 0).exch, (portOf t 0).errFrames))
    = some (.stamp, 1) := by decide +kernel
/-- R103: ten missed battens in a row take the port out of service with cause LINK. -/
theorem test_miss_limit : after (.portMissLimit 0) (withPort { st := .inService, missed := 10 } up)
    (fun t => ((portOf t 0).st, (portOf t 0).cause)) = some (.outOfService, .link) := by decide +kernel
/-- R110: four accepted battens with the tone unmasked end SYNCING. -/
theorem test_syncing : after (.syncingComplete 0) (withPort { st := .syncing, accRun := 4 } { up with spar := { toneMask := 0 } })
    (fun t => (portOf t 0).st) = some .identifying := by decide +kernel

/-- R252: a silent tone trips with cause 8. -/
theorem test_tone : after (.toneSilence 0) (sparIn .armed) (fun t => (t.spar.mode, t.spar.causes, t.spar.gateCmd))
    = some (.tripped, 0x100, 0) := by decide +kernel
/-- R253: a silent string lane trips with cause 9, the over-voltage lane with cause 10. -/
theorem test_lanes : after (.laneSilence 0) (sparIn .armed) (fun t => t.spar.causes) = some 0x200
    ∧ after (.laneSilence 4) (sparIn .armed) (fun t => t.spar.causes) = some 0x400 := by decide +kernel
/-- R247: an opened channel of the first emergency stop trips with cause 0. -/
theorem test_contact : after (.contactFilterChange 1 false) (sparIn .armed) (fun t => (t.spar.mode, t.spar.causes.getLsbD 0))
    = some (.tripped, true) := by decide +kernel
/-- R243: in UNCONFIGURED a silent tone latches nothing. -/
theorem test_tone_unconfigured : after (.toneSilence 0) (sparIn .unconfigured) (fun t => (t.spar.mode, t.spar.causes))
    = some (.unconfigured, 0) := by decide +kernel

/-- R291, R292: a word with its check right, inverted gates and a new SEQ is accepted. -/
theorem test_intent : after (.intentWordAccept (some offWord)) eavUp (fun t => (t.eav.on, t.eav.seqNo, t.eav.refused)) = some (0, 5, 0) := by
  decide +kernel
/-- R292: a word with a wrong check is refused and counted. -/
theorem test_intent_refused : after (.intentWordAccept (some { offWord with p4 := 0 })) eavUp (fun t => (t.eav.on, t.eav.refused))
    = some (1, 1) := by decide +kernel
/-- R304: the hold window's expiry turns every channel off. -/
theorem test_hold : after .holdWindowExpiry { eavUp with eav := { eavUp.eav with hold := true } }
    (fun t => (eavOn t, (chanOf t 0).conducting, t.spar.holdExpired)) = some (0, false, true) := by decide +kernel
/-- R301: a short switches the channel off and leaves a retry pending. -/
theorem test_short : after (.channelShort 0) eavUp (fun t => ((chanOf t 0).conducting, (chanOf t 0).short, (chanOf t 0).retryPending))
    = some (false, true, true) := by decide +kernel

/-- R274: the agreed Spar word: OR from bit 6 up, AND of bits 5 to 3, TRIPPED wins. -/
theorem test_agreed_word : agreeWord 0x4B 0x84 = 0xC4#32 := by decide +kernel
/-- R275, R278: a WATCHDOG resets the pair and is counted. -/
theorem test_watchdog : after (.watchdog .barrierMissed) up (fun t => (t.cpr.run, t.cpr.byWatchdog, t.cpr.lastKind))
    = some (.inReset 0, 1, 8) := by decide +kernel
/-- R280: a second failed self-test halts both cores. -/
theorem test_self_test : after (.corePairRestartComplete { passed with pc := ⟨1, []⟩ }) { up with cpr := { run := .inReset 1 } }
    (fun t => (t.cpr.run, t.cpr.selfFails)) = some (.halted, 1) := by decide +kernel
/-- R281: SPLIT from a SUPERVISE session is answered 2. -/
theorem test_split_role : after (.split sv 1 5) up (fun t => t.cpr.splitRes) = some 2 := by decide +kernel

/-- R33: no work starts at a cycle beyond the batten. -/
theorem test_no_such_cycle : exec (.slotEntryStart 240000 .failed) up = .fault .noSuchCycle := by rfl
/-- R33: at the ceiling nothing starts and the rest of the batten's work is deferred. -/
theorem test_ceiling : after .ceilingReached (busy [⟨3, 0, false, 100, false⟩] none) (fun t => (t.bat.todo, t.bat.deferCnt)) = some ([], 1) := by
  decide +kernel
/-- R38: a critical piece at its WCET is stopped and counted. -/
theorem test_wcet : after .slotWcetReached (busy [] (some ⟨2, 0, false, 100, false⟩)) (fun t => (t.bat.running, t.bat.overrunCnt)) = some (none, 1) := by
  decide +kernel
/-- R42: three seconds without a usable Sync are HOLDOVER with the trim at the last estimate. -/
theorem test_holdover : after .syncLossTimeout { up with bat := { num := 3000, first := false, sync := .locked, freqEst := 17 } }
    (fun t => (t.bat.sync, t.bat.trim)) = some (.holdover, 17) := by decide +kernel

/-- R319: a NOP of session 0 is accepted and queued. -/
theorem test_nop : after (.nopRequest (from0 (msg 1 6 9 0 []))) up (fun t => (t.hst.queue.length, (t.hst.sent.map (·.kind)), t.hst.refused))
    = some (1, [kindACCEPT], 0) := by decide +kernel
/-- R319: a message with a damaged CRC is discarded and counted. -/
theorem test_bad_crc : after (.nopRequest (from0 (List.replicate 16 0))) up (fun t => (t.hst.discarded, t.hst.sent)) = some (1, []) := by
  decide +kernel
/-- R337: a new GOOSE frame makes its subscription VALID. -/
theorem test_goose : after (.gooseFrameReceived goose) up (fun t => ((vget t.hst.goose 0).st, (vget t.hst.goose 0).stNum)) = some (.valid, 5) := by
  decide +kernel
/-- R335: the repeat raises sqNum and doubles the interval. -/
theorem test_goose_repeat : after (.gooseRepeat 1)
    { up with hst := {
        linkA := .up100, goose := vset (Vector.replicate 24 {}) 1 { st := .publishing, stNum := 1, sqNum := 0, interval := 2 } } }
    (fun t => ((vget t.hst.goose 1).sqNum, (vget t.hst.goose 1).interval)) = some (1, 4) := by decide +kernel
/-- R348: a complete attempt empties the mailbox and is counted. -/
theorem test_can_sent : after (.canFrameComplete 0 (.complete {}))
    { up with can := Vector.replicate 2 { configured := true, integrated := true, mb := 2, tecCnt := 4 } }
    (fun t => ((canOf t 0).mb, (canOf t 0).sent, (canOf t 0).tecCnt)) = some (0, 1, 3) := by decide +kernel

/-- R224, R226: three precharge failures in a row are Lockout. -/
theorem test_precharge_repeated : after (.precharge95Reached 0)
    (withStr { st := .precharge, phase := .charging, vS := 400, bB := 95, nFast := 10, preFails := 2 })
    (fun t => ((strOf t 0).st, (strOf t 0).cause)) = some (.lockout, .prechargeRepeated) := by decide +kernel
/-- R223: 95 % reached in time closes main-positive. -/
theorem test_precharge_done : after (.precharge95Reached 0)
    (withStr { st := .precharge, phase := .charging, vS := 400, bB := 90, nFast := 10 })
    (fun t => ((strOf t 0).st, (strOf t 0).phase)) = some (.closed, .overlap) := by decide +kernel
/-- R231: a weld locks the string. -/
theorem test_weld : after (.weld 0) (withStr { weldRun := 10 }) (fun t => ((strOf t 0).st, (strOf t 0).cause)) = some (.lockout, .weld) := by
  decide +kernel
/-- R215, R222, R233: a CLOSE that meets every condition enters Precharge and is DONE; a valid LOCKOUT ACK moves Lockout to
Open. -/
theorem test_arbitration : after .ridgeEvaluation (arbiter {} [order 1 .close 0])
      (fun t => ((strOf t 0).st, (strOf t 0).phase, (vget t.rdg.resA 1).res.head?)) = some (.precharge, .mnSettle, some .done)
    ∧ after .ridgeEvaluation (arbiter { st := .lockout, phase := .locked } [order 0 .lockoutAck 0])
      (fun t => ((strOf t 0).st, (vget t.rdg.resA 0).res.head?)) = some (.opened, some .done) := by decide +kernel
/-- R219, R220, R228: OPEN beats CLOSE and begins the ramp; the lowest LIMIT sets the ceiling. -/
theorem test_arbitration_beats : after .ridgeEvaluation (arbiter { st := .closed, phase := .run } [order 1 .opening 0, order 3 .close 0])
      (fun t => ((strOf t 0).st, (strOf t 0).phase, (vget t.rdg.resA 3).res.head?)) = some (.closed, .ramp, some .lostToOpen)
    ∧ after .ridgeEvaluation (arbiter {} [order 3 .limit 65535, order 3 .limit 7])
      (fun t => ((strOf t 0).ceilChg, (strOf t 0).ceilDis)) = some (some 7, none) := by decide +kernel
/-- R218: an order is latched for the next edge, one to a session. -/
theorem test_order : after (.close 0 9 1) up (fun t => t.rdg.incoming.map (·.seq)) = some [9]
    ∧ after (.close 0 10 1) { up with rdg := { incoming := [⟨some 0, .close, 1, false, 0, 9, true, false⟩] } }
      (fun t => t.rdg.incoming.map (·.seq)) = some [9] := by decide +kernel

/-- R357, R358: a frame with a wrong CRC leaves every value; a good one is taken. -/
theorem test_verge_frame : after (.vergeFrameReceived { frame0 with crcOk := false }) { up with vrg := verge } (fun t => (t.vrg.seen, t.vrg.vOk))
      = some (1, 0)
    ∧ after (.vergeFrameReceived frame0) { up with vrg := verge } (fun t => (t.vrg.vOk, vget t.vrg.iOk 0)) = some (3, 1) := by decide +kernel
/-- R371: quadrature counts up when A leads B, and counts both lines changing at once as an error. -/
theorem test_quadrature : after (.feedbackLineChange 0 ⟨true, false, false, 100⟩)
      { up with fbk := Vector.replicate 4 { cfg := { mode := 2, lines := 100 }, a := false, b := false, c := false } }
      (fun t => (fbkOf t 0).pos) = some 1
    ∧ after (.feedbackLineChange 0 ⟨true, true, false, 100⟩)
      { up with fbk := Vector.replicate 4 { cfg := { mode := 2, lines := 100 }, a := false, b := false, c := false } }
      (fun t => ((fbkOf t 0).pos, (fbkOf t 0).errs)) = some (0, 1) := by decide +kernel

/-- R199: PFAIL with VHOLD_OK starts one CHARGE commit with CAUSE 1. -/
theorem test_pfail : after .pfailAsserted { up with led := { vholdOk := true } } (fun t => t.led.busy.map (·.1))
    = some (some (.write (.charge 1))) := by decide +kernel
/-- R211: a frozen segment is freed by its bit, a collecting one is not. -/
theorem test_fclear : after (.pgrFclearWrite sv 3)
    { up with pgr := { segs := vset (vset (Vector.replicate 4 {}) 0 { st := .frozen }) 1 { st := .collecting } } }
    (fun t => ((vget t.pgr.segs 0).st, (vget t.pgr.segs 1).st)) = some (.free, .collecting) := by decide +kernel
/-- R309: the balance hold is MAINTAIN's. -/
theorem test_register_write : after (.registerWrite mt 0x40014110 5) up (fun t => t.tha.balHold) = some 5
    ∧ after (.registerWrite sv 0x40014110 5) up (fun t => t.tha.balHold) = some 0 := by decide +kernel
/-- R79: ERASE needs SEALOPEN. -/
theorem test_erase : after (.erase mt false) up (fun t => t.img.stage) = some .idle
    ∧ after (.erase mt false) { up with lands := { sealOpen := true } } (fun t => (t.img.stage, t.img.targetB)) = some (.erasing, true) := by
  decide +kernel
/-- R387: the wake land wakes a sleeping module, with bit 0 of PWR_WAKE. -/
theorem test_wake : after (.wakeSource .wakeLand) { up with pwr := { power := .dormant, asleep := true } }
    (fun t => (t.pwr.waking, t.pwr.wake.getLsbD 0)) = some (true, true) := by decide +kernel
/-- R408: SHIP from a SUPERVISE session is answered 2. -/
theorem test_ship_role : after (.ship sv) up (fun t => t.pwr.cmdRes) = some 2 := by decide +kernel
/-- R397: an item for a reader held in reset is dropped and counted. -/
theorem test_crossing : after (.crossingWakeRequest 2) up (fun t => (t.cdc.wakes, vget t.cdc.dropped 2)) = some (0, 1) := by
  decide +kernel

end Sys2Proof.Tests
end

section
/-! Host accesses to single registers (R6, R7, R309 to R312): what a register write and a register read can do, and the
statements about them. -/

namespace Sys2Proof.Machine

/-! ## The reader's and the writer's own copy (R311) -/

theorem copyOf_lt (s : State) (who : Who) : copyOf s who < 9 := by
  unfold copyOf
  split <;> omega

/-- Of the host part of `s` no more than the copy of `who` differs in `t`, and that one is the old one changed by `f`. -/
def OwnCopyBecomes (s : State) (who : Who) (f : Latches → Latches) (t : State) : Prop :=
  (t.hst = { s.hst with latches := t.hst.latches } ∧ ∀ n, n ≠ copyOf s who → vget t.hst.latches n = vget s.hst.latches n)
  ∧ vget t.hst.latches (copyOf s who) = f (vget s.hst.latches (copyOf s who))

theorem ownCopyBecomes_of_hst {s t : State} {who : Who} {f : Latches → Latches} (h : t.hst = (modCopy s who f).hst) :
    OwnCopyBecomes s who f t := by
  unfold OwnCopyBecomes
  rw [h]
  exact ⟨⟨rfl, fun _ hn => vget_vmod_ne _ f hn⟩, vget_vmod_same _ f (copyOf_lt s who)⟩

theorem completes_of_modCopy {c : Instr} {s : State} {who : Who} {f : Latches → Latches}
    (h : exec c s = .next (modCopy s who f)) : completes c s [.hst] (OwnCopyBecomes s who f) :=
  ⟨_, h, (modCopy_leaves s who f).rest, ownCopyBecomes_of_hst rfl⟩

/-! ## A register write -/

section Writes

variable {s : State} {who : Who} {a : Nat} {v w : Word}

/-- With both cores halted for good a soft reset alone is served (R280). -/
theorem writeRow_of_halted (h : s.cpr.run = .halted) (hr : a ≠ 0x40029018 ∨ v.toNat % 16 ≠ 2) : writeRow s who a v = s := by
  have soft : ¬(a = 0x40029018 ∧ v.toNat % 16 = 2) := fun ⟨ha, hv⟩ => hr.elim (· ha) (· hv)
  simp [writeRow, writesServed, h, soft]

theorem writeRow_of_not_mayWrite (h : mayWrite s who a = false) : writeRow s who a v = s := by
  simp [writeRow, h]

theorem writeRow_of_mayWrite (hs : s.cpr.run ≠ .halted) (h : mayWrite s who a = true) :
    writeRow s who a v = (applyWrite s who a v).2 := by
  simp [writeRow, writesServed, hs, h]

/-- Two words that a register's block takes alike are written alike; PWR_CMD alone is served by its word (R280). -/
theorem writeRow_congr (ha : a ≠ 0x40029018) (h : applyWrite s who a v = applyWrite s who a w) :
    writeRow s who a v = writeRow s who a w := by
  simp [writeRow, ha, h]

theorem isMaintain_of_no_role (h : writeRole s who = 0) : isMaintain s who = false := by
  simp [isMaintain, h, roleMAINTAIN]

theorem isSupervise_of_no_role (h : writeRole s who = 0) : isSupervise s who = false := by
  simp [isSupervise, isMaintain_of_no_role h, h, roleSUPERVISE]

/-- In Unconfigured the image stage, PWR_CMD and HST_BENCH alone can be written (R76). -/
theorem mayWrite_of_unconfigured (h : unconfigured s = true)
    (ha : a ∉ [0x40001034, 0x40001038, 0x4000103C, 0x40029018, 0x40027108]) : mayWrite s who a = false := by
  have out : [0x40001034, 0x40001038, 0x4000103C, 0x40029018, 0x40027108].contains a = false := by
    simpa only [List.contains_eq_mem, decide_eq_false_iff_not] using ha
  simp only [mayWrite, h, out, Bool.and_false, if_true]

/-- Without a role HST_BENCH is what remains: the Gable port may write it (R312). -/
theorem mayWrite_of_no_role (h : writeRole s who = 0) (hb : inBench s = false) (ha : a ≠ 0x40027108) :
    mayWrite s who a = false := by
  have hm := isMaintain_of_no_role h
  have hv := isSupervise_of_no_role h
  unfold mayWrite
  dsimp only
  split
  · simp [h]
  · split
    case h_23 => exact absurd rfl ha
    case h_24 => split <;> simp [h]
    all_goals simp [h, hb, hm, hv]

theorem mayWrite_balHold (hc : unconfigured s = false) : mayWrite s who 0x40014110 = isMaintain s who := by
  simp [mayWrite, hc]

theorem mayWrite_localSel (hc : unconfigured s = false) : mayWrite s who 0x40022074 = isSupervise s who := by
  simp [mayWrite, hc]

/-- EST_SEL, EST_ZSEL and LED_CSEL: any role but CONVERTER, outside Unconfigured (R76, R309). -/
theorem mayWrite_selection (ha : a = 0x40020020 ∨ a = 0x40020100 ∨ a = 0x4002B020) :
    mayWrite s who a = true ↔ unconfigured s = false ∧ writeRole s who ≠ 0 ∧ writeRole s who ≠ roleCONVERTER := by
  rcases ha with rfl | rfl | rfl <;> cases hc : unconfigured s <;> simp [mayWrite, hc]

/-- The selection of a cell is refused to whoever may not write it, and while writes are not served (R280). -/
theorem writeRow_selection_refused (ha : a = 0x40020020 ∨ a = 0x40020100 ∨ a = 0x4002B020)
    (h : ¬(unconfigured s = false ∧ s.cpr.run ≠ .halted ∧ writeRole s who ≠ 0 ∧ writeRole s who ≠ roleCONVERTER)) :
    writeRow s who a v = s := by
  by_cases hs : s.cpr.run = .halted
  · exact writeRow_of_halted hs (.inl (by omega))
  · refine writeRow_of_not_mayWrite (Bool.eq_false_iff.mpr fun hm => ?_)
    obtain ⟨hc, hr⟩ := (mayWrite_selection ha).mp hm
    exact h ⟨hc, hs, hr⟩

end Writes

/-! ## What each register's block takes of a word (R6, R309) -/

section Blocks

variable (s : State) (who : Who) (v : Word)

theorem applyWrite_estSel : applyWrite s who 0x40020020 v = (true, writeEstSel s who (v.toNat % 512)) := rfl

theorem applyWrite_zSel : applyWrite s who 0x40020100 v = (true, writeZSel s who (v.toNat % 512) (bits v.toNat 10 9)) := rfl

theorem applyWrite_ledSel : applyWrite s who 0x4002B020 v = (true, writeLedSel s who (v.toNat % 512)) := rfl

theorem applyWrite_reinit : applyWrite s who 0x4002006C v = (true, writeReinit s (v.toNat % 512) (v.toNat.testBit 9)) := rfl

theorem applyWrite_fclear : applyWrite s who 0x50000030 v = (true, freeSegments s (v.toNat % 16)) := rfl

theorem applyWrite_cdcOvr : applyWrite s who 0x4002A000 v = tookOr s (cdcClear s who (v.setWidth 15)) := rfl

theorem applyWrite_balHold :
    applyWrite s who 0x40014110 v = (true, { s with tha := { s.tha with balHold := v.setWidth 4 } }) := rfl

theorem applyWrite_localSel :
    applyWrite s who 0x40022074 v = (true, { s with rdg := { s.rdg with localSel := v.setWidth 4 } }) := rfl

end Blocks

/-! ## The commands that write registers -/

section WriteCommands

variable (s : State) (who : Who)

theorem exec_registerWrite (a v : Word) : exec (.registerWrite who a v) s = .next (writeRow s who a.toNat v) := rfl

theorem exec_estSelWrite (c : BitVec 9) :
    exec (.estSelWrite who c) s = .next (writeRow s who 0x40020020 (c.setWidth 32)) := rfl

theorem exec_estZselWrite (c : BitVec 9) (j : BitVec 2) :
    exec (.estZselWrite who c j) s = .next (writeRow s who 0x40020100 (BitVec.ofNat 32 (c.toNat + 512 * j.toNat))) := rfl

theorem exec_ledCselWrite (c : BitVec 9) :
    exec (.ledCselWrite who c) s = .next (writeRow s who 0x4002B020 (c.setWidth 32)) := rfl

theorem exec_estReinitWrite (c : BitVec 9) (whole : Bool) :
    exec (.estReinitWrite who c whole) s
      = .next (writeRow s who 0x4002006C (BitVec.ofNat 32 (c.toNat + 512 * b2n whole))) := rfl

theorem exec_pgrFclearWrite (m : BitVec 4) :
    exec (.pgrFclearWrite who m) s = .next (writeRow s who 0x50000030 (m.setWidth 32)) := rfl

theorem exec_cdcOvrClear (m : BitVec 15) :
    exec (.cdcOvrClear who m) s = .next (writeRow s who 0x4002A000 (m.setWidth 32)) := rfl

end WriteCommands

/-! ## Words as their fields -/

theorem toNat_cell_mod (c : BitVec 9) : (c.setWidth 32).toNat % 512 = c.toNat := by
  rw [BitVec.toNat_setWidth]
  omega

/-- The word of EST_ZSEL: the cell in [8:0], the resistance in [10:9] (R188). -/
theorem toNat_zSel (c : BitVec 9) (j : BitVec 2) :
    (BitVec.ofNat 32 (c.toNat + 512 * j.toNat)).toNat = c.toNat + 512 * j.toNat := by
  rw [BitVec.toNat_ofNat]
  omega

theorem toNat_zSel_mod (c : BitVec 9) (j : BitVec 2) :
    (BitVec.ofNat 32 (c.toNat + 512 * j.toNat)).toNat % 512 = c.toNat := by
  rw [toNat_zSel]
  omega

theorem bits_zSel (c : BitVec 9) (j : BitVec 2) : bits (BitVec.ofNat 32 (c.toNat + 512 * j.toNat)).toNat 10 9 = j.toNat := by
  rw [toNat_zSel, bits]
  omega

/-- The word of EST_REINIT: the cell in [8:0], the whole string in [9] (R166). -/
theorem toNat_reinit (c : BitVec 9) (b : Bool) : (BitVec.ofNat 32 (c.toNat + 512 * b2n b)).toNat = c.toNat + 512 * b2n b := by
  have flag : b2n b ≤ 1 := by cases b <;> decide
  rw [BitVec.toNat_ofNat]
  omega

theorem toNat_reinit_mod (c : BitVec 9) (b : Bool) : (BitVec.ofNat 32 (c.toNat + 512 * b2n b)).toNat % 512 = c.toNat := by
  rw [toNat_reinit]
  omega

theorem testBit_reinit (c : BitVec 9) (b : Bool) : (BitVec.ofNat 32 (c.toNat + 512 * b2n b)).toNat.testBit 9 = b := by
  have quot : (c.toNat + 512 * b2n b) / 512 = b2n b := by omega
  rw [toNat_reinit, Nat.testBit_eq_decide_div_mod_eq, show 2 ^ 9 = 512 from rfl, quot]
  cases b <;> rfl

/-! ## A register with a command of its own has one meaning (R6, R309) -/

section OneMeaning

variable {s : State} {who : Who} {a v w : Word}

/-- A command that writes a word which the register's block takes as it takes `v` is the write of `v`. -/
theorem exec_registerWrite_eq {c : Instr} (hc : exec c s = .next (writeRow s who a.toNat w)) (ha : a.toNat ≠ 0x40029018)
    (h : applyWrite s who a.toNat v = applyWrite s who a.toNat w) : exec (.registerWrite who a v) s = exec c s := by
  rw [exec_registerWrite, hc, writeRow_congr ha h]

variable (s who v)

theorem exec_registerWrite_estSel : exec (.registerWrite who 0x40020020 v) s = exec (.estSelWrite who (v.setWidth 9)) s := by
  refine exec_registerWrite_eq (exec_estSelWrite s who _) (by decide) ?_
  have cell : ((v.setWidth 9).setWidth 32).toNat % 512 = v.toNat % 512 := by
    rw [toNat_cell_mod, BitVec.toNat_setWidth]
  exact (applyWrite_estSel s who v).trans ((applyWrite_estSel s who _).trans (by rw [cell])).symm

theorem exec_registerWrite_zSel :
    exec (.registerWrite who 0x40020100 v) s = exec (.estZselWrite who (v.setWidth 9) ((v >>> 9).setWidth 2)) s := by
  refine exec_registerWrite_eq (exec_estZselWrite s who _ _) (by decide) ?_
  have index : ((v >>> 9).setWidth 2).toNat = bits v.toNat 10 9 := by
    rw [BitVec.toNat_setWidth, BitVec.toNat_ushiftRight, Nat.shiftRight_eq_div_pow, bits]
  refine (applyWrite_zSel s who v).trans ((applyWrite_zSel s who _).trans ?_).symm
  rw [toNat_zSel_mod, bits_zSel, index, BitVec.toNat_setWidth]

theorem exec_registerWrite_reinit :
    exec (.registerWrite who 0x4002006C v) s = exec (.estReinitWrite who (v.setWidth 9) (v.getLsbD 9)) s := by
  refine exec_registerWrite_eq (exec_estReinitWrite s who _ _) (by decide) ?_
  refine (applyWrite_reinit s who v).trans ((applyWrite_reinit s who _).trans ?_).symm
  rw [toNat_reinit_mod, testBit_reinit, BitVec.toNat_setWidth, BitVec.getLsbD]

theorem exec_registerWrite_fclear :
    exec (.registerWrite who 0x50000030 v) s = exec (.pgrFclearWrite who (v.setWidth 4)) s := by
  refine exec_registerWrite_eq (exec_pgrFclearWrite s who _) (by decide) ?_
  have mask : ((v.setWidth 4).setWidth 32).toNat % 16 = v.toNat % 16 := by
    rw [BitVec.toNat_setWidth, BitVec.toNat_setWidth]
    omega
  exact (applyWrite_fclear s who v).trans ((applyWrite_fclear s who _).trans (by rw [mask])).symm

theorem exec_registerWrite_cdcOvr :
    exec (.registerWrite who 0x4002A000 v) s = exec (.cdcOvrClear who (v.setWidth 15)) s := by
  refine exec_registerWrite_eq (exec_cdcOvrClear s who _) (by decide) ?_
  have mask : ((v.setWidth 15).setWidth 32).setWidth 15 = v.setWidth 15 := by
    apply BitVec.eq_of_toNat_eq
    simp only [BitVec.toNat_setWidth]
    omega
  exact (applyWrite_cdcOvr s who v).trans ((applyWrite_cdcOvr s who _).trans (by rw [mask])).symm

end OneMeaning

/-! ## A register read -/

/-- The state as a read leaves it before the register clears anything: what it latches in the reader's copy, and the fresh
value it takes (R7, R311). -/
def latchRead (s : State) (who : Who) (a : Nat) : State := { readLatch s who a with fresh := s.fresh + 1 }

section Reads

variable {s : State} {who : Who} {a v : Nat}

theorem latchRead_leaves (s : State) (who : Who) (a : Nat) : Leaves [.fresh, .hst] s (latchRead s who a) :=
  leaves_fresh rfl ((readLatch_leaves s who a).wide rfl)

/-- BAT_COUNT_LO latches the high word of the batten number (R44). -/
theorem readLatch_batCountLo (s : State) (who : Who) :
    readLatch s who 0x40000000 = modCopy s who (fun l => { l with batHi := s.bat.num / 2 ^ 32 % 65536 }) := rfl

/-- Word 0 of a Gutter entry latches its other words (R418). -/
theorem readLatch_gtrEntry (s : State) (who : Who) (i : Fin 1024) :
    readLatch s who (0x40034000 + 16 * i.val) = modCopy s who (fun l => { l with
      gtrIdx := i.val, gtr := [1, 2, 3].map (fun w => BitVec.ofNat 32 (entryWord s i w)) }) := by
  have index : (0x40034000 + 16 * i.val - 0x40034000) / 16 = i.val := by omega
  have notBat : 0x40034000 + 16 * i.val ≠ 0x40000000 := by omega
  have word0 : (0x40034000 ≤ 0x40034000 + 16 * i.val && 0x40034000 + 16 * i.val < 0x40038000
      && (0x40034000 + 16 * i.val) % 16 = 0) = true := by
    simp only [Bool.and_eq_true, decide_eq_true_eq]
    omega
  rw [readLatch, if_neg notBat, if_pos word0, index]

/-- No other register latches anything. -/
theorem latchRead_of_no_latch (h0 : a ≠ 0x40000000) (h : a < 0x40034000 ∨ 0x40038000 ≤ a ∨ a % 16 ≠ 0) :
    latchRead s who a = { s with fresh := s.fresh + 1 } := by
  have word0 : ¬(0x40034000 ≤ a && a < 0x40038000 && a % 16 = 0) = true := by
    simp only [Bool.and_eq_true, decide_eq_true_eq]
    omega
  rw [latchRead, readLatch, if_neg h0, if_neg word0]

/-- A read does not change its reader's role. -/
theorem clears_latchRead (s : State) (who : Who) (a : Nat) : clears (latchRead s who a) who = clears s who := by
  have roles : ∀ f n, readRole { modCopy s who f with fresh := n } who = readRole s who := fun _ _ => rfl
  unfold clears latchRead readLatch
  split
  · rw [roles]
  · split
    · rw [roles]
    · rfl

theorem readReg_of_none (h : regAt s (copyOf s who) a = none) : (readReg s who a).1 = s := by
  simp only [readReg, h]

theorem readReg_of_ro (h : regAt s (copyOf s who) a = some (.ro, v)) : (readReg s who a).1 = latchRead s who a := by
  simp only [readReg, h, latchRead]

theorem readReg_of_rc (h : regAt s (copyOf s who) a = some (.rc, v)) (hc : clears s who = true) :
    (readReg s who a).1 = rcClear (latchRead s who a) a := by
  rw [← clears_latchRead s who a] at hc
  rw [latchRead] at hc ⊢
  simp only [readReg, h, hc, if_true]

/-- A reader whose read clears nothing leaves the register as it was (R310). -/
theorem readReg_of_not_clears (hc : clears s who = false) :
    (readReg s who a).1 = s ∨ (readReg s who a).1 = latchRead s who a := by
  rw [← clears_latchRead s who a, latchRead] at hc
  rcases h : regAt s (copyOf s who) a with _ | ⟨acc, v⟩
  · exact .inl (readReg_of_none h)
  · right
    cases acc <;> simp [readReg, h, hc, latchRead]

/-! ## Who reads (R310) -/

theorem clears_iff : clears s who = true ↔ readRole s who = roleSUPERVISE ∨ readRole s who = roleMAINTAIN := by
  simp [clears]

theorem readRow_of_clears (h : clears s who = true) : readRow s who a = (readReg s who a).1 := by
  have may : mayRead s who a = true := by simp [mayRead, clears_iff.mp h]
  rw [readRow, if_pos may]

theorem readRow_of_no_role (h : readRole s who = 0) : readRow s who a = s := by
  have may : mayRead s who a = false := by
    unfold mayRead
    cases regAt s (copyOf s who) a <;>
      simp [h, rolePROTECT, roleDISPATCH, roleCONVERTER, roleSUPERVISE, roleMAINTAIN]
  simp [readRow, may]

/-- A read by a role that clears nothing changes the reader's copy at most (R310). -/
theorem readRow_of_not_clears_leaves (h : clears s who = false) : Leaves [.fresh, .hst] s (readRow s who a) := by
  unfold readRow
  refine .ite ?_ .refl
  rcases readReg_of_not_clears (a := a) h with e | e <;> rw [e]
  · exact .refl
  · exact latchRead_leaves s who a

/-! ## The registers read -/

theorem regAt_batCountLo (s : State) (copy : Nat) : regAt s copy 0x40000000 = some (.ro, s.bat.num % 2 ^ 32) := rfl

theorem regAt_batDrop (s : State) (copy : Nat) : regAt s copy 0x40000020 = some (.rc, s.bat.dropCnt) := rfl

theorem regAt_ledCount (s : State) (copy : Nat) :
    regAt s copy 0x4002B004 = some (.rc, pack [(0, s.led.commits), (16, s.led.failed)]) := rfl

theorem regAt_cprCount (s : State) (copy : Nat) :
    regAt s copy 0x40040008 = some (.rc, pack [(0, s.cpr.restartable), (16, s.cpr.protective)]) := rfl

/-- An array of registers at its own offsets. -/
theorem at?_eq_some {base i n step : Nat} (hs : 0 < step) (hi : i < n) : at? (base + step * i) base n step = some i := by
  have inside : (base ≤ base + step * i && step * i % step = 0 && i < n) = true := by
    simp only [Nat.le_add_right, Nat.mul_mod_right, hi, decide_true, Bool.and_self]
  rw [at?, Nat.add_sub_cancel_left, Nat.mul_div_cancel_left i hs, if_pos inside]

/-- An array of registers past its end. -/
theorem at?_eq_none {off base n step : Nat} (h : n ≤ (off - base) / step) : at? off base n step = none := by
  have outside : ¬(base ≤ off && (off - base) % step = 0 && (off - base) / step < n) = true := by
    simp only [Bool.and_eq_true, decide_eq_true_eq]
    omega
  rw [at?, if_neg outside]

/-- Word 0 of an entry of the Gutter's ring, which stands from 0x4000 of its block on (R418). -/
theorem gtrReg_entry (s : State) (copy : Nat) (i : Fin 1024) :
    gtrReg s copy (0x4000 + 16 * i.val) = some (.ro, gtrWord s copy i.val 0) := by
  have word : at? (0x4000 + 16 * i.val) 0x4000 4096 4 = some (4 * i.val) := by
    rw [show 16 * i.val = 4 * (4 * i.val) by omega]
    exact at?_eq_some (by decide) (by omega)
  unfold gtrReg
  split
  case h_4 => rw [word, Option.map_some, show 4 * i.val / 4 = i.val by omega, show 4 * i.val % 4 = 0 by omega]
  all_goals omega

theorem regAt_gtrEntry (s : State) (copy : Nat) (i : Fin 1024) :
    regAt s copy (0x40034000 + 16 * i.val) = some (.ro, gtrWord s copy i.val 0) := by
  have aligned : ¬(0x40034000 + 16 * i.val) % 4 ≠ 0 := by omega
  have off : 0x40034000 + 16 * i.val - 0x40030000 = 0x4000 + 16 * i.val := by omega
  have block : (0x40034000 + 16 * i.val) / 0x1000 = 0x40034 ∨ (0x40034000 + 16 * i.val) / 0x1000 = 0x40035
      ∨ (0x40034000 + 16 * i.val) / 0x1000 = 0x40036 ∨ (0x40034000 + 16 * i.val) / 0x1000 = 0x40037 := by omega
  rcases block with b | b | b | b <;> simp [regAt, aligned, b, off, gtrReg_entry]

/-- The counts of a channel, which stand from 0x200 of Eaves' block on (R307). -/
theorem eavReg_chanCount (s : State) (k : Fin 24) :
    eavReg s (0x200 + 4 * k.val) = some (.rc, pack [(0, (chanOf s k).fails), (16, (chanOf s k).clamps)]) := by
  have notStatus : at? (0x200 + 4 * k.val) 0x100 24 4 = none := at?_eq_none (by omega)
  have count : at? (0x200 + 4 * k.val) 0x200 24 4 = some k.val := at?_eq_some (by decide) k.isLt
  unfold eavReg
  dsimp only
  split
  case h_10 => rw [notStatus, count]
  all_goals omega

theorem regAt_chanCount (s : State) (copy : Nat) (k : Fin 24) :
    regAt s copy (0x40024200 + 4 * k.val) = some (.rc, pack [(0, (chanOf s k).fails), (16, (chanOf s k).clamps)]) := by
  have aligned : ¬(0x40024200 + 4 * k.val) % 4 ≠ 0 := by omega
  have off : (0x40024200 + 4 * k.val) % 0x1000 = 0x200 + 4 * k.val := by omega
  have block : (0x40024200 + 4 * k.val) / 0x1000 = 0x40024 := by omega
  rw [regAt, if_neg aligned, off, block]
  exact eavReg_chanCount s k

/-- Every role may read BAT_COUNT_LO (R310). -/
theorem mayRead_batCountLo (h0 : readRole s who ≠ 0) (h5 : readRole s who ≤ 5) : mayRead s who 0x40000000 = true := by
  have role : readRole s who = 1 ∨ readRole s who = 2 ∨ readRole s who = 3 ∨ readRole s who = 4 ∨ readRole s who = 5 := by
    omega
  rcases role with h | h | h | h | h <;> simp only [mayRead, h, regAt_batCountLo] <;> rfl

/-- A read of an RC register by a role whose reads clear takes a fresh value and clears the register (R7, R310). -/
theorem readRow_of_rc (hc : clears s who = true) (h : regAt s (copyOf s who) a = some (.rc, v)) (h0 : a ≠ 0x40000000)
    (hl : a < 0x40034000 ∨ 0x40038000 ≤ a ∨ a % 16 ≠ 0) : readRow s who a = rcClear { s with fresh := s.fresh + 1 } a := by
  rw [readRow_of_clears hc, readReg_of_rc h hc, latchRead_of_no_latch h0 hl]

theorem rcClear_batDrop (s : State) : rcClear s 0x40000020 = { s with bat := { s.bat with dropCnt := 0 } } := rfl

theorem rcClear_ledCount (s : State) : rcClear s 0x4002B004 = { s with led := { s.led with commits := 0, failed := 0 } } := rfl

theorem rcClear_cprCount (s : State) :
    rcClear s 0x40040008 = { s with cpr := { s.cpr with restartable := 0, protective := 0 } } := rfl

theorem rcClear_chanCount (s : State) (k : Fin 24) :
    rcClear s (0x40024200 + 4 * k.val) = modChan s k (fun c => { c with fails := 0, clamps := 0 }) := by
  have index : (0x40024200 + 4 * k.val - 0x40024200) / 4 = k.val := by omega
  have table : rcClearTable s (0x40024200 + 4 * k.val) = s := by simp (disch := omega) only [rcClearTable, if_neg]
  have host : rcClearHost s (0x40024200 + 4 * k.val) = s := by simp (disch := omega) only [rcClearHost, if_neg]
  have pair : rcClearPair s (0x40024200 + 4 * k.val) = s := by simp (disch := omega) only [rcClearPair, if_neg]
  rw [rcClear, table, host, pair]
  simp (disch := omega) only [rcClearRows, Bool.and_eq_true, decide_eq_true_eq, if_neg, if_pos, index]

end Reads

section ReadCommands

variable (s : State) (who : Who)

theorem exec_batCountLoRead : exec (.batCountLoRead who) s = .next (readRow s who 0x40000000) := rfl

theorem exec_gtrEntryRead (i : Fin 1024) : exec (.gtrEntryRead who i) s = .next (readRow s who (0x40034000 + 16 * i.val)) := rfl

theorem exec_readClearRegister (a : Word) : exec (.readClearRegister who a) s = .next (readRow s who a.toNat) := rfl

theorem completes_of_latchRead {c : Instr} {a : Nat} {f : Latches → Latches} (h : exec c s = .next (latchRead s who a))
    (hf : readLatch s who a = modCopy s who f) : completes c s [.fresh, .hst] (OwnCopyBecomes s who f) :=
  ⟨_, h, (latchRead_leaves s who a).rest, ownCopyBecomes_of_hst (by rw [latchRead, hf])⟩

/-- A channel's counts are cleared and no more of Eaves changes (R7, R310). -/
theorem completes_readClear_chanCount (hc : clears s who = true) (k : Fin 24) :
    completes (.readClearRegister who (BitVec.ofNat 32 (0x40024200 + 4 * k.val))) s [.fresh, .eav]
      (fun t => chanOnly k s t ∧ chanOf t k = { chanOf s k with fails := 0, clamps := 0 }) := by
  have addr : (BitVec.ofNat 32 (0x40024200 + 4 * k.val)).toNat = 0x40024200 + 4 * k.val := by
    rw [BitVec.toNat_ofNat]
    omega
  have row := readRow_of_rc hc (regAt_chanCount s (copyOf s who) k) (by omega) (by omega)
  refine ⟨modChan { s with fresh := s.fresh + 1 } k (fun c => { c with fails := 0, clamps := 0 }), ?_, ?_, ⟨rfl, ?_⟩, ?_⟩
  · rw [exec_readClearRegister, addr, row, rcClear_chanCount]
  · exact ((modChan_leaves _ _ _).step rfl (leaves_fresh rfl .refl)).rest
  · exact fun m hm => chanOf_modChan_ne _ _ hm
  · exact chanOf_modChan _ _ k.isLt

end ReadCommands

/-! ## Selections of a cell (R166, R188, R212) -/

section Selections

variable {s : State} {who : Who} (c : BitVec 9)
  (may : unconfigured s = false ∧ s.cpr.run ≠ .halted ∧ writeRole s who ≠ 0 ∧ writeRole s who ≠ roleCONVERTER)

include may

theorem writeRow_selection_taken {a : Nat} (v : Word) (ha : a = 0x40020020 ∨ a = 0x40020100 ∨ a = 0x4002B020) :
    writeRow s who a v = (applyWrite s who a v).2 := by
  obtain ⟨hc, hs, hr⟩ := may
  exact writeRow_of_mayWrite hs ((mayWrite_selection ha).mpr ⟨hc, hr⟩)

theorem exec_estSelWrite_taken : exec (.estSelWrite who c) s
    = .next (modCopy s who (fun l => { l with estSel := c.toNat, est := estLatch s c.toNat })) := by
  rw [exec_estSelWrite, writeRow_selection_taken may _ (by omega), applyWrite_estSel, toNat_cell_mod, writeEstSel]

theorem exec_estZselWrite_taken (j : BitVec 2) : exec (.estZselWrite who c j) s
    = .next (modCopy s who (fun l => { l with zSel := c.toNat, zIdx := j.toNat, z := zLatch s c.toNat j.toNat })) := by
  rw [exec_estZselWrite, writeRow_selection_taken may _ (by omega), applyWrite_zSel, toNat_zSel_mod, bits_zSel, writeZSel]

theorem exec_ledCselWrite_taken : exec (.ledCselWrite who c) s
    = .next (modCopy s who (fun l => { l with ledSel := c.toNat, led := ledLatch s c.toNat })) := by
  rw [exec_ledCselWrite, writeRow_selection_taken may _ (by omega), applyWrite_ledSel, toNat_cell_mod, writeLedSel]

end Selections

end Sys2Proof.Machine

namespace Sys2Proof

open Machine

/-- Settles O56: the first four clauses are the cases in which `writeRow` lets nothing through, the next two what its block
does with a word let through, and the rest the commands that write the same word. -/
theorem registerWrites : Obligations.RegisterWrites := by
  unfold Obligations.RegisterWrites
  intro who a v s
  have named : ∀ b : Word, a ≠ b → a.toNat ≠ b.toNat := fun b h e => h (BitVec.eq_of_toNat_eq e)
  refine ⟨fun hs hr => ?_, fun hm => ?_, fun h0 hb ha => ?_, fun hu ha => ?_, fun hm hc hs => ?_, fun hv hc hs => ?_,
    exec_registerWrite_estSel s who v, exec_registerWrite_zSel s who v, exec_registerWrite_reinit s who v,
    exec_registerWrite_fclear s who v, exec_registerWrite_cdcOvr s who v⟩
  · rw [exec_registerWrite, writeRow_of_halted (Decidable.not_not.mp hs) (hr.imp_left (named _))]
  · rw [exec_registerWrite, writeRow_of_not_mayWrite hm]
  · rw [exec_registerWrite, writeRow_of_not_mayWrite (mayWrite_of_no_role h0 hb (named _ ha))]
  · have out : a.toNat ∉ [0x40001034, 0x40001038, 0x4000103C, 0x40029018, 0x40027108] := by
      simpa [← BitVec.toNat_inj] using ha
    rw [exec_registerWrite, writeRow_of_not_mayWrite (mayWrite_of_unconfigured hu out)]
  · exact congrArg Host.Outcome.next
      ((writeRow_of_mayWrite hs ((mayWrite_balHold hc).trans hm)).trans (congrArg Prod.snd (applyWrite_balHold s who v)))
  · exact congrArg Host.Outcome.next
      ((writeRow_of_mayWrite hs ((mayWrite_localSel hc).trans hv)).trans (congrArg Prod.snd (applyWrite_localSel s who v)))

/-- Settles O54: a selection taken and a read that latches change the caller's copy by `modCopy`, a read by a role that
clears clears its one register, and a read by another changes its own copy at most. -/
theorem registerReads : Obligations.RegisterReads := by
  unfold Obligations.RegisterReads
  refine ⟨fun who c j s => ⟨fun may => ?_, fun may => ?_, fun may => ?_, fun no => ?_⟩,
    fun who i s => ⟨fun h0 => ?_, fun h0 h5 => ?_, fun full => ?_, fun full => ?_, fun no a => ?_⟩⟩
  · exact completes_of_modCopy (exec_estSelWrite_taken c may)
  · exact completes_of_modCopy (exec_estZselWrite_taken c may j)
  · exact completes_of_modCopy (exec_ledCselWrite_taken c may)
  · have refused {a : Nat} (v : Word) (ha : a = 0x40020020 ∨ a = 0x40020100 ∨ a = 0x4002B020) : writeRow s who a v = s :=
      writeRow_selection_refused ha no
    rw [exec_estSelWrite, exec_estZselWrite, exec_ledCselWrite, refused _ (by omega), refused _ (by omega),
      refused _ (by omega)]
    exact ⟨rfl, rfl, rfl⟩
  · rw [exec_batCountLoRead, exec_gtrEntryRead, readRow_of_no_role h0, readRow_of_no_role h0]
    exact ⟨rfl, rfl, fun a => by rw [exec_readClearRegister, readRow_of_no_role h0]⟩
  · refine completes_of_latchRead s who ?_ (readLatch_batCountLo s who)
    rw [exec_batCountLoRead, readRow, if_pos (mayRead_batCountLo h0 h5), readReg_of_ro (regAt_batCountLo s _)]
  · refine completes_of_latchRead s who ?_ (readLatch_gtrEntry s who i)
    rw [exec_gtrEntryRead, readRow_of_clears (clears_iff.mpr full), readReg_of_ro (regAt_gtrEntry s _ i)]
  · have hc := clears_iff.mpr full
    refine ⟨?_, ?_, ?_, completes_readClear_chanCount s who hc⟩
    · exact congrArg Host.Outcome.next
        ((readRow_of_rc hc (regAt_batDrop s _) (by decide) (by decide)).trans (rcClear_batDrop _))
    · exact congrArg Host.Outcome.next
        ((readRow_of_rc hc (regAt_ledCount s _) (by decide) (by decide)).trans (rcClear_ledCount _))
    · exact congrArg Host.Outcome.next
        ((readRow_of_rc hc (regAt_cprCount s _) (by decide) (by decide)).trans (rcClear_cprCount _))
  · have hc : clears s who = false := Bool.eq_false_iff.mpr fun h => no (clears_iff.mp h)
    exact ⟨_, exec_readClearRegister s who a, (readRow_of_not_clears_leaves hc).rest⟩

end Sys2Proof
end

section
/-! Checks of the cells (R121 to R123, R125, R129, R132): what the failures and signatures do at their limits, and the
statement about them. -/

namespace Sys2Proof.Machine

/-! ## A list of actions -/

/-- What every action keeps, the whole list keeps. -/
theorem forEach_keeps {α : Type} {P : State → Prop} {f : State → α → State} (keep : ∀ u a, P u → P (f u a)) (l : List α)
    {s : State} (h : P s) : P (forEach l f s) := by
  unfold forEach
  induction l generalizing s with
  | nil => exact h
  | cons a l ih => exact ih (keep s a h)

/-- What one action of the list brings about and every action keeps holds after the list. -/
theorem forEach_of_mem {α : Type} {P : State → Prop} {f : State → α → State} (keep : ∀ u a, P u → P (f u a)) {l : List α}
    {a : α} (mem : a ∈ l) (hit : ∀ u, P (f u a)) (s : State) : P (forEach l f s) := by
  obtain ⟨front, back, rfl⟩ := List.append_of_mem mem
  have parts : forEach (front ++ a :: back) f s = forEach back f (f (forEach front f s) a) := by simp [forEach]
  exact parts ▸ forEach_keeps keep back (hit _)

/-! ## Ports and cells after an update -/

theorem portOf_of_leaves {us : List Part} {s t : State} (h : Leaves us s t) (hu : us.contains .owl = false) (p : Nat) :
    portOf t p = portOf s p := by simp only [portOf, h.owl hu]

theorem portCells_of_leaves {us : List Part} {s t : State} (h : Leaves us s t) (hu : us.contains .cfg = false) (p : Nat) :
    portCells t p = portCells s p := by simp only [portCells, portRec, h.cfg hu]

theorem cellsOfPort_of_leaves {us : List Part} {s t : State} (h : Leaves us s t) (hu : us.contains .cfg = false) (p : Nat) :
    cellsOfPort t p = cellsOfPort s p := by simp only [cellsOfPort, firstCell, portCells, portRec, h.cfg hu]

theorem getLsbD_setBit_true {w : Nat} (m : BitVec w) (i j : Nat) :
    (setBit m i true).getLsbD j = true ↔ m.getLsbD j = true ∨ (j = i ∧ i < w) := by
  rw [getLsbD_setBit]
  grind

theorem vget_modCell (s : State) (c : Nat) (f : CellRec → CellRec) (d : Nat) :
    vget (modCell s c f).tha.cells d = if d = c ∧ c < 512 then f (vget s.tha.cells c) else vget s.tha.cells d := by
  split
  · next h =>
    obtain ⟨rfl, hc⟩ := h
    exact vget_vmod_same _ f hc
  · next h =>
    by_cases e : d = c
    · have out : ¬c < 512 := fun hc => h ⟨e, hc⟩
      simp [modCell, vmod, vset, out]
    · exact vget_vmod_ne _ f e

/-- The flags after one is set. -/
theorem flagOf_setFlag_true (s : State) (c i d j : Nat) :
    flagOf (setFlag s c i true) d j = true ↔ flagOf s d j = true ∨ ((d = c ∧ c < 512) ∧ j = i ∧ i < 14) := by
  rw [flagOf, setFlag, vget_modCell, flagOf]
  split
  · next h => simp only [getLsbD_setBit_true, h, true_and, and_self]
  · next h => simp only [h, false_and, or_false]

/-- The causes of CHAIN_FAULT after one is set. -/
theorem chain_setChain_true (s : State) (c i d j : Nat) :
    (vget (setChain s c i true).tha.cells d).chain.getLsbD j = true
      ↔ (vget s.tha.cells d).chain.getLsbD j = true ∨ ((d = c ∧ c < 512) ∧ j = i ∧ i < 4) := by
  rw [setChain, vget_modCell]
  split
  · next h => simp only [getLsbD_setBit_true, h, true_and, and_self]
  · next h => simp only [h, false_and, or_false]

/-! ## A cause of CHAIN_FAULT put on a list of cells (R129) -/

theorem chain_forEach_setChain {l : List Nat} {c i : Nat} (mem : c ∈ l) (hc : c < 512) (hi : i < 4) (s : State) :
    (vget (forEach l (fun s c => setChain s c i true) s).tha.cells c).chain.getLsbD i = true := by
  have keep (u : State) (a : Nat) (h : (vget u.tha.cells c).chain.getLsbD i = true) :=
    (chain_setChain_true u a i c i).mpr (.inl h)
  exact forEach_of_mem keep mem (fun u => (chain_setChain_true u c i c i).mpr (.inr ⟨⟨rfl, hc⟩, rfl, hi⟩)) s

/-- Where a cause is due on the cells of `l` and one of them lacks it, it is put on all of them, with an event. -/
def chainFaultLimit (s : State) (l : List Nat) (i src code detail : Nat) (due : Bool) : State :=
  if due && l.any (fun c => !(vget s.tha.cells c).chain.getLsbD i) then
    logEv (forEach l (fun s c => setChain s c i true) s) src code detail
  else s

section ChainFault

variable (s : State) {l : List Nat} {i : Nat} (src code detail : Nat)

theorem chainFaultLimit_due {c : Nat} (mem : c ∈ l) (hc : c < 512) (hi : i < 4) :
    (vget (chainFaultLimit s l i src code detail true).tha.cells c).chain.getLsbD i = true := by
  unfold chainFaultLimit
  split
  · rw [(logEv_leaves _ _ _ _).tha rfl]
    exact chain_forEach_setChain mem hc hi s
  · next h =>
    have all : ∀ d ∈ l, (vget s.tha.cells d).chain.getLsbD i = true := by simpa using h
    exact all c mem

theorem chainFaultLimit_not_due : chainFaultLimit s l i src code detail false = s := rfl

theorem chainFaultLimit_leaves (due : Bool) : Leaves [.fresh, .tha, .gtr] s (chainFaultLimit s l i src code detail due) :=
  .ite ((logEv_leaves _ _ _ _).step rfl (.forEach (fun u c => (setChain_leaves u c i true).wide rfl) .refl)) .refl

end ChainFault

/-! ## The satellite check and the string check (R129) -/

/-- Ten failures of the satellite check in a row ask for a test, with an event. -/
def satTestLimit (s : State) (p : Nat) : State :=
  if (portOf s p).satRun = 10 then
    logEv (modPort s p (fun q => { q with testWanted := true })) p 5 (twos 16 (portOf s p).satDiff)
  else s

theorem satFailLimit_eq (s : State) (p : Nat) :
    satFailLimit s p = chainFaultLimit (satTestLimit s p) (cellsOfPort (satTestLimit s p) p) 0 p 7 0
      (100 ≤ (portOf s p).satRun && (portOf s p).testedInService && (portOf s p).owIntact) := rfl

theorem strFailLimit_eq (s : State) (k : Nat) :
    strFailLimit s k = chainFaultLimit s (cellsOfStr s k) 1 (96 + k) 9 (twos 16 (vget s.tha.strChk k).diff)
      (100 ≤ (vget s.tha.strChk k).fails) := rfl

theorem satTestLimit_leaves (s : State) (p : Nat) : Leaves [.fresh, .owl, .gtr] s (satTestLimit s p) :=
  .ite ((logEv_leaves _ _ _ _).step rfl ((modPort_leaves _ _ _).wide rfl)) .refl

theorem portsBut_satTestLimit (s : State) (p : Nat) : portsBut p s (satTestLimit s p) := by
  intro r hr
  unfold satTestLimit
  split
  · rw [portOf_of_leaves (logEv_leaves _ _ _ _) rfl, portOf_modPort_ne s _ hr]
  · rfl

theorem satTestLimit_testWanted {s : State} {p : Nat} (hp : p < 32) (h : (portOf s p).satRun = 10) :
    (portOf (satTestLimit s p) p).testWanted = true := by
  rw [satTestLimit, if_pos h, portOf_of_leaves (logEv_leaves _ _ _ _) rfl, portOf_modPort s _ hp]

theorem portOf_satFailLimit (s : State) (p r : Nat) : portOf (satFailLimit s p) r = portOf (satTestLimit s p) r := by
  rw [satFailLimit_eq, portOf_of_leaves (chainFaultLimit_leaves _ _ _ _ _) rfl]

theorem satFailLimit_chain {s : State} {p c : Nat} (h100 : 100 ≤ (portOf s p).satRun)
    (tested : (portOf s p).testedInService = true) (intact : (portOf s p).owIntact = true) (mem : c ∈ cellsOfPort s p)
    (hc : c < 512) : (vget (satFailLimit s p).tha.cells c).chain.getLsbD 0 = true := by
  rw [satFailLimit_eq, decide_eq_true h100, tested, intact, cellsOfPort_of_leaves (satTestLimit_leaves s p) rfl]
  exact chainFaultLimit_due _ _ _ _ mem hc (by decide)

theorem strFailLimit_chain {s : State} {k c : Nat} (h100 : 100 ≤ (vget s.tha.strChk k).fails) (mem : c ∈ cellsOfStr s k)
    (hc : c < 512) : (vget (strFailLimit s k).tha.cells c).chain.getLsbD 1 = true := by
  rw [strFailLimit_eq, decide_eq_true h100]
  exact chainFaultLimit_due _ _ _ _ mem hc (by decide)

theorem strFailLimit_of_lt {s : State} {k : Nat} (h : (vget s.tha.strChk k).fails < 100) : strFailLimit s k = s := by
  rw [strFailLimit_eq, decide_eq_false (Nat.not_le.mpr h), chainFaultLimit_not_due]

/-! ## Deviation signatures (R123, R125) -/

/-- A signature's flag put on local cell `i` of a port in `u`, `s` being the state in which the limit was met: a new flag on
a cell not confirmed asks for a test (R125). -/
def markSignature (s : State) (p : Nat) (u : State) (i bit : Nat) : State :=
  setFlag (if !flagOf u (firstCell s p + i) bit && !(portOf s p).confirmed.getLsbD i then
    modPort u p (fun q => { q with testWanted := true }) else u) (firstCell s p + i) bit true

/-- Both cells of a pair whose signature has lasted ten battens are marked. -/
def markPair (s : State) (p : Nat) (u : State) (i : Nat) : State :=
  if 10 ≤ vget (portOf s p).pairRuns i then markSignature s p (markSignature s p u i 3) (i + 1) 3 else u

/-- A cell whose own signature has lasted ten battens is marked. -/
def markSingle (s : State) (p : Nat) (u : State) (i : Nat) : State :=
  if 10 ≤ vget (portOf s p).singleRuns i then markSignature s p u i 4 else u

section Signatures

variable {s : State} {p : Nat}

theorem markSignature_leaves (u : State) (i bit : Nat) : Leaves [.owl, .tha] u (markSignature s p u i bit) :=
  (setFlag_leaves _ _ _ _).step rfl (.ite ((modPort_leaves _ _ _).wide rfl) .refl)

theorem markPair_leaves (u : State) (i : Nat) : Leaves [.owl, .tha] u (markPair s p u i) :=
  .ite ((markSignature_leaves u i 3).trans (markSignature_leaves _ _ _)) .refl

theorem deviationLimit_eq : deviationLimit s p = forEach (List.range (portCells s p)) (markSingle s p)
    (forEach (List.range (portCells s p - 1)) (markPair s p) s) := by
  have cells : portCells (forEach (List.range (portCells s p - 1)) (markPair s p) s) p = portCells s p :=
    portCells_of_leaves (.forEach markPair_leaves .refl) rfl p
  exact congrArg (fun n => forEach (List.range n) (markSingle s p) (forEach _ (markPair s p) s)) cells

section Keeps

variable {P : State → Prop} (keep : ∀ u i bit, P u → P (markSignature s p u i bit))

include keep

theorem markPair_keeps (u : State) (i : Nat) (h : P u) : P (markPair s p u i) := by
  unfold markPair
  split
  · exact keep _ _ _ (keep _ _ _ h)
  · exact h

theorem markSingle_keeps (u : State) (i : Nat) (h : P u) : P (markSingle s p u i) := by
  unfold markSingle
  split
  · exact keep _ _ _ h
  · exact h

theorem deviationLimit_keeps (h : P s) : P (deviationLimit s p) := by
  rw [deviationLimit_eq]
  exact forEach_keeps (markSingle_keeps keep) _ (forEach_keeps (markPair_keeps keep) _ h)

end Keeps

theorem flagOf_markSignature (u : State) (i bit d j : Nat) :
    flagOf (markSignature s p u i bit) d j = true
      ↔ flagOf u d j = true ∨ ((d = firstCell s p + i ∧ firstCell s p + i < 512) ∧ j = bit ∧ bit < 14) := by
  rw [markSignature, flagOf_setFlag_true]
  split <;> rfl

theorem flagOf_markSignature_keeps {d j : Nat} (u : State) (i bit : Nat) (h : flagOf u d j = true) :
    flagOf (markSignature s p u i bit) d j = true :=
  (flagOf_markSignature u i bit d j).mpr (.inl h)

theorem flagOf_markSignature_same (u : State) {i bit : Nat} (hi : firstCell s p + i < 512) (hb : bit < 14) :
    flagOf (markSignature s p u i bit) (firstCell s p + i) bit = true :=
  (flagOf_markSignature u i bit _ _).mpr (.inr ⟨⟨rfl, hi⟩, rfl, hb⟩)

theorem portOf_markSignature (u : State) (i bit r : Nat) : portOf (markSignature s p u i bit) r
    = portOf (if !flagOf u (firstCell s p + i) bit && !(portOf s p).confirmed.getLsbD i then
        modPort u p (fun q => { q with testWanted := true }) else u) r := rfl

theorem portsBut_markSignature (u : State) (i bit : Nat) (h : portsBut p s u) : portsBut p s (markSignature s p u i bit) := by
  intro r hr
  rw [portOf_markSignature]
  split
  · rw [portOf_modPort_ne u _ hr, h r hr]
  · exact h r hr

theorem testWanted_markSignature (hp : p < 32) (u : State) (i bit : Nat) :
    (portOf (markSignature s p u i bit) p).testWanted = true ↔ (portOf u p).testWanted = true
      ∨ (flagOf u (firstCell s p + i) bit = false ∧ (portOf s p).confirmed.getLsbD i = false) := by
  have asks : (flagOf u (firstCell s p + i) bit = false ∧ (portOf s p).confirmed.getLsbD i = false)
      ↔ (!flagOf u (firstCell s p + i) bit && !(portOf s p).confirmed.getLsbD i) = true := by simp
  rw [portOf_markSignature, asks]
  split
  · next h => simp only [portOf_modPort u _ hp, h, or_true]
  · next h => simp only [h, Bool.false_eq_true, or_false]

/-- A flag that local cell `i` has in `u` and had not in `s` has asked for a test, unless the cell is confirmed. -/
def NewFlagAsked (s : State) (p i bit : Nat) (u : State) : Prop :=
  flagOf s (firstCell s p + i) bit = false → (portOf s p).confirmed.getLsbD i = false →
    flagOf u (firstCell s p + i) bit = true → (portOf u p).testWanted = true

theorem newFlagAsked_markSignature (hp : p < 32) {i bit : Nat} (u : State) (j b : Nat) (h : NewFlagAsked s p i bit u) :
    NewFlagAsked s p i bit (markSignature s p u j b) := by
  intro old unconfirmed now
  rw [testWanted_markSignature hp]
  cases before : flagOf u (firstCell s p + i) bit with
  | true => exact .inl (h old unconfirmed before)
  | false =>
    obtain had | ⟨⟨cell, _⟩, rfl, _⟩ := (flagOf_markSignature u j b _ _).mp now
    · simp [before] at had
    · obtain rfl : i = j := Nat.add_left_cancel cell
      exact .inr ⟨before, unconfirmed⟩

theorem newFlagAsked_deviationLimit (hp : p < 32) (i bit : Nat) : NewFlagAsked s p i bit (deviationLimit s p) :=
  deviationLimit_keeps (newFlagAsked_markSignature hp) fun old _ now => by simp [old] at now

/-- Ten battens of a pair's signature flag both cells. -/
theorem deviationLimit_pair {i : Nat} (hi : i + 1 < portCells s p) (run : 10 ≤ vget (portOf s p).pairRuns i)
    (hc : firstCell s p + i + 1 < 512) :
    flagOf (deviationLimit s p) (firstCell s p + i) 3 = true
      ∧ flagOf (deviationLimit s p) (firstCell s p + i + 1) 3 = true := by
  have keep (u : State) (j b : Nat)
      (h : flagOf u (firstCell s p + i) 3 = true ∧ flagOf u (firstCell s p + i + 1) 3 = true) :
      flagOf (markSignature s p u j b) (firstCell s p + i) 3 = true
        ∧ flagOf (markSignature s p u j b) (firstCell s p + i + 1) 3 = true :=
    h.imp (flagOf_markSignature_keeps u j b) (flagOf_markSignature_keeps u j b)
  have mem : i ∈ List.range (portCells s p - 1) := List.mem_range.mpr (by omega)
  rw [deviationLimit_eq]
  refine forEach_keeps (markSingle_keeps keep) _ (forEach_of_mem (markPair_keeps keep) mem (fun u => ?_) s)
  rw [markPair, if_pos run]
  exact ⟨flagOf_markSignature_keeps _ _ _ (flagOf_markSignature_same u (by omega) (by decide)),
    flagOf_markSignature_same _ hc (by decide)⟩

/-- Ten battens of a single cell's signature flag the cell. -/
theorem deviationLimit_single {i : Nat} (hi : i < portCells s p) (run : 10 ≤ vget (portOf s p).singleRuns i)
    (hc : firstCell s p + i < 512) : flagOf (deviationLimit s p) (firstCell s p + i) 4 = true := by
  have keep (u : State) (j b : Nat) (h : flagOf u (firstCell s p + i) 4 = true) :
      flagOf (markSignature s p u j b) (firstCell s p + i) 4 = true := flagOf_markSignature_keeps u j b h
  rw [deviationLimit_eq]
  refine forEach_of_mem (markSingle_keeps keep) (List.mem_range.mpr hi) (fun u => ?_) _
  rw [markSingle, if_pos run]
  exact flagOf_markSignature_same u hc (by decide)

end Signatures

/-! ## Blanking failures (R132) -/

theorem blankingLimit_of_due {s : State} {p : Nat} (due : 10 ≤ (portOf s p).blankRun ∨ (portOf s p).blankDue = true)
    (h : (portOf s p).balSuspended = false) : ∃ mask, blankingLimit s p
      = logEv (queueCmd (modPort s p (fun q => { q with balSuspended := true, blankDue := false })) p 7 []) p 8 mask :=
  ⟨_, if_pos (by simpa [h] using due)⟩

theorem blankingLimit_idle {s : State} {p : Nat}
    (h : ((portOf s p).blankRun < 10 ∧ (portOf s p).blankDue = false) ∨ (portOf s p).balSuspended = true) :
    blankingLimit s p = s :=
  if_neg (by grind)

/-- The port once suspended: BLEED_OFF stands in its queue, and no other port has changed. -/
theorem blankingLimit_suspends {s : State} {p : Nat} (hp : p < 32)
    (due : 10 ≤ (portOf s p).blankRun ∨ (portOf s p).blankDue = true) (h : (portOf s p).balSuspended = false) :
    (portOf (blankingLimit s p) p).balSuspended = true
      ∧ (portOf (blankingLimit s p) p).cmdQueue.any (fun c => c.code == 7) = true ∧ portsBut p s (blankingLimit s p) := by
  obtain ⟨mask, e⟩ := blankingLimit_of_due due h
  have port (r : Nat) : portOf (blankingLimit s p) r
      = portOf (queueCmd (modPort s p (fun q => { q with balSuspended := true, blankDue := false })) p 7 []) r := by
    rw [e, portOf_of_leaves (logEv_leaves _ _ _ _) rfl]
  refine ⟨?_, ?_, fun r hr => ?_⟩
  · simp [port, queueCmd, hp]
  · simp [port, queueCmd, hp]
  · simp [port, queueCmd, hr]

/-! ## The commands -/

theorem exec_satelliteCheckFailLimit (s : State) (p : Fin 32) :
    exec (.satelliteCheckFailLimit p) s = .next (satFailLimit s p) := rfl

theorem exec_stringCheckFailLimit (s : State) (k : Fin 4) : exec (.stringCheckFailLimit k) s = .next (strFailLimit s k) := rfl

theorem exec_deviationSignatureLimit (s : State) (p : Fin 32) :
    exec (.deviationSignatureLimit p) s = .next (deviationLimit s p) := rfl

theorem exec_blankingFailLimit (s : State) (p : Fin 32) : exec (.blankingFailLimit p) s = .next (blankingLimit s p) := rfl

end Sys2Proof.Machine

namespace Sys2Proof

open Machine

/-- Settles O9: the two check limits put their cause of CHAIN_FAULT on a list of cells, the deviation limit is a run of
`markSignature`, and the blanking limit changes one port where it is due and nothing where it is not. -/
theorem cellChecks : Obligations.CellChecks := by
  unfold Obligations.CellChecks
  refine ⟨⟨fun p s => ?_, fun k s => ?_⟩, fun p s => ?_, fun p s => ⟨fun ⟨due, on⟩ => ?_, fun idle => ?_⟩⟩
  · refine ⟨_, exec_satelliteCheckFailLimit s p, (satFailLimit_leaves s p).rest, fun r hr => ?_, fun h10 => ?_,
      fun h100 tested intact c mem hc => satFailLimit_chain h100 tested intact mem hc⟩
    · rw [portOf_satFailLimit, portsBut_satTestLimit s p r hr]
    · rw [portOf_satFailLimit, satTestLimit_testWanted p.isLt h10]
  · exact ⟨_, exec_stringCheckFailLimit s k, (strFailLimit_leaves s k).rest,
      fun h100 c mem hc => strFailLimit_chain h100 mem hc, strFailLimit_of_lt⟩
  · exact ⟨_, exec_deviationSignatureLimit s p, (deviationLimit_leaves s p).rest,
      deviationLimit_keeps portsBut_markSignature fun _ _ => rfl,
      fun i hi run hc => deviationLimit_pair hi run hc,
      fun i hi run hc => have now := deviationLimit_single hi run hc
        ⟨now, fun old unconfirmed => newFlagAsked_deviationLimit p.isLt i 4 old unconfirmed now⟩⟩
  · exact ⟨_, exec_blankingFailLimit s p, (blankingLimit_leaves s p).rest, blankingLimit_suspends p.isLt due on⟩
  · rw [exec_blankingFailLimit, blankingLimit_idle idle]

end Sys2Proof
end

section
/-! Commits of the ledger (R197 to R199, R203, R380, R381): what a commit writes into the MRAM, which commit the engine
starts next, and the statement about them. -/

namespace Sys2Proof.Machine

/-! ## Numbers as octets -/

theorem natLe_length (n v : Nat) : (natLe n v).length = n := by
  induction n generalizing v with
  | zero => rfl
  | succ n ih => rw [natLe, List.length_cons, ih]

/-- A number written as `n` octets is read back modulo 256^n. -/
theorem leNat_natLe (n v : Nat) : leNat (natLe n v) = v % 256 ^ n := by
  induction n generalizing v with
  | zero => rw [Nat.pow_zero, Nat.mod_one]; rfl
  | succ n ih => rw [natLe, leNat, ih, BitVec.toNat_ofNat, Nat.pow_succ' (m := 256), Nat.mod_mul]

/-! ## A slot's 64 octets (R197) -/

theorem slotOf_length (seq : Nat) (r : Rec) (payload : List Byte) : (slotOf seq r payload).length = 64 := by
  simp [slotOf, natLe_length]

theorem commitBytes_length (s : State) (c : Commit) (payload : List Byte) : (commitBytes s c payload).length = 64 := by
  cases c <;> exact slotOf_length _ _ _

/-- The 60 octets of a slot that failed its readback, before the CRC. -/
theorem failedBody_length (n : Nat) :
    ((List.range 15).flatMap (fun i => natLe 4 (Config.freeWord (n + i)).toNat)).length = 60 := by
  simp only [List.length_flatMap, natLe_length]
  rfl

theorem failedSlot_length (n : Nat) : (failedSlot n).length = 64 := by
  rw [failedSlot, List.length_append, failedBody_length, natLe_length]

/-- The CRC of a slot that failed its readback does not match (R198). -/
theorem failedSlot_crc (n : Nat) : (crc32 ((failedSlot n).take 60)).toNat ≠ fieldLe (failedSlot n) 60 4 := by
  have body := failedBody_length n
  rw [failedSlot, fieldLe, slice, List.take_left' body, List.drop_left' body,
    List.take_of_length_le (Nat.le_of_eq (natLe_length 4 _)), leNat_natLe, Nat.mod_eq_of_lt (b := 256 ^ 4) (BitVec.isLt _)]
  intro same
  have flipped := congrArg (BitVec.getLsbD · 0) (BitVec.eq_of_toNat_eq same)
  simp at flipped

/-! ## A slot written -/

section Slots

variable {s t : State} {r : Rec} {b : Bool} {l : List Byte}

theorem slotSeq_of_recSlotBytes (h : recSlotBytes t r b = recSlotBytes s r b) : slotSeq t r b = slotSeq s r b := by
  rw [slotSeq, h, slotSeq]

theorem slotSeq_of_failed {n : Nat} (h : recSlotBytes s r b = failedSlot n) : slotSeq s r b = none := by
  have mismatch := failedSlot_crc n
  simp [slotSeq, h, mismatch]

theorem recOffset_true (r : Rec) : recOffset r true = recOffset r false + 64 := rfl

section Written

variable (safe : Mem.wf ramBlank s.mram = true) (len : l.length = 64)
  (written : t.mram = memPuts ramBlank s.mram (recOffset r b) l)

include safe len written

theorem recSlotBytes_written : recSlotBytes t r b = l := by
  rw [recSlotBytes, written, ← len, memGets_puts _ _ safe]

theorem memGet_outside_written {a : Nat} (out : ¬(recOffset r b ≤ a ∧ a < recOffset r b + 64)) :
    memGet ramBlank t.mram a = memGet ramBlank s.mram a := by
  rw [written, memGet_puts _ _ _ _ safe, len, if_neg out]

/-- A record's two slots share no octet. -/
theorem recSlotBytes_other_written : recSlotBytes t r (!b) = recSlotBytes s r (!b) := by
  have safe' : Mem.wf ramBlank t.mram = true := written ▸ memPuts_wf _ _ safe
  rw [recSlotBytes, recSlotBytes, memGets_eq _ _ safe', memGets_eq _ _ safe]
  refine List.map_congr_left fun i hi => memGet_outside_written safe len written ?_
  have hi := List.mem_range.mp hi
  have apart := recOffset_true r
  cases b <;> simp only [Bool.not_true, Bool.not_false] <;> omega

end Written

/-- The newer copy is a valid one. -/
theorem slotSeq_of_newerSlot (h : newerSlot s r = some b) : (slotSeq s r b).isSome = true := by
  unfold newerSlot at h
  split at h
  · contradiction
  · next e _ => obtain rfl := Option.some.inj h; rw [e]; rfl
  · next e => obtain rfl := Option.some.inj h; rw [e]; rfl
  · next ea eb => cases b <;> simp [ea, eb]

/-- Neither slot is valid where there is no newer copy. -/
theorem slotSeq_of_newerSlot_none (h : newerSlot s r = none) (b : Bool) : slotSeq s r b = none := by
  unfold newerSlot at h
  split at h
  · next ea eb => cases b <;> assumption
  all_goals contradiction

/-- With one slot invalid the other is the newer copy where it is valid, and there is none where it is not. -/
theorem newerSlot_of_invalid (h : slotSeq s r b = none) :
    newerSlot s r = if (slotSeq s r (!b)).isSome then some (!b) else none := by
  cases b
  · cases e : slotSeq s r true <;> simp [newerSlot, h, e]
  · cases e : slotSeq s r false <;> simp [newerSlot, h, e]

end Slots

/-- The slot without the newer copy, A where there is none; only the second write of a wipe has its slot named (R198,
R203). -/
theorem commitTarget_eq {c : Commit} (s : State) (h : ∀ x b, c ≠ .wipe x (some b)) :
    commitTarget s c = ((newerSlot s (commitRec c)).map (!·)).getD false := by
  match c, h with
  | .write r, _ => cases e : newerSlot s r <;> simp [commitTarget, commitRec, e]
  | .wipe r none, _ => cases e : newerSlot s r <;> simp [commitTarget, commitRec, e]
  | .wipe x (some b), h => exact absurd rfl (h x b)

/-- A commit that has spoiled its slot, the other slot being as before, takes the same slot again (R198). -/
theorem commitTarget_after_failure {s t : State} {c : Commit}
    (spoilt : slotSeq t (commitRec c) (commitTarget s c) = none)
    (other : slotSeq t (commitRec c) (!commitTarget s c) = slotSeq s (commitRec c) (!commitTarget s c)) :
    commitTarget t c = commitTarget s c := by
  by_cases named : ∃ x b, c = .wipe x (some b)
  · obtain ⟨x, b, rfl⟩ := named
    rfl
  · have unnamed : ∀ x b, c ≠ .wipe x (some b) := fun x b e => named ⟨x, b, e⟩
    have newer := newerSlot_of_invalid spoilt
    rw [other] at newer
    rw [commitTarget_eq t unnamed, newer, commitTarget_eq s unnamed]
    cases e : newerSlot s (commitRec c) with
    | none => simp [slotSeq_of_newerSlot_none e]
    | some n => simp [slotSeq_of_newerSlot e]

/-! ## The next commit (R198, R199) -/

section Start

variable {s : State}

theorem startCommit_of_busy (h : s.led.busy ≠ none) : startCommit s = s :=
  if_pos (Option.isSome_iff_ne_none.mpr h)

/-- Nothing starts while VHOLD_OK is 0. -/
theorem startCommit_of_vhold_off (h : s.led.vholdOk = false) : startCommit s = s := by
  simp [startCommit, mayCommit, h]

/-- In Unconfigured PFAIL brings no commit. -/
theorem startCommit_of_unconfigured (pfail : s.led.pfail = true) (h : unconfigured s = true) : startCommit s = s := by
  simp [startCommit, pfail, h]

/-- The engine takes the first of the staged commits. -/
theorem startCommit_first {c : Commit} {again : Bool} {rest : List (Commit × Bool)} (idle : s.led.busy = none)
    (may : mayCommit s = true) (staged : s.led.staged = (c, again) :: rest) :
    (startCommit s).led.staged = rest ∧ ∃ pl, (startCommit s).led.busy = some (c, again, pl) := by
  have noPfail : s.led.pfail = false := by simpa using (Bool.and_eq_true_iff.mp may).2
  have start : startCommit s = beginCommit { s with led := { s.led with staged := rest } } c again := by
    simp [startCommit, idle, may, staged, noPfail]
  rw [start]
  exact ⟨rfl, _, rfl⟩

/-- The final CHARGE commit of a PFAIL, with CAUSE 1. -/
theorem startCommit_final (idle : s.led.busy = none) (pfail : s.led.pfail = true) (vhold : s.led.vholdOk = true)
    (due : s.led.finalDone = false) (conf : unconfigured s = false) :
    ∃ pl, (startCommit s).led.busy = some (.write (.charge 1), false, pl) := by
  have start : startCommit s
      = beginCommit { s with led := { s.led with finalDone := true } } (.write (.charge 1)) false := by
    simp [startCommit, idle, pfail, vhold, due, conf]
  rw [start]
  exact ⟨_, rfl⟩

/-- Of the ledger a start changes the commit in progress, the staged commits and the note of the final one. -/
theorem startCommit_led (s : State) : (startCommit s).led = { s.led with
    busy := (startCommit s).led.busy, staged := (startCommit s).led.staged, finalDone := (startCommit s).led.finalDone } := by
  unfold startCommit
  split
  · rfl
  · split
    · split <;> rfl
    · split
      · rfl
      · split <;> rfl

@[simp] theorem startCommit_commits (s : State) : (startCommit s).led.commits = s.led.commits :=
  (congrArg Led.commits (startCommit_led s) :)
@[simp] theorem startCommit_failed (s : State) : (startCommit s).led.failed = s.led.failed :=
  (congrArg Led.failed (startCommit_led s) :)
@[simp] theorem startCommit_pfail (s : State) : (startCommit s).led.pfail = s.led.pfail :=
  (congrArg Led.pfail (startCommit_led s) :)
@[simp] theorem startCommit_vholdOk (s : State) : (startCommit s).led.vholdOk = s.led.vholdOk :=
  (congrArg Led.vholdOk (startCommit_led s) :)
@[simp] theorem startCommit_mram (s : State) : (startCommit s).mram = s.mram := (startCommit_leaves s).mram rfl
@[simp] theorem startCommit_gtr (s : State) : (startCommit s).gtr = s.gtr := (startCommit_leaves s).gtr rfl

/-- While PFAIL is asserted the staged commits wait. -/
theorem startCommit_staged_of_pfail (pfail : s.led.pfail = true) : (startCommit s).led.staged = s.led.staged := by
  unfold startCommit
  split
  · rfl
  · split <;> rfl

end Start

@[simp] theorem logEv_mram (s : State) (src code detail : Nat) : (logEv s src code detail).mram = s.mram :=
  (logEv_leaves s src code detail).mram rfl
@[simp] theorem logEv_led (s : State) (src code detail : Nat) : (logEv s src code detail).led = s.led :=
  (logEv_leaves s src code detail).led rfl

/-! ## The end of a commit (R198, R203) -/

/-- The state with `l` programmed into the slot a commit writes, the engine idle, and `n` free values taken. -/
def programmed (s : State) (c : Commit) (l : List Byte) (n : Nat) : State :=
  writeSlot { s with fresh := s.fresh + n, led := { s.led with busy := none, cmdLater := false } } (commitRec c)
    (commitTarget s c) l

theorem programmed_mram (s : State) (c : Commit) (l : List Byte) (n : Nat) :
    (programmed s c l n).mram = memPuts ramBlank s.mram (recOffset (commitRec c) (commitTarget s c)) l := rfl
theorem programmed_led (s : State) (c : Commit) (l : List Byte) (n : Nat) :
    (programmed s c l n).led = { s.led with busy := none, cmdLater := false } := rfl
theorem programmed_gtr (s : State) (c : Commit) (l : List Byte) (n : Nat) : (programmed s c l n).gtr = s.gtr := rfl

/-- A commit put before the staged ones, for a second try or for the other slot of a wipe. -/
def stageFirst (s : State) (c : Commit) (again later : Bool) : State :=
  { s with led := { s.led with staged := (c, again) :: s.led.staged, cmdLater := later } }

theorem stageFirst_mram (s : State) (c : Commit) (again later : Bool) : (stageFirst s c again later).mram = s.mram := rfl
theorem stageFirst_gtr (s : State) (c : Commit) (again later : Bool) : (stageFirst s c again later).gtr = s.gtr := rfl
theorem stageFirst_led (s : State) (c : Commit) (again later : Bool) :
    (stageFirst s c again later).led = { s.led with staged := (c, again) :: s.led.staged, cmdLater := later } := rfl

theorem commitEnded_mram (s : State) (c : Commit) (later : Bool) : (commitEnded s c later).mram = s.mram := rfl
theorem commitEnded_gtr (s : State) (c : Commit) (later : Bool) : (commitEnded s c later).gtr = s.gtr := rfl
theorem commitEnded_failed (s : State) (c : Commit) (later : Bool) :
    (commitEnded s c later).led.failed = s.led.failed := rfl
theorem commitEnded_commits (s : State) (c : Commit) (later : Bool) :
    (commitEnded s c later).led.commits = satAdd 16 s.led.commits 1 := rfl

/-- Where commits may start, one put first starts at once. -/
theorem startCommit_stageFirst {s u : State} (c : Commit) (again later : Bool)
    (led : u.led = { s.led with busy := none, cmdLater := false }) (may : mayCommit s = true) :
    ∃ pl, (startCommit (stageFirst u c again later)).led.busy = some (c, again, pl) := by
  have idle : (stageFirst u c again later).led.busy = none := by rw [stageFirst, led]
  have may' : mayCommit (stageFirst u c again later) = true := by rw [← may, mayCommit, mayCommit, stageFirst, led]
  exact (startCommit_first idle may' rfl).2

/-- A failed commit counted. -/
def countFailed (s : State) : State := { s with led := { s.led with failed := satAdd 16 s.led.failed 1 } }

section Complete

variable {s : State} {c : Commit} {again : Bool} {payload : List Byte}

theorem exec_ledgerCommitComplete (ok : Bool) (s : State) :
    exec (.ledgerCommitComplete ok) s = execLedgerCommitComplete ok s := rfl

theorem exec_ledgerCommitComplete_idle (idle : s.led.busy = none) (ok : Bool) :
    exec (.ledgerCommitComplete ok) s = .next s := by
  rw [exec_ledgerCommitComplete, execLedgerCommitComplete, idle]

theorem exec_ledgerCommitComplete_firstWipe {x : Rec} (busy : s.led.busy = some (.wipe x none, again, payload)) :
    exec (.ledgerCommitComplete true) s = .next (startCommit (stageFirst
      (programmed s (.wipe x none) (commitBytes s (.wipe x none) payload) 0)
      (.wipe x (some (!commitTarget s (.wipe x none)))) false s.led.cmdLater)) := by
  rw [exec_ledgerCommitComplete, execLedgerCommitComplete, busy]
  rfl

theorem exec_ledgerCommitComplete_ended (busy : s.led.busy = some (c, again, payload)) (last : ∀ x, c ≠ .wipe x none) :
    exec (.ledgerCommitComplete true) s
      = .next (startCommit (commitEnded (programmed s c (commitBytes s c payload) 0) c s.led.cmdLater)) := by
  rw [exec_ledgerCommitComplete, execLedgerCommitComplete, busy]
  match c, last with
  | .write _, _ => rfl
  | .wipe _ (some _), _ => rfl
  | .wipe x none, last => exact absurd rfl (last x)

theorem exec_ledgerCommitComplete_retried (busy : s.led.busy = some (c, false, payload)) :
    exec (.ledgerCommitComplete false) s
      = .next (startCommit (stageFirst (programmed s c (failedSlot s.fresh) 15) c true s.led.cmdLater)) := by
  rw [exec_ledgerCommitComplete, execLedgerCommitComplete, busy]
  rfl

theorem exec_ledgerCommitComplete_failed (busy : s.led.busy = some (c, true, payload)) :
    exec (.ledgerCommitComplete false) s
      = .next (startCommit (logEv (commitEnded (countFailed (programmed s c (failedSlot s.fresh) 15)) c s.led.cmdLater)
        116 1 (recType (commitRec c) + 256 * recIndex (commitRec c)))) := by
  rw [exec_ledgerCommitComplete, execLedgerCommitComplete, busy]
  rfl

/-- What the four ends of a commit have in common: `l` stands in the slot the commit writes, every other octet and the
record's other slot read as before; and `P`. -/
def EndsWith (ok : Bool) (s : State) (c : Commit) (l : List Byte) (P : State → Prop) : Prop :=
  completes (.ledgerCommitComplete ok) s [.fresh, .mram, .led, .gtr] (fun t =>
    let r := commitRec c
    let b := commitTarget s c
    (∀ a, ¬(recOffset r b ≤ a ∧ a < recOffset r b + 64) → memGet ramBlank t.mram a = memGet ramBlank s.mram a)
    ∧ recSlotBytes t r (!b) = recSlotBytes s r (!b) ∧ recSlotBytes t r b = l ∧ P t)

section Ends

variable (safe : Mem.wf ramBlank s.mram = true)

include safe

theorem endsWith_of_exec {ok : Bool} {l : List Byte} {P : State → Prop} {u : State}
    (h : exec (.ledgerCommitComplete ok) s = .next (startCommit u)) (len : l.length = 64)
    (mram : u.mram = memPuts ramBlank s.mram (recOffset (commitRec c) (commitTarget s c)) l) (hP : P (startCommit u)) :
    EndsWith ok s c l P := by
  have written := (startCommit_mram u).trans mram
  exact ⟨_, h, (execLedgerCommitComplete_leaves ok s _ h).rest, fun a => memGet_outside_written safe len written,
    recSlotBytes_other_written safe len written, recSlotBytes_written safe len written, hP⟩

/-- A wipe's first slot is written: the other slot's turn is next. -/
theorem endsWith_firstWipe {x : Rec} (busy : s.led.busy = some (.wipe x none, again, payload)) :
    EndsWith true s (.wipe x none) (commitBytes s (.wipe x none) payload) (fun t =>
      t.led.failed = s.led.failed ∧ t.gtr = s.gtr ∧ (mayCommit s = true →
        ∃ pl, t.led.busy = some (.wipe x (some (!commitTarget s (.wipe x none))), false, pl))) := by
  refine endsWith_of_exec safe (exec_ledgerCommitComplete_firstWipe busy) (commitBytes_length _ _ _) ?_
    ⟨?_, ?_, startCommit_stageFirst _ _ _ (programmed_led _ _ _ _)⟩
  · rw [stageFirst_mram, programmed_mram]
  · rw [startCommit_failed, stageFirst_led, programmed_led]
  · rw [startCommit_gtr, stageFirst_gtr, programmed_gtr]

theorem endsWith_ended (busy : s.led.busy = some (c, again, payload)) (last : ∀ x, c ≠ .wipe x none) :
    EndsWith true s c (commitBytes s c payload) (fun t =>
      t.led.failed = s.led.failed ∧ t.gtr = s.gtr ∧ t.led.commits = satAdd 16 s.led.commits 1) := by
  refine endsWith_of_exec safe (exec_ledgerCommitComplete_ended busy last) (commitBytes_length _ _ _) ?_ ⟨?_, ?_, ?_⟩
  · rw [commitEnded_mram, programmed_mram]
  · rw [startCommit_failed, commitEnded_failed, programmed_led]
  · rw [startCommit_gtr, commitEnded_gtr, programmed_gtr]
  · rw [startCommit_commits, commitEnded_commits, programmed_led]

/-- The first readback failed: the commit is tried again before any other. -/
theorem endsWith_retried (busy : s.led.busy = some (c, false, payload)) :
    EndsWith false s c (failedSlot s.fresh) (fun t =>
      t.led.failed = s.led.failed ∧ t.led.commits = s.led.commits
        ∧ (mayCommit s = true → ∃ pl, t.led.busy = some (c, true, pl))) := by
  refine endsWith_of_exec safe (exec_ledgerCommitComplete_retried busy) (failedSlot_length _) ?_
    ⟨?_, ?_, startCommit_stageFirst _ _ _ (programmed_led _ _ _ _)⟩
  · rw [stageFirst_mram, programmed_mram]
  · rw [startCommit_failed, stageFirst_led, programmed_led]
  · rw [startCommit_commits, stageFirst_led, programmed_led]

/-- The second readback failed: the commit has failed, and the newer copy stays in force. -/
theorem endsWith_failed (busy : s.led.busy = some (c, true, payload)) :
    EndsWith false s c (failedSlot s.fresh) (fun t =>
      t.led.failed = satAdd 16 s.led.failed 1 ∧ t.led.commits = satAdd 16 s.led.commits 1) := by
  refine endsWith_of_exec safe (exec_ledgerCommitComplete_failed busy) (failedSlot_length _) ?_ ⟨?_, ?_⟩
  · rw [logEv_mram, commitEnded_mram, countFailed, programmed_mram]
  · rw [startCommit_failed, logEv_led, commitEnded_failed, countFailed, programmed_led]
  · rw [startCommit_commits, logEv_led, commitEnded_commits, countFailed, programmed_led]

end Ends

end Complete

/-! ## Power fail and VHOLD_OK (R199, R380, R381) -/

section PowerFail

variable {s : State}

theorem exec_pfailAsserted_idle (h : s.led.pfail = true) : exec .pfailAsserted s = .next s := if_pos h

theorem exec_pfailAsserted (h : s.led.pfail = false) : exec .pfailAsserted s
    = .next (startCommit (logEv { s with led := { s.led with pfail := true, finalDone := false } } 104 3 0)) :=
  if_neg (Bool.eq_false_iff.mp h)

theorem exec_pfailCleared_idle (h : s.led.pfail = false) : exec .pfailCleared s = .next s := by
  simp [exec, execPfailCleared, h]

theorem exec_pfailCleared (h : s.led.pfail = true) : exec .pfailCleared s
    = .next (startCommit (logEv { s with led := { s.led with pfail := false } } 104 4 0)) := by
  simp [exec, execPfailCleared, h]

theorem exec_vholdOkChange (s : State) (ok : Bool) : exec (.vholdOkChange ok) s
    = .next (startCommit { s with led := { s.led with vholdOk := ok && supplyOn s.pwr.power .vhold } }) := rfl

/-- VHOLD is charged everywhere but in Ship (R380). -/
theorem supplyOn_vhold (p : PowerState) : supplyOn p .vhold = true ↔ p ≠ .ship := by
  cases p <;> decide

/-- PFAIL: the commit in progress goes on, and with none the final CHARGE commit starts, where VHOLD_OK stands. -/
theorem completes_pfailAsserted (h : s.led.pfail = false) : completes .pfailAsserted s [.fresh, .led, .gtr] (fun t =>
    t.led.pfail = true ∧ t.led.staged = s.led.staged ∧ (s.led.busy ≠ none → t.led.busy = s.led.busy)
    ∧ (s.led.busy = none → s.led.vholdOk = true → unconfigured s = false →
      ∃ pl, t.led.busy = some (.write (.charge 1), false, pl))
    ∧ ((s.led.vholdOk = false ∨ unconfigured s = true) → t.led.busy = s.led.busy)) := by
  have run := exec_pfailAsserted h
  refine ⟨_, run, (execPfailAsserted_leaves s _ run).rest, ?_⟩
  generalize hu : logEv { s with led := { s.led with pfail := true, finalDone := false } } 104 3 0 = u
  have led : u.led = { s.led with pfail := true, finalDone := false } := hu ▸ logEv_led _ _ _ _
  have img : u.img = s.img := hu ▸ (logEv_leaves _ _ _ _).img rfl
  have conf : unconfigured u = unconfigured s := by rw [unconfigured, img, unconfigured]
  have pfail : u.led.pfail = true := by rw [led]
  have busy : u.led.busy = s.led.busy := by rw [led]
  have vhold : u.led.vholdOk = s.led.vholdOk := by rw [led]
  refine ⟨by rw [startCommit_pfail, pfail], by rw [startCommit_staged_of_pfail pfail, led], fun working => ?_,
    fun idle on c => ?_, fun off => ?_⟩
  · rw [startCommit_of_busy (busy ▸ working), busy]
  · exact startCommit_final (busy.trans idle) pfail (vhold.trans on) (by rw [led]) (conf.trans c)
  · rcases off with off | off
    · rw [startCommit_of_vhold_off (vhold.trans off), busy]
    · rw [startCommit_of_unconfigured pfail (conf.trans off), busy]

/-- PFAIL gone, the staged commits go on. -/
theorem completes_pfailCleared (h : s.led.pfail = true) : completes .pfailCleared s [.fresh, .led, .gtr] (fun t =>
    t.led.pfail = false
    ∧ (∀ x again rest, s.led.busy = none → s.led.vholdOk = true → s.led.staged = (x, again) :: rest →
      t.led.staged = rest ∧ ∃ pl, t.led.busy = some (x, again, pl))) := by
  have run := exec_pfailCleared h
  refine ⟨_, run, (execPfailCleared_leaves s _ run).rest, ?_, fun x again rest idle on staged => ?_⟩
  · rw [startCommit_pfail, logEv_led]
  · refine startCommit_first ?_ ?_ ?_ <;> simp [mayCommit, logEv_led, idle, on, staged]

/-- Without VHOLD_OK nothing starts. -/
theorem completes_vhold_off {ok : Bool} (off : (ok && supplyOn s.pwr.power .vhold) = false) :
    completes (.vholdOkChange ok) s [.fresh, .led] (fun t => t.led = { s.led with vholdOk := false }) := by
  have run := exec_vholdOkChange s ok
  rw [off, startCommit_of_vhold_off rfl] at run
  exact ⟨_, run, (execVholdOkChange_leaves ok s _ run).rest, rfl⟩

theorem completes_vhold_on (on : supplyOn s.pwr.power .vhold = true) :
    completes (.vholdOkChange true) s [.fresh, .led] (fun t =>
      t.led.vholdOk = true ∧ (s.led.busy ≠ none → t.led.busy = s.led.busy ∧ t.led.staged = s.led.staged)
      ∧ (∀ x again rest, s.led.busy = none → s.led.pfail = false → s.led.staged = (x, again) :: rest →
        t.led.staged = rest ∧ ∃ pl, t.led.busy = some (x, again, pl))) := by
  have run := exec_vholdOkChange s true
  rw [on] at run
  refine ⟨_, run, (execVholdOkChange_leaves true s _ run).rest, startCommit_vholdOk _, fun busy => ?_,
    fun x again rest idle noPfail staged => startCommit_first idle (by simp [mayCommit, noPfail]) staged⟩
  rw [startCommit_of_busy (s := { s with led := { s.led with vholdOk := true && true } }) busy]
  exact ⟨rfl, rfl⟩

end PowerFail

end Sys2Proof.Machine

namespace Sys2Proof

open Machine

/-- Settles O51: a commit ends in one of four ways (a wipe's first slot, the last slot, a first readback that fails, a second
one), each of which writes 64 octets into the slot it targets; the other commands set VHOLD_OK or PFAIL and let the engine
start what it may. -/
theorem ledgerCommits : Obligations.LedgerCommits := by
  unfold Obligations.LedgerCommits
  refine ⟨fun ok s safe => ⟨fun idle => exec_ledgerCommitComplete_idle idle ok, fun c again payload busy => ?_⟩,
    fun s => ⟨exec_pfailAsserted_idle, completes_pfailAsserted, exec_pfailCleared_idle, completes_pfailCleared,
      completes_vhold_off rfl, fun ship => completes_vhold_off ?_,
      fun on => completes_vhold_on ((supplyOn_vhold _).mpr on)⟩⟩
  · obtain ⟨_, mramSafe, _⟩ := safe
    match ok, again, busy with
    | true, _, busy =>
      by_cases wipe : ∃ x, c = .wipe x none
      · obtain ⟨x, rfl⟩ := wipe
        obtain ⟨t, run, rest, frame, other, own, failed, gtr, second⟩ := endsWith_firstWipe mramSafe busy
        refine ⟨t, run, rest, frame, other, fun _ => ⟨own, failed, gtr⟩, fun _ last => absurd rfl (last x),
          fun _ y same may => ?_, nofun, nofun, nofun⟩
        obtain ⟨rfl, -⟩ := Commit.wipe.inj same
        exact second may
      · have last : ∀ x, c ≠ .wipe x none := fun x e => wipe ⟨x, e⟩
        obtain ⟨t, run, rest, frame, other, own, failed, gtr, commits⟩ := endsWith_ended mramSafe busy last
        exact ⟨t, run, rest, frame, other, fun _ => ⟨own, failed, gtr⟩, fun _ _ => commits,
          fun _ x e => absurd e (last x), nofun, nofun, nofun⟩
    | false, false, busy =>
      obtain ⟨t, run, rest, frame, other, own, failed, commits, retry⟩ := endsWith_retried mramSafe busy
      have spoilt := slotSeq_of_failed own
      have target := commitTarget_after_failure spoilt (slotSeq_of_recSlotBytes other)
      exact ⟨t, run, rest, frame, other, nofun, nofun, nofun, fun _ => spoilt, fun _ _ => ⟨target, failed, commits, retry⟩,
        nofun⟩
    | false, true, busy =>
      obtain ⟨t, run, rest, frame, other, own, failed, commits⟩ := endsWith_failed mramSafe busy
      exact ⟨t, run, rest, frame, other, nofun, nofun, nofun, fun _ => slotSeq_of_failed own, nofun,
        fun _ _ => ⟨failed, commits⟩⟩
  · rw [ship]
    rfl

end Sys2Proof
end

section
/-! Spar's gates and its latch (R243 to R245, R255, R260): which gates stand on, what a raised cause leaves, and what
Spar's judging of its inputs can do. -/

namespace Sys2Proof.Machine

/-! ## Masks -/

/-- The sum behind a mask, over the first `n` numbers: its bits are those chosen. -/
theorem testBit_maskSum (p : Nat → Bool) (n i : Nat) :
    ((List.range n).foldl (fun a i => if p i then a + 2 ^ i else a) 0).testBit i = (decide (i < n) && p i) := by
  suffices h : ∀ n, (List.range n).foldl (fun a i => if p i then a + 2 ^ i else a) 0 < 2 ^ n
      ∧ ∀ i, ((List.range n).foldl (fun a i => if p i then a + 2 ^ i else a) 0).testBit i
        = (decide (i < n) && p i) from
    (h n).2 i
  intro n
  induction n with
  | zero => simp
  | succ n ih =>
    rw [List.range_succ, List.foldl_append]
    generalize (List.range n).foldl (fun a i => if p i then a + 2 ^ i else a) 0 = x at ih
    obtain ⟨hlt, hbits⟩ := ih
    have hsum : (if p n then x + 2 ^ n else x) < 2 ^ (n + 1) := by split <;> omega
    refine ⟨hsum, fun i => ?_⟩
    rcases Nat.lt_trichotomy i n with hi | rfl | hi
    · have hi' : i < n + 1 := by omega
      cases hp : p n <;> simp [hp, hi, hi', hbits, Nat.add_comm x, Nat.testBit_two_pow_add_gt hi]
    · have hx : x.testBit i = false := by simpa using hbits i
      cases hp : p i <;> simp [hp, hx, Nat.add_comm x, Nat.testBit_two_pow_add_eq]
    · have hge : 2 ^ (n + 1) ≤ 2 ^ i := Nat.pow_le_pow_right (by omega) hi
      have hni : ¬ i < n + 1 := by omega
      simpa [hni] using Nat.testBit_lt_two_pow (Nat.lt_of_lt_of_le hsum hge)

@[simp] theorem getLsbD_maskOf (w : Nat) (p : Nat → Bool) (i : Nat) :
    (maskOf w p).getLsbD i = (decide (i < w) && p i) := by
  simp only [maskOf, BitVec.getLsbD_ofNat, testBit_maskSum]
  cases decide (i < w) <;> simp

theorem maskOf_eq_zero {w : Nat} {p : Nat → Bool} (h : ∀ i, p i = false) : maskOf w p = 0 := by
  refine BitVec.eq_of_getLsbD_eq fun i _ => ?_
  simp [h]

/-! ## The gates (R244) -/

theorem gateHolds_of_not_armed {sp : Spar} (h : sp.mode ≠ .armed) (c : Nat) : gateHolds sp c = false := by
  simp [gateHolds, h]

theorem gateHolds_of_stopped {sp : Spar} (h : sp.stopped = true) (c : Nat) : gateHolds sp c = false := by
  simp [gateHolds, h]

theorem gateHolds_of_supply {sp : Spar} (h : sp.supplyOk = false) (c : Nat) : gateHolds sp c = false := by
  simp [gateHolds, h]

/-- Gates that follow their conditions are on only where these hold (R244). -/
theorem gatesSafe_sparGates (s : State) : gatesSafe (sparGates s) := by
  intro c hc
  have on : (decide (c < 16) && gateHolds s.spar c) = true := (getLsbD_maskOf ..).symm.trans hc
  exact (Bool.and_eq_true_iff.mp on).2

theorem gatesSafe_of_gateCmd_zero {s : State} (h : s.spar.gateCmd = 0) : gatesSafe s := by
  intro c hc
  simp [h] at hc

/-- With no gate's conditions met every gate is off, and a switch sensed against its command still is. -/
theorem sparGates_of_none {s : State} (h : ∀ c, gateHolds s.spar c = false) :
    sparGates s = { s with spar := { s.spar with gateCmd := 0, gateDead := 0, gateOn := s.spar.gateBad } } := by
  have bad : s.spar.gateBad &&& 65535#16 = s.spar.gateBad := BitVec.and_allOnes
  simp [sparGates, maskOf_eq_zero h, bad]

theorem gateHolds_of_reset {sp : Spar} (h : sp.inReset = true) (c : Nat) : gateHolds sp c = false := by
  simp [gateHolds, h]

/-- Safe gates are off where no gate's conditions are met. -/
theorem gateCmd_zero_of_none {s : State} (safe : gatesSafe s) (h : ∀ c, gateHolds s.spar c = false) :
    s.spar.gateCmd = 0 := by
  refine BitVec.eq_of_getLsbD_eq fun c _ => ?_
  have off : s.spar.gateCmd.getLsbD c ≠ true := fun on => by simpa [h c] using safe c on
  simpa using off

end Sys2Proof.Machine
end

section
/-! Spar's latch (R243, R251, R255, R260): what raised causes leave, what Spar's judging of its inputs does, and which
fields it leaves. -/

namespace Sys2Proof.Machine

/-! ## Causes raised -/

section Raised

variable {s : State} {m : BitVec 16} {n : Nat}

theorem latching_iff {sp : Spar} :
    latching sp = true ↔ sp.mode = .proving ∨ sp.mode = .armed ∨ sp.mode = .tripped := by
  simp [latching, or_assoc]

/-- Causes raised in TRIPPED join the latch with what stands; every gate is off. -/
theorem raiseCauses_of_tripped (h : s.spar.mode = .tripped) (hm : m ≠ 0) :
    raiseCauses s m = { s with spar := { s.spar with
      causes := s.spar.causes ||| m ||| standing s.spar, released := false
      gateCmd := 0, gateDead := 0, gateOn := s.spar.gateBad } } := by
  have raised : ¬(m == 0) = true := by simpa using hm
  exact (if_neg raised).trans <| (if_pos (by simp [h])).trans <|
    sparGates_of_none (gateHolds_of_not_armed (by simp [h]))

/-- Causes raised in ARMED or PROVING trip Spar with every gate off. -/
theorem raiseCauses_of_live (h : s.spar.mode = .armed ∨ s.spar.mode = .proving) (hm : m ≠ 0) :
    raiseCauses s m = { s with spar := { s.spar with
      mode := .tripped, causes := m ||| standing { s.spar with mode := .tripped }, released := false
      latches := (s.spar.latches + 1) % 65536, tripAt := some s.bat.num, latchFirst := (maskBits m).headD 0
      doorProof := 0, handProof := false, gateCmd := 0, gateDead := 0, gateOn := s.spar.gateBad } } := by
  have raised : ¬(m == 0) = true := by simpa using hm
  have live : ¬(s.spar.mode == .tripped) = true ∧ (s.spar.mode == .armed || s.spar.mode == .proving) = true := by
    rcases h with h | h <;> simp [h]
  exact (if_neg raised).trans <| (if_neg live.1).trans <| (if_pos live.2).trans <|
    sparGates_of_none (gateHolds_of_not_armed (by simp))

theorem raiseCauses_of_not_latching (h : latching s.spar = false) : raiseCauses s m = s := by
  simp only [latching, Bool.or_eq_false_iff] at h
  obtain ⟨⟨proving, armed⟩, tripped⟩ := h
  simp [raiseCauses, proving, armed, tripped]

theorem raiseCauses_zero : raiseCauses s 0#16 = s := by simp [raiseCauses]

theorem raiseCause_of_not_latching (h : latching s.spar = false) : raiseCause s n = s := raiseCauses_of_not_latching h

theorem oneCause_ne_zero (hn : n < 16) : (setBit 0 n true : BitVec 16) ≠ 0 := fun h => by
  have bit : (setBit 0 n true : BitVec 16).getLsbD n = true := by simp [getLsbD_setBit, hn]
  rw [h] at bit
  simp at bit

theorem headD_maskBits_oneCause : ∀ n < 16, (maskBits (setBit 0 n true : BitVec 16)).headD 0 = n := by decide

/-- One cause raised in a mode that latches leaves Spar as a trip or a further cause does (R243, R255). -/
theorem raiseCause_of_latching (h : latching s.spar = true) (hn : n < 16) :
    raiseCause s n = { s with spar := sparRaised s.bat.num n s.spar } := by
  rcases latching_iff.mp h with mode | mode | mode
  · rw [raiseCause, raiseCauses_of_live (.inr mode) (oneCause_ne_zero hn), headD_maskBits_oneCause n hn]
    simp [sparRaised, sparTripped, mode]
  · rw [raiseCause, raiseCauses_of_live (.inl mode) (oneCause_ne_zero hn), headD_maskBits_oneCause n hn]
    simp [sparRaised, sparTripped, mode]
  · rw [raiseCause, raiseCauses_of_tripped mode (oneCause_ne_zero hn)]
    simp [sparRaised, sparJoined, mode]

end Raised

/-! ## Spar judges its inputs (R243) -/

/-- Spar is tripped, cause `n` in its latch and every gate off. -/
def Latched (n : Nat) (sp : Spar) : Prop := sp.mode = .tripped ∧ sp.causes.getLsbD n = true ∧ sp.gateCmd = 0

/-- The standing causes that `sparJudge` raises, in a mode that latches. -/
def raiseStanding (s : State) : State :=
  if latching s.spar then raiseCauses s (standing s.spar &&& ~~~s.spar.causes) else s

/-- What stands is in the latch of TRIPPED. -/
def holdStanding (s : State) : State :=
  if s.spar.mode == .tripped then { s with spar := { s.spar with causes := s.spar.causes ||| standing s.spar } } else s

/-- The end of PROVING as `sparJudge` finds it. -/
def endProving (s : State) : State :=
  if s.spar.mode == .proving && proofsDone s.spar && !anyDemand s.spar then
    { s with spar := { s.spar with mode := .armed } }
  else s

theorem sparJudge_eq (s : State) : sparJudge s = sparGates (endProving (holdStanding (raiseStanding s))) := rfl

theorem gatesSafe_sparJudge (s : State) : gatesSafe (sparJudge s) := gatesSafe_sparGates _

section Judged

variable {s : State} {n : Nat}

theorem raiseCauses_latched (lat : latching s.spar = true) {m : BitVec 16} (hm : m.getLsbD n = true) :
    Latched n (raiseCauses s m).spar := by
  have nonzero : m ≠ 0 := fun h => by simp [h] at hm
  rcases latching_iff.mp lat with mode | mode | mode
  · rw [raiseCauses_of_live (.inr mode) nonzero]
    exact ⟨rfl, by simp [hm], rfl⟩
  · rw [raiseCauses_of_live (.inl mode) nonzero]
    exact ⟨rfl, by simp [hm], rfl⟩
  · rw [raiseCauses_of_tripped mode nonzero]
    exact ⟨mode, by simp [hm], rfl⟩

theorem raiseStanding_of_latching (lat : latching s.spar = true) :
    raiseStanding s = raiseCauses s (standing s.spar &&& ~~~s.spar.causes) := if_pos lat

theorem holdStanding_of_tripped (mode : s.spar.mode = .tripped) :
    holdStanding s = { s with spar := { s.spar with causes := s.spar.causes ||| standing s.spar } } :=
  if_pos (by simp [mode])

/-- A state that judging has tripped stays tripped, with what it latched. -/
theorem sparJudge_latched_of_raised (mode : (raiseStanding s).spar.mode = .tripped)
    (hn : (raiseStanding s).spar.causes.getLsbD n = true ∨ (standing (raiseStanding s).spar).getLsbD n = true) :
    Latched n (sparJudge s).spar := by
  generalize raised : raiseStanding s = t at mode hn
  have stays : endProving (holdStanding t) = holdStanding t := by simp [endProving, holdStanding_of_tripped mode, mode]
  have off (c : Nat) : gateHolds (holdStanding t).spar c = false :=
    gateHolds_of_not_armed (by simp [holdStanding_of_tripped mode, mode]) c
  rw [sparJudge_eq, raised, stays, sparGates_of_none off, holdStanding_of_tripped mode]
  exact ⟨mode, by simpa using hn, rfl⟩

/-- A latched cause stays in the latch as Spar judges its inputs, and a standing one joins it. -/
theorem sparJudge_latched_of_tripped (mode : s.spar.mode = .tripped)
    (hn : s.spar.causes.getLsbD n = true ∨ (standing s.spar).getLsbD n = true) : Latched n (sparJudge s).spar := by
  have lat : latching s.spar = true := latching_iff.mpr (.inr (.inr mode))
  by_cases old : standing s.spar &&& ~~~s.spar.causes = 0#16
  · have same : raiseStanding s = s := by rw [raiseStanding_of_latching lat, old, raiseCauses_zero]
    exact sparJudge_latched_of_raised (by rw [same, mode]) (by rwa [same])
  · have raised := (raiseStanding_of_latching lat).trans (raiseCauses_of_tripped mode old)
    refine sparJudge_latched_of_raised (congrArg (·.spar.mode) raised |>.trans mode) (.inl ?_)
    rw [raised]
    rcases hn with hn | hn <;> simp [hn]

/-- A standing cause not in the latch yet trips ARMED and PROVING as Spar judges its inputs. -/
theorem sparJudge_latched_of_new (lat : latching s.spar = true) (hn : (standing s.spar).getLsbD n = true)
    (new : s.spar.causes.getLsbD n = false) : Latched n (sparJudge s).spar := by
  have bit : (standing s.spar &&& ~~~s.spar.causes).getLsbD n = true := by
    rw [BitVec.getLsbD_and, BitVec.getLsbD_not, hn, new, decide_eq_true (BitVec.lt_of_getLsbD hn)]
    rfl
  obtain ⟨mode, cause, -⟩ := raiseCauses_latched lat bit
  rw [← raiseStanding_of_latching lat] at mode cause
  exact sparJudge_latched_of_raised mode (.inl cause)

/-- With no cause standing and every proof made, PROVING ends in ARMED (R256). -/
theorem sparJudge_armed (mode : s.spar.mode = .proving) (calm : standing s.spar = 0) (done : proofsDone s.spar = true)
    (free : anyDemand s.spar = false) : (sparJudge s).spar.mode = .armed := by
  have same : raiseStanding s = s := by simp [raiseStanding, calm, raiseCauses_zero]
  have live : holdStanding s = s := if_neg (by simp [mode])
  have ends : endProving s = { s with spar := { s.spar with mode := .armed } } := if_pos (by simp [mode, done, free])
  rw [sparJudge_eq, same, live, ends]
  rfl

end Judged

/-! ## What judging leaves -/

/-- Spar's part `a` with its state, its causes, what comes with a trip, and its gates taken from `b`. -/
def withVerdict (a b : Spar) : Spar :=
  { a with
    mode := b.mode, causes := b.causes, released := b.released, latches := b.latches, tripAt := b.tripAt
    latchFirst := b.latchFirst, doorProof := b.doorProof, handProof := b.handProof, gateCmd := b.gateCmd
    gateBad := b.gateBad, gateDead := b.gateDead, gateOn := b.gateOn }

/-- Of Spar's part `a` no more differs in `b` than what a judgement says. -/
def JudgedFrom (a b : Spar) : Prop := b = withVerdict a b

theorem JudgedFrom.trans {a b c : Spar} (h : JudgedFrom a b) (k : JudgedFrom b c) : JudgedFrom a c := by
  have same : withVerdict b c = withVerdict (withVerdict a b) c := congrArg (withVerdict · c) h
  exact Eq.trans k same

/-- A field reads in `b` as it reads in `a` with the verdict of `b`. -/
theorem JudgedFrom.field {α : Type} {a b : Spar} (f : Spar → α) (h : JudgedFrom a b) :
    f b = f (withVerdict a b) := congrArg f h

theorem JudgedFrom.testDone {a b : Spar} (h : JudgedFrom a b) : b.testDone = a.testDone := h.field Spar.testDone

theorem JudgedFrom.ite {a : Spar} {s t : State} {c : Prop} [Decidable c]
    (hs : JudgedFrom a s.spar) (ht : JudgedFrom a t.spar) :
    JudgedFrom a (if c then s else t).spar := by split <;> assumption

theorem raiseCauses_judgedFrom (s : State) (m : BitVec 16) : JudgedFrom s.spar (raiseCauses s m).spar :=
  .ite rfl (.ite rfl (.ite rfl rfl))

theorem sparGates_judgedFrom (s : State) : JudgedFrom s.spar (sparGates s).spar := rfl

theorem sparJudge_judgedFrom (s : State) : JudgedFrom s.spar (sparJudge s).spar := by
  have raised : JudgedFrom s.spar (raiseStanding s).spar := .ite (raiseCauses_judgedFrom ..) rfl
  have held : JudgedFrom s.spar (holdStanding (raiseStanding s)).spar := .ite (raised.trans rfl) raised
  have ended : JudgedFrom s.spar (endProving (holdStanding (raiseStanding s))).spar := .ite (held.trans rfl) held
  rw [sparJudge_eq]
  exact ended.trans (sparGates_judgedFrom _)

end Sys2Proof.Machine
end

section
/-! The faults that trip Spar (R243, R245, R248, R252, R253, R257): what each of their commands does where it raises its
cause, where it raises none, and where Spar does not run. -/

namespace Sys2Proof.Machine

section Faults

variable {s : State}

/-- A cause raised once Spar's part has become `sp`. -/
theorem next_raiseCause {sp : Spar} {n : Nat} (lat : latching sp = true) (hn : n < 16) :
    (.next (raiseCause { s with spar := sp } n) : Out) = .next { s with spar := sparRaised s.bat.num n sp } :=
  congrArg _ (raiseCause_of_latching (s := { s with spar := sp }) lat hn)

theorem sparRuns_guard (run : sparRuns s = true) : ¬(!sparRuns s) = true := by simp [run]

/-- What raises a cause: used, not masked, in a mode that latches. -/
theorem raises_of {a b c : Bool} (ha : a = true) (hb : b = false) (hc : c = true) : (a && !b && c) = true := by
  simp [ha, hb, hc]

theorem not_raises_of : ∀ {a b c : Bool},
    a = false ∨ b = true ∨ c = false → ¬(a && !b && c) = true := by decide

/-! ## Tones and lanes (R252, R253) -/

theorem execToneSilence_raised {p : Fin 32} (lat : latching s.spar = true) (run : sparRuns s = true)
    (used : s.spar.usedPorts.getLsbD p = true) (mask : s.spar.toneMask.getLsbD p = false) :
    execToneSilence p s = .next { s with spar := sparRaised s.bat.num 8 { s.spar with
      tonePresent := setBit s.spar.tonePresent p false, toneTrip := setBit s.spar.toneTrip p true } } :=
  (if_neg (sparRuns_guard run)).trans <| (if_pos (raises_of used mask lat)).trans <| next_raiseCause lat (by decide)

theorem execToneSilence_unraised {p : Fin 32} (run : sparRuns s = true)
    (off : s.spar.usedPorts.getLsbD p = false ∨ s.spar.toneMask.getLsbD p = true ∨ latching s.spar = false) :
    execToneSilence p s = .next { s with spar := { s.spar with tonePresent := setBit s.spar.tonePresent p false } } :=
  (if_neg (sparRuns_guard run)).trans <| if_neg (not_raises_of off)

theorem execLaneSilence_raised {l : Fin 5} (lat : latching s.spar = true) (run : sparRuns s = true)
    (used : laneUsed s.spar l = true) (mask : s.spar.laneMask.getLsbD l = false) :
    execLaneSilence l s = .next { s with spar := sparRaised s.bat.num (if l.val < 4 then 9 else 10) { s.spar with
      lanePresent := setBit s.spar.lanePresent l false, laneTrip := setBit s.spar.laneTrip l true } } :=
  (if_neg (sparRuns_guard run)).trans <| (if_pos (raises_of used mask lat)).trans <|
    next_raiseCause lat (by split <;> decide)

theorem execLaneSilence_unraised {l : Fin 5} (run : sparRuns s = true)
    (off : laneUsed s.spar l = false ∨ s.spar.laneMask.getLsbD l = true ∨ latching s.spar = false) :
    execLaneSilence l s = .next { s with spar := { s.spar with lanePresent := setBit s.spar.lanePresent l false } } :=
  (if_neg (sparRuns_guard run)).trans <| if_neg (not_raises_of off)

/-! ## Gates and pairs (R245, R248) -/

/-- A trip turns every gate off, so of the sensed switches it is those against their command that are still on. -/
theorem execGateAgainstCommand_raised {c : Fin 16} (lat : latching s.spar = true) (run : sparRuns s = true)
    (off : s.spar.gateCmd.getLsbD c = false) :
    execGateAgainstCommand ⟨c, true⟩ s = .next { s with spar := sparRaised s.bat.num 13 { s.spar with
      gateBad := setBit s.spar.gateBad c true } } := by
  have raised : execGateAgainstCommand ⟨c, true⟩ s = .next { s with spar := sparRaised s.bat.num 13 { s.spar with
      gateBad := setBit s.spar.gateBad c (true && !s.spar.gateCmd.getLsbD c)
      gateDead := setBit s.spar.gateDead c (!true && s.spar.gateCmd.getLsbD c)
      gateOn := setBit s.spar.gateOn c true } } :=
    (if_neg (sparRuns_guard run)).trans <| (congrArg _ (if_pos (raises_of rfl off lat))).trans <|
      next_raiseCause lat (by decide)
  rw [raised, off]
  unfold sparRaised
  split <;> rfl

theorem execGateAgainstCommand_unraised {g : GateSense} (run : sparRuns s = true)
    (calm : g.conducts = false ∨ s.spar.gateCmd.getLsbD g.gate = true ∨ latching s.spar = false) :
    execGateAgainstCommand g s = .next { s with spar := { s.spar with
      gateBad := setBit s.spar.gateBad g.gate (g.conducts && !s.spar.gateCmd.getLsbD g.gate)
      gateDead := setBit s.spar.gateDead g.gate (!g.conducts && s.spar.gateCmd.getLsbD g.gate)
      gateOn := setBit s.spar.gateOn g.gate g.conducts } } :=
  (if_neg (sparRuns_guard run)).trans <| congrArg _ (if_neg (not_raises_of calm))

theorem execPairFault_raised {i : Fin 11} (lat : latching s.spar = true) (run : sparRuns s = true) (low : i.val < 8)
    (used : pairUsed s.spar i = true) (disagree : pairAgrees s.spar i = false) :
    execPairFault i s = .next { s with spar := sparRaised s.bat.num 11 { s.spar with
      pairFaults := setBit s.spar.pairFaults i true, faultSeen := setBit s.spar.faultSeen i false } } := by
  have hand : (s.spar.handFault || (s.spar.twoHand && (i.val == 8 || i.val == 9))) = s.spar.handFault := by
    have h8 : (i.val == 8) = false := by simp; omega
    have h9 : (i.val == 9) = false := by simp; omega
    simp [h8, h9]
  have raised : execPairFault i s = .next { s with spar := sparRaised s.bat.num 11 { s.spar with
      pairFaults := setBit s.spar.pairFaults i true, faultSeen := setBit s.spar.faultSeen i false
      handFault := s.spar.handFault || (s.spar.twoHand && (i.val == 8 || i.val == 9)) } } :=
    (if_neg (by simp [run, disagree])).trans <| (congrArg _ (if_pos (by simp [low, used]))).trans <|
      next_raiseCause lat (by decide)
  rw [raised, hand]

theorem execPairFault_unraised {i : Fin 11} (run : sparRuns s = true) (disagree : pairAgrees s.spar i = false)
    (off : 8 ≤ i.val ∨ pairUsed s.spar i = false ∨ latching s.spar = false) :
    execPairFault i s = .next { s with spar := { s.spar with
      pairFaults := setBit s.spar.pairFaults i true, faultSeen := setBit s.spar.faultSeen i false
      handFault := s.spar.handFault || (s.spar.twoHand && (i.val == 8 || i.val == 9)) } } := by
  refine (if_neg (by simp [run, disagree])).trans <| congrArg _ ?_
  split
  next raises =>
    simp only [Bool.and_eq_true, decide_eq_true_eq] at raises
    obtain ⟨low, used⟩ := raises
    rcases off with off | off | off
    · omega
    · exact absurd (off.symm.trans used) (by decide)
    · exact raiseCause_of_not_latching off
  next => rfl

/-! ## The supply and the clock (R257) -/

theorem execSparSupplyTrip_raised (lat : latching s.spar = true) (out : s.spar.inReset = false)
    (power : s.pwr.power ≠ .ship) (run : s.spar.stopped = false) :
    execSparSupplyTrip s = .next { s with spar := sparRaised s.bat.num 14 { s.spar with supplyOk := false } } := by
  have off : sparGates { s with spar := { s.spar with supplyOk := false } } = { s with spar := { s.spar with
    supplyOk := false, gateCmd := 0, gateDead := 0, gateOn := s.spar.gateBad } } :=
    sparGates_of_none (gateHolds_of_supply rfl)
  have raises : (latching s.spar && !s.spar.stopped) = true := by simp [lat, run]
  have cut : execSparSupplyTrip s =
      .next (raiseCause (sparGates { s with spar := { s.spar with supplyOk := false } }) 14) :=
    (if_neg (by simp [out, power])).trans <| congrArg _ (if_pos raises)
  have tripped := next_raiseCause (s := s) (n := 14) (sp := { s.spar with
    supplyOk := false, gateCmd := 0, gateDead := 0, gateOn := s.spar.gateBad }) lat (by decide)
  rw [cut, off, tripped]
  unfold sparRaised
  split <;> rfl

theorem completes_sparSupplyTrip_unraised (up : s.spar.inReset = false ∧ s.pwr.power ≠ .ship)
    (calm : latching s.spar = false ∨ s.spar.stopped = true) :
    completes .sparSupplyTrip s [.spar] (fun t =>
      t.spar.supplyOk = false ∧ t.spar.gateCmd = 0 ∧ t.spar.causes = s.spar.causes
      ∧ t.spar.mode = s.spar.mode) := by
  have off := sparGates_of_none (s := { s with spar := { s.spar with supplyOk := false } }) (gateHolds_of_supply rfl)
  have cut : exec .sparSupplyTrip s = .next (sparGates { s with spar := { s.spar with supplyOk := false } }) := by
    have calm' : ¬(latching s.spar && !s.spar.stopped) = true := by rcases calm with calm | calm <;> simp [calm]
    exact (if_neg (by simp [up])).trans <| congrArg _ (if_neg calm')
  refine ⟨_, cut, (execSparSupplyTrip_leaves s _ cut).rest, ?_⟩
  rw [off]
  exact ⟨rfl, rfl, rfl, rfl⟩

theorem execSparClockFault_raised (lat : latching s.spar = true) (run : sparRuns s = true) :
    execSparClockFault s = .next { s with spar := sparRaised s.bat.num 15 { s.spar with clockBad := true } } :=
  (if_neg (sparRuns_guard run)).trans <| (congrArg _ (if_pos lat)).trans <| next_raiseCause lat (by decide)

theorem execSparClockFault_unraised (run : sparRuns s = true) (lat : latching s.spar = false) :
    execSparClockFault s = .next { s with spar := { s.spar with clockBad := true } } :=
  (if_neg (sparRuns_guard run)).trans <| congrArg _ (if_neg fun on => absurd (lat.symm.trans on) (by decide))

/-! ## Spar in reset, in Ship, or not running -/

theorem exec_of_unpowered (down : s.spar.inReset = true ∨ s.pwr.power = .ship) :
    exec .sparSupplyTrip s = .next s ∧ exec .sparClockStop s = .next s ∧ exec .sparClockReturn s = .next s := by
  have held : (s.spar.inReset || s.pwr.power == .ship) = true := by rcases down with h | h <;> simp [h]
  have held' : (!s.spar.stopped || s.spar.inReset || s.pwr.power == .ship) = true := by simp [Bool.or_assoc, held]
  exact ⟨if_pos held, if_pos held, if_pos held'⟩

theorem exec_pairFault_of_agreeing (i : Fin 11) (agree : pairAgrees s.spar i = true) :
    exec (.pairFault i) s = .next s :=
  if_pos (by simp [agree])

/-- While Spar does not run its commands change nothing. -/
theorem exec_of_not_running (run : sparRuns s = false) :
    exec .sparClockFault s = .next s ∧ exec .statusWordPresent s = .next s
    ∧ exec .sparStartEnd s = .next s ∧ exec .sparConfiguration s = .next s ∧ exec .handReleaseHeld s = .next s
    ∧ exec .twoHandSkewExpiry s = .next s
    ∧ (∀ p, exec (.toneSilence p) s = .next s ∧ exec (.tonePresent p) s = .next s)
    ∧ (∀ l, exec (.laneSilence l) s = .next s ∧ exec (.lanePresent l) s = .next s)
    ∧ (∀ g, exec (.gateAgainstCommand g) s = .next s) ∧ (∀ i, exec (.pairFault i) s = .next s)
    ∧ (∀ r, exec (.pairTestPulse r) s = .next s) ∧ ∀ ch b, exec (.contactFilterChange ch b) s = .next s := by
  have held : (!sparRuns s) = true := by simp [run]
  have held_or (b : Bool) : (!sparRuns s || b) = true := by simp [run]
  exact ⟨if_pos held, if_neg (by simp [run]), if_neg (by simp [run]), if_pos (by simp [run]), if_neg (by simp [run]),
    if_pos (by simp [run]), fun p => ⟨if_pos held, if_pos held⟩, fun l => ⟨if_pos held, if_pos (held_or _)⟩,
    fun g => if_pos held, fun i => if_pos (held_or _), fun r => if_pos held, fun ch b => if_pos (held_or _)⟩

end Faults

end Sys2Proof.Machine

namespace Sys2Proof

open Machine

/-- Settles O15: each fault's command raises its cause, or takes what it senses and raises none, by the same
condition; with Spar not running, each is turned away by its guard. -/
theorem sparTripsOnFaults : Obligations.SparTripsOnFaults := by
  unfold Obligations.SparTripsOnFaults
  refine ⟨fun s lat => ⟨fun p run used mask => execToneSilence_raised lat run used mask,
      fun l run used mask => execLaneSilence_raised lat run used mask,
      fun c run off => execGateAgainstCommand_raised lat run off,
      fun i run low used disagree => execPairFault_raised lat run low used disagree,
      fun out power run => execSparSupplyTrip_raised lat out power run,
      fun run => execSparClockFault_raised lat run⟩,
    fun s => ⟨fun p run off => execToneSilence_unraised run off, fun l run off => execLaneSilence_unraised run off,
      fun g run calm => execGateAgainstCommand_unraised run calm,
      fun i run disagree off => execPairFault_unraised run disagree off, completes_sparSupplyTrip_unraised,
      exec_of_unpowered, exec_pairFault_of_agreeing, execSparClockFault_unraised, exec_of_not_running⟩⟩

end Sys2Proof
end

section
/-! Spar's own reset and clock (R243, R257, R400), its pair tests, its contacts and its two-hand station (R247 to R251,
R254, R256). -/

namespace Sys2Proof.Machine

section Clock

variable {s : State}

/-! ## The reset of the die and the clock (R243, R257) -/

theorem power_guard (power : s.pwr.power ≠ .ship) : ¬(s.pwr.power == .ship) = true := by simp [power]

/-- The die's reset is Spar's and Eaves' (R400, log entry 53). -/
theorem completes_sparReset (power : s.pwr.power ≠ .ship) : completes .sparReset s [.spar, .eav, .cdc] (fun t =>
    t.spar.inReset = true ∧ t.spar.gateCmd = 0 ∧ t.spar.gateOn = 0 ∧ t.spar.causes = 0 ∧ t.spar.mode = .start
    ∧ t.spar.resumeOwed = !unconfigured s ∧ t.spar.unmaskReq = s.spar.unmaskReq ∧ t.spar.service = s.spar.service
    ∧ t.eav.on = 0 ∧ t.eav.hold = false ∧ t.eav.windows = 0) := by
  have run : exec .sparReset s = .next (eavLost (sparLost s (!unconfigured s))) := if_neg (power_guard power)
  refine ⟨_, run, (execSparReset_leaves s _ run).rest, ?_⟩
  dsimp only
  rw [(eavLost_leaves (sparLost s (!unconfigured s))).spar rfl]
  exact ⟨rfl, rfl, rfl, rfl, rfl, rfl, rfl, rfl, rfl, rfl, rfl⟩

theorem completes_sparClockStop (up : s.spar.inReset = false ∧ s.pwr.power ≠ .ship) :
    completes .sparClockStop s [.spar] (fun t =>
      t.spar.stopped = true ∧ t.spar.gateCmd = 0 ∧ t.spar.mode = s.spar.mode ∧ t.spar.causes = s.spar.causes) := by
  have run : exec .sparClockStop s = .next (sparGates { s with spar := { s.spar with
    stopped := true, pressLost := s.spar.pressLost || s.spar.resetFrom.isSome } }) := if_neg (by simp [up])
  refine ⟨_, run, (execSparClockStop_leaves s _ run).rest, ?_⟩
  rw [sparGates_of_none (gateHolds_of_stopped rfl)]
  exact ⟨rfl, rfl, rfl, rfl⟩

/-- A clock that returns latches CLOCK in a mode that latches. -/
theorem completes_sparClockReturn (up : s.spar.stopped = true ∧ s.spar.inReset = false ∧ s.pwr.power ≠ .ship) :
    completes .sparClockReturn s [.spar] (fun t => t.spar.stopped = false ∧ gatesSafe t
      ∧ (latching s.spar = true →
          t.spar.mode = .tripped ∧ t.spar.causes.getLsbD 15 = true ∧ t.spar.gateCmd = 0)) := by
  generalize started : ({ s with spar := { s.spar with stopped := false } } : State) = u
  have lat : latching u.spar = latching s.spar := started ▸ rfl
  have clock : u.spar.stopped = false := started ▸ rfl
  have run : exec .sparClockReturn s = .next (sparJudge (if latching u.spar then raiseCause u 15 else u)) := by
    subst started
    exact if_neg (by simp [up])
  refine ⟨_, run, (execSparClockReturn_leaves s _ run).rest, ?_, gatesSafe_sparJudge _, fun on => ?_⟩
  · have judged : JudgedFrom u.spar (sparJudge (if latching u.spar then raiseCause u 15 else u)).spar :=
      JudgedFrom.trans (.ite (raiseCauses_judgedFrom ..) rfl) (sparJudge_judgedFrom _)
    exact (judged.field Spar.stopped).trans clock
  · rw [if_pos (lat.trans on)]
    obtain ⟨mode, cause, -⟩ := raiseCauses_latched (lat.trans on)
      (show (setBit 0 15 true : BitVec 16).getLsbD 15 = true by decide)
    exact sparJudge_latched_of_tripped mode (.inl cause)

end Clock

/-! ## Pair tests (R249, R250) -/

/-- A vector after entries below `k` chosen by `p` are set: each is set or as it was. -/
theorem vget_foldl_vset {α : Type} [Inhabited α] {n : Nat} (v : Vector α n) (p : Nat → Bool) (f : Nat → α)
    (k i : Nat) (hi : i < n) :
    vget ((List.range k).foldl (fun v i => if p i then vset v i (f i) else v) v) i
      = if decide (i < k) && p i then f i else vget v i := by
  induction k with
  | zero => simp
  | succ k ih =>
    rw [List.range_succ, List.foldl_append, List.foldl_cons, List.foldl_nil]
    generalize (List.range k).foldl (fun v i => if p i then vset v i (f i) else v) v = w at ih
    by_cases same : i = k
    · subst same
      cases p i <;> simp [ih, hi]
    · have below : decide (i < k + 1) = decide (i < k) := by simp only [decide_eq_decide]; omega
      rw [below, ← ih]
      split
      · exact vget_vset_ne _ _ same
      · rfl

/-- A pair that a pulse train tests later than START: in use, at rest, and not passed yet (R250). -/
def pulseDue (sp : Spar) (i : Nat) : Bool := pairUsed sp i && !pairPassed sp i && pairAtRest sp i

/-- Spar once the pairs due have taken the verdicts of a pulse train. -/
def pulseTaken (r : PulseTest) (sp : Spar) : Spar :=
  { sp with pairTest := (List.range 11).foldl (fun v i =>
      if pulseDue sp i && pulseVerdict r i != .untested then vset v i (pulseVerdict r i) else v) sp.pairTest }

/-- A pair due fails the pulse train. -/
def pulseFails (r : PulseTest) (sp : Spar) : Bool :=
  (List.range 11).any (fun i => pulseDue sp i && pulseVerdict r i == .failed)

/-- A pulse train later than START as Spar goes on to judge it. -/
def pulseJudged (r : PulseTest) (s : State) : State :=
  let u : State := { s with spar := pulseTaken r s.spar }
  if pulseFails r s.spar && (s.spar.mode == .armed || s.spar.mode == .proving) then raiseCause u 12 else u

section Contacts

variable {s : State}

theorem exec_pairTestPulse_later (r : PulseTest) (run : sparRuns s = true) (mode : s.spar.mode ≠ .start) :
    exec (.pairTestPulse r) s = .next (sparJudge (pulseJudged r s)) :=
  (if_neg (sparRuns_guard run)).trans (if_neg (by simp [mode]))

theorem pulseJudged_judgedFrom (r : PulseTest) (s : State) :
    JudgedFrom (pulseTaken r s.spar) (sparJudge (pulseJudged r s)).spar := by
  have raised : JudgedFrom (pulseTaken r s.spar) (pulseJudged r s).spar := .ite (raiseCauses_judgedFrom ..) rfl
  exact raised.trans (sparJudge_judgedFrom _)

/-- A pair due that fails trips ARMED and PROVING with PAIR TEST. -/
theorem sparJudge_pulseJudged_latched {r : PulseTest} {i : Nat} (hi : i < 11) (due : pulseDue s.spar i = true)
    (failed : pulseVerdict r i = .failed) (live : s.spar.mode = .armed ∨ s.spar.mode = .proving) :
    Latched 12 (sparJudge (pulseJudged r s)).spar := by
  have fails : pulseFails r s.spar = true := List.any_eq_true.mpr ⟨i, List.mem_range.mpr hi, by simp [due, failed]⟩
  have trips : (pulseFails r s.spar && (s.spar.mode == .armed || s.spar.mode == .proving)) = true := by
    rcases live with live | live <;> simp [fails, live]
  have lat : latching (pulseTaken r s.spar) = true := latching_iff.mpr (live.elim (fun a => .inr (.inl a)) .inl)
  obtain ⟨mode, cause, -⟩ := raiseCauses_latched (s := { s with spar := pulseTaken r s.spar }) lat
    (show (setBit 0 12 true : BitVec 16).getLsbD 12 = true by decide)
  rw [pulseJudged, if_pos trips]
  exact sparJudge_latched_of_tripped mode (.inl cause)

theorem completes_pairTestPulse (r : PulseTest) (run : sparRuns s = true) (mode : s.spar.mode ≠ .start) :
    completes (.pairTestPulse r) s [.spar] (fun t => gatesSafe t ∧ t.spar.testDone = s.spar.testDone
      ∧ ∀ i, i < 11 →
        let todo := pairUsed s.spar i && !pairPassed s.spar i && pairAtRest s.spar i
        vget t.spar.pairTest i
          = (if todo && pulseVerdict r i != .untested then pulseVerdict r i else vget s.spar.pairTest i)
        ∧ (todo = true → pulseVerdict r i = .failed → (s.spar.mode = .armed ∨ s.spar.mode = .proving) →
            t.spar.mode = .tripped ∧ t.spar.causes.getLsbD 12 = true ∧ t.spar.gateCmd = 0)) := by
  have ran := exec_pairTestPulse_later r run mode
  have judged := pulseJudged_judgedFrom r s
  have done : (sparJudge (pulseJudged r s)).spar.testDone = s.spar.testDone := judged.testDone
  refine ⟨_, ran, (execPairTestPulse_leaves r s _ ran).rest, gatesSafe_sparJudge _, done,
    fun i hi => ⟨?_, fun due failed live => sparJudge_pulseJudged_latched hi due failed live⟩⟩
  rw [judged.field Spar.pairTest]
  refine (vget_foldl_vset _ _ _ 11 i hi).trans ?_
  rw [decide_eq_true hi, Bool.true_and]
  rfl

/-! ## Contacts (R247, R251) -/

theorem doorProgress_inputs (sp : Spar) (n : Nat) : (doorProgress sp n).inputs = sp.inputs := by
  unfold doorProgress
  split
  · rfl
  · split
    · rfl
    · split <;> rfl

theorem doorProgress_of_not_proving {sp : Spar} (h : sp.mode ≠ .proving) (n : Nat) : doorProgress sp n = sp :=
  if_pos (by simp [h])

theorem inputs_ite {v : BitVec 22} {c : Prop} [Decidable c] {s t : State}
    (hs : s.spar.inputs = v) (ht : t.spar.inputs = v) :
    (if c then s else t).spar.inputs = v := by split <;> assumption

theorem handChange_inputs (s : State) : (handChange s).spar.inputs = s.spar.inputs := by
  refine inputs_ite rfl (inputs_ite (inputs_ite rfl rfl) ?_)
  split
  · exact inputs_ite rfl (inputs_ite rfl rfl)
  · exact inputs_ite rfl (inputs_ite rfl rfl)

theorem releaseLatch_inputs (s : State) : (releaseLatch s).spar.inputs = s.spar.inputs :=
  inputs_ite rfl (inputs_ite rfl rfl)

theorem senseClock_inputs (s : State) : (senseClock s).spar.inputs = s.spar.inputs := inputs_ite rfl rfl

theorem resetReleased_inputs (s : State) (f : Int) : (resetReleased s f).spar.inputs = s.spar.inputs :=
  inputs_ite rfl (inputs_ite rfl (inputs_ite
    ((releaseLatch_inputs _).trans (senseClock_inputs _)) (senseClock_inputs _)))

theorem resetChange_inputs (s : State) : (resetChange s).spar.inputs = s.spar.inputs := by
  refine inputs_ite rfl ?_
  split
  · rfl
  · exact inputs_ite (resetReleased_inputs ..) rfl

/-- The progress of a pair fault leaves Spar's state, its inputs and its causes. -/
theorem faultProgress_keeps (sp : Spar) (i : Nat) : (faultProgress sp i).mode = sp.mode
    ∧ (faultProgress sp i).inputs = sp.inputs ∧ (faultProgress sp i).causes = sp.causes
    ∧ standing (faultProgress sp i) = standing sp := by
  unfold faultProgress
  split
  · exact ⟨rfl, rfl, rfl, rfl⟩
  · split
    · exact ⟨rfl, rfl, rfl, rfl⟩
    · split <;> exact ⟨rfl, rfl, rfl, rfl⟩

/-- Outside PROVING an open contact of a pair in use, 0 to 7, is a standing cause (R251). -/
theorem standing_of_contactOpen {sp : Spar} {i : Nat} (mode : sp.mode ≠ .proving) (hi : i < 8)
    (used : pairUsed sp i = true)
    (opened : contactOpen sp i = true) : (standing sp).getLsbD i = true := by
  have h13 : ¬(i = 13 ∧ i < 16) := by omega
  have h14 : ¬(i = 14 ∧ i < 16) := by omega
  have h16 : i < 16 := by omega
  have demand : (demandCauses sp).getLsbD i = true := by
    rw [demandCauses, getLsbD_maskOf]
    simp [h16, hi, used, opened]
  have gate : (if sp.gateBad != 0 then setBit (demandCauses sp) 13 true else demandCauses sp).getLsbD i = true := by
    split
    · rw [getLsbD_setBit, if_neg h13, demand]
    · exact demand
  have outside : (sp.mode == .proving) = false := by simp [mode]
  simp only [standing, outside, Bool.false_eq_true, if_false]
  split
  · exact gate
  · rw [getLsbD_setBit, if_neg h14, gate]

/-- An opened channel leaves a contact of its pair open. -/
theorem contactOpen_of_opened (sp : Spar) (ch : Fin 22) :
    contactOpen { sp with inputs := setBit sp.inputs ch false } (ch.val / 2) = true := by
  have lt := ch.isLt
  rcases Nat.mod_two_eq_zero_or_one ch.val with even | odd
  · have a : 2 * (ch.val / 2) = ch.val := by omega
    simp only [contactOpen, chanA, a, getLsbD_setBit]
    simp
  · have b : 2 * (ch.val / 2) + 1 = ch.val := by omega
    simp only [contactOpen, chanB, b, getLsbD_setBit]
    simp

/-- CONTACT_FILTER_CHANGE up to the judging of its inputs: the channel taken in, the proof of a door, the two-hand
station, the reset button and the pair's fault follow it. -/
def contactTaken (ch : Fin 22) (closed : Bool) (s : State) : State :=
  let i := ch.val / 2
  let sp : Spar := { s.spar with inputs := setBit s.spar.inputs ch closed }
  let s := { s with spar := if 2 ≤ i && i < 6 then doorProgress sp (i - 2) else sp }
  let s := if i = 8 || i = 9 then handChange s else s
  let s := if i = 10 then resetChange s else s
  { s with spar := faultProgress s.spar i }

theorem exec_contactFilterChange {ch : Fin 22} {closed : Bool} (run : sparRuns s = true)
    (new : s.spar.inputs.getLsbD ch ≠ closed) :
    exec (.contactFilterChange ch closed) s = .next (sparJudge (contactTaken ch closed s)) :=
  if_neg (by simpa [run] using new)

theorem contactTaken_inputs (ch : Fin 22) (closed : Bool) (s : State) :
    (contactTaken ch closed s).spar.inputs = setBit s.spar.inputs ch closed := by
  unfold contactTaken
  extract_lets i old sp door hand reset
  have atDoor : door.spar.inputs = setBit s.spar.inputs ch closed := by
    show (if _ then _ else _ : Spar).inputs = _
    split
    · exact doorProgress_inputs ..
    · rfl
  have atHand : hand.spar.inputs = setBit s.spar.inputs ch closed :=
    inputs_ite ((handChange_inputs _).trans atDoor) atDoor
  have atReset : reset.spar.inputs = setBit s.spar.inputs ch closed :=
    inputs_ite ((resetChange_inputs _).trans atHand) atHand
  exact (faultProgress_keeps _ _).2.1.trans atReset

/-- Of pairs 0 to 7, outside PROVING, a contact changes its channel and its pair's fault alone. -/
theorem contactTaken_of_low {ch : Fin 22} (closed : Bool) (low : ch.val / 2 < 8) (mode : s.spar.mode ≠ .proving) :
    contactTaken ch closed s = { s with
      spar := faultProgress { s.spar with inputs := setBit s.spar.inputs ch closed } (ch.val / 2) } := by
  have hand : ¬(decide (ch.val / 2 = 8) || decide (ch.val / 2 = 9)) = true := by
    simp only [Bool.or_eq_true, decide_eq_true_eq]; omega
  have reset : ¬ch.val / 2 = 10 := by omega
  have door : doorProgress { s.spar with inputs := setBit s.spar.inputs ch closed } (ch.val / 2 - 2)
      = { s.spar with inputs := setBit s.spar.inputs ch closed } :=
    doorProgress_of_not_proving (sp := { s.spar with inputs := setBit s.spar.inputs ch closed }) mode _
  simp only [contactTaken, if_neg hand, if_neg reset, door, ite_self]

/-- An opened contact of a pair in use, 0 to 7, trips ARMED with the pair's cause, and joins the latch of TRIPPED. -/
theorem sparJudge_contactTaken_latched {ch : Fin 22} (low : ch.val / 2 < 8) (used : pairUsed s.spar (ch.val / 2) = true)
    (armed : s.spar.mode = .tripped ∨ s.spar.mode = .armed ∧ s.spar.causes.getLsbD (ch.val / 2) = false) :
    Latched (ch.val / 2) (sparJudge (contactTaken ch false s)).spar := by
  have outside : s.spar.mode ≠ .proving := by rcases armed with h | ⟨h, -⟩ <;> simp [h]
  have opened := standing_of_contactOpen (sp := { s.spar with inputs := setBit s.spar.inputs ch false })
    outside low used (contactOpen_of_opened s.spar ch)
  rw [contactTaken_of_low false low outside]
  obtain ⟨mode, -, causes, stands⟩ :=
    faultProgress_keeps { s.spar with inputs := setBit s.spar.inputs ch false } (ch.val / 2)
  rw [← stands] at opened
  rcases armed with tripped | ⟨armed, new⟩
  · exact sparJudge_latched_of_tripped (mode.trans tripped) (.inr opened)
  · exact sparJudge_latched_of_new (latching_iff.mpr (.inr (.inl (mode.trans armed)))) opened
      (by simpa [causes] using new)

theorem completes_contactFilterChange {ch : Fin 22} {closed : Bool} (run : sparRuns s = true)
    (new : s.spar.inputs.getLsbD ch ≠ closed) :
    completes (.contactFilterChange ch closed) s [.fresh, .spar] (fun t =>
      t.spar.inputs = setBit s.spar.inputs ch closed ∧ gatesSafe t
      ∧ (closed = false → ch.val / 2 < 8 → pairUsed s.spar (ch.val / 2) = true →
          (s.spar.mode = .armed → s.spar.causes.getLsbD (ch.val / 2) = false →
            t.spar.mode = .tripped ∧ t.spar.causes.getLsbD (ch.val / 2) = true ∧ t.spar.gateCmd = 0)
          ∧ (s.spar.mode = .tripped →
            t.spar.mode = .tripped ∧ t.spar.causes.getLsbD (ch.val / 2) = true ∧ t.spar.gateCmd = 0))) := by
  have ran := exec_contactFilterChange run new
  refine ⟨_, ran, (execContactFilterChange_leaves ch closed s _ ran).rest,
    ((sparJudge_judgedFrom _).field Spar.inputs).trans (contactTaken_inputs ch closed s), gatesSafe_sparJudge _, ?_⟩
  rintro rfl low used
  exact ⟨fun armed free => sparJudge_contactTaken_latched low used (.inr ⟨armed, free⟩),
    fun tripped => sparJudge_contactTaken_latched low used (.inl tripped)⟩

/-! ## The two-hand station (R254, R256) -/

theorem completes_twoHandSkewExpiry (run : sparRuns s = true)
    (attempt : s.spar.twoHand = true ∧ s.spar.firstBtn ≠ none) :
    completes .twoHandSkewExpiry s [.fresh, .spar] (fun t =>
      4000000 < t.spar.handSkew ∧ t.spar.handOver = true ∧ t.spar.firstBtn = none
      ∧ t.spar.needRelease = !(btnReleased s.spar 8 && btnReleased s.spar 9)
      ∧ t.spar.actuation = s.spar.actuation ∧ t.spar.gateCmd = s.spar.gateCmd) := by
  have begun : s.spar.firstBtn.isNone = false := by simpa [Option.isSome_iff_ne_none] using attempt.2
  have ran : exec .twoHandSkewExpiry s = .next (attemptFails { s with
    fresh := s.fresh + 1, spar := { s.spar with
      handSkew := 4000001 + (Config.freeWord s.fresh).toNat % 12777215, handOver := true } }) :=
    if_neg (by simp [run, attempt.1, begun])
  exact ⟨_, ran, (execTwoHandSkewExpiry_leaves s _ ran).rest,
    Nat.lt_add_right _ (by decide), rfl, rfl, rfl, rfl, rfl⟩

theorem handProof_ite {c : Prop} [Decidable c] {s t : State}
    (hs : s.spar.handProof = false) (ht : t.spar.handProof = false) :
    (if c then s else t).spar.handProof = false := by split <;> assumption

theorem sparGates_handProof (s : State) : (sparGates s).spar.handProof = s.spar.handProof := rfl

theorem sparJudge_handProof (h : s.spar.handProof = false) : (sparJudge s).spar.handProof = false := by
  have raised : (raiseStanding s).spar.handProof = false :=
    handProof_ite (handProof_ite h (handProof_ite h (handProof_ite rfl h))) h
  have held : (holdStanding (raiseStanding s)).spar.handProof = false := handProof_ite raised raised
  have ended : (endProving (holdStanding (raiseStanding s))).spar.handProof = false := handProof_ite held held
  rw [sparJudge_eq]
  exact (sparGates_handProof _).trans ended

theorem demandCauses_zero_of_free {sp : Spar} (free : anyDemand sp = false) : demandCauses sp = 0 := by
  simp only [anyDemand, Bool.or_eq_false_iff, bne_eq_false_iff_eq] at free
  exact free.1

theorem standing_zero {sp : Spar} (demand : demandCauses sp = 0) (gate : sp.gateBad = 0) (supply : sp.supplyOk = true) :
    standing sp = 0 := by
  simp [standing, demand, gate, supply]

theorem completes_handReleaseHeld (run : sparRuns s = true)
    (released : s.spar.twoHand = true ∧ btnReleased s.spar 8 = true ∧ btnReleased s.spar 9 = true) :
    completes .handReleaseHeld s [.spar] (fun t => t.spar.handFault = false ∧ t.spar.handProof = false ∧ gatesSafe t
      ∧ (s.spar.mode = .proving → s.spar.doorProof = 0 → anyDemand s.spar = false → s.spar.gateBad = 0 →
          s.spar.supplyOk = true → t.spar.mode = .armed)) := by
  generalize made : ({ s with spar := { s.spar with handFault := false, handProof := false } } : State) = u
  have ran : exec .handReleaseHeld s = .next (sparJudge u) := by
    subst made
    exact if_pos (by simp [run, released])
  refine ⟨_, ran, (execHandReleaseHeld_leaves s _ ran).rest, ?_, sparJudge_handProof (made ▸ rfl),
    gatesSafe_sparJudge _,
    fun mode doors free gate supply => ?_⟩
  · exact ((sparJudge_judgedFrom u).field Spar.handFault).trans (made ▸ rfl)
  · have demand := demandCauses_zero_of_free free
    have calm : standing { s.spar with handFault := false, handProof := false } = 0 := standing_zero demand gate supply
    subst made
    exact sparJudge_armed mode calm (by simp [proofsDone, doors]) free

end Contacts

end Sys2Proof.Machine

namespace Sys2Proof

open Machine

/-- Settles O18: each command by its own lemma; a reset's release and the status word are the command's own words. -/
theorem sparResetAndClock : Obligations.SparResetAndClock := by
  unfold Obligations.SparResetAndClock
  exact fun s => ⟨fun ship => if_pos (by simp [ship]), completes_sparReset, fun held => if_pos (by simp [held]),
    fun off => if_neg (by rcases off with off | off <;> simp [off]), completes_sparClockStop,
    fun runs => if_pos (by simp [runs]), completes_sparClockReturn, fun run => if_pos run⟩

/-- Settles O17: a pulse train and a changed contact are taken in and then judged, and judging latches what they raise
or leave standing; the two-hand station's commands end an attempt, or make the proof that arms Spar. -/
theorem sparContacts : Obligations.SparContacts := by
  unfold Obligations.SparContacts
  exact ⟨fun r s run => ⟨fun start => (if_neg (sparRuns_guard run)).trans (if_pos (by simp [start])),
      completes_pairTestPulse r run⟩,
    fun ch closed s run => ⟨fun old => if_pos (by simp only [old, beq_self_eq_true, Bool.or_true]),
      completes_contactFilterChange run⟩,
    fun s run => ⟨completes_twoHandSkewExpiry run, fun idle => if_pos (by rcases idle with h | h <;> simp [h]),
      completes_handReleaseHeld run, fun held => if_neg (by rcases held with h | h | h <;> simp [h])⟩⟩

end Sys2Proof
end

section
/-! What each operation and each command does to gates that meet R244: `KeepsGates s t` says that where no gate is on
against its conditions in `s`, none is in `t`. An operation that leaves Spar's part keeps them by its frame; one that
writes it either touches no condition of R244, or ends in `sparGates`, whatever went before. -/

namespace Sys2Proof.Machine

/-- No gate is on against R244 in `t` where none was in `s`. -/
structure KeepsGates (s t : State) : Prop where
  safe : gatesSafe s → gatesSafe t

/-- A command's outcome keeps the gates to R244. -/
def KeepsGatesOut (s : State) (o : Out) : Prop := ∀ t, o = .next t → KeepsGates s t

section Rules

variable {s t u : State} {us : List Part}

theorem KeepsGates.refl : KeepsGates s s := ⟨id⟩

theorem KeepsGates.after (k : KeepsGates t u) (h : KeepsGates s t) : KeepsGates s u := ⟨k.safe ∘ h.safe⟩

theorem KeepsGates.of_safe (safe : gatesSafe t) : KeepsGates s t := ⟨fun _ => safe⟩

theorem KeepsGates.of_spar (h : KeepsGates s t) (e : u.spar = t.spar := by rfl) : KeepsGates s u := by
  refine ⟨fun safe => ?_⟩
  unfold gatesSafe
  rw [e]
  exact h.safe safe

/-- What leaves Spar's part keeps the gates. -/
theorem Leaves.keeps (k : Leaves us t u) (hu : us.contains .spar = false) (h : KeepsGates s t) : KeepsGates s u :=
  .of_spar h (k.spar hu)

theorem KeepsGates.ite {c : Prop} [Decidable c] (ht : KeepsGates s t) (hu : KeepsGates s u) :
    KeepsGates s (if c then t else u) := by split <;> assumption

/-- A step made on a condition. -/
theorem KeepsGates.when {c : Prop} [Decidable c] (k : KeepsGates t u) (h : KeepsGates s t) :
    KeepsGates s (if c then u else t) := .ite (k.after h) h

theorem KeepsGates.forEach {α : Type} {f : State → α → State} {l : List α} (hf : ∀ u a, KeepsGates u (f u a))
    (h : KeepsGates s t) : KeepsGates s (forEach l f t) := by
  unfold Machine.forEach
  induction l generalizing t with
  | nil => exact h
  | cons a l ih => exact ih ((hf t a).after h)

/-- A step made on a condition by an operation that also answers. -/
theorem KeepsGates.ite_snd {α : Type} {c : Prop} [Decidable c] {a b : α × State}
    (ha : KeepsGates s a.2) (hb : KeepsGates s b.2) :
    KeepsGates s (if c then a else b).2 := by split <;> assumption

theorem keepsGates_of_fst {α : Type} {p : State × α} {x : α} (e : p = (t, x))
    (h : KeepsGates s p.1) : KeepsGates s t := by
  rw [e] at h
  exact h

theorem keepsGates_of_snd {α : Type} {p : α × State} {x : α} (e : p = (x, t))
    (h : KeepsGates s p.2) : KeepsGates s t := by
  rw [e] at h
  exact h

/-- A register's block that leaves Spar's part keeps the gates, whether it takes the word or not. -/
theorem keepsGates_tookOr {o : Option State} (k : LeavesOpt us s o) (hu : us.contains .spar = false) :
    KeepsGates s (tookOr s o).2 := by
  cases o with
  | none => exact .refl
  | some t => exact (k t rfl).keeps hu .refl

theorem keepsGatesOut_next (h : KeepsGates s t) : KeepsGatesOut s (.next t) := by
  intro u e
  injection e with e
  exact e ▸ h

theorem keepsGatesOut_fault {f : Fault} : KeepsGatesOut s (.fault f) := by intro t e; contradiction

theorem KeepsGatesOut.ite {c : Prop} [Decidable c] {a b : Out} (ha : KeepsGatesOut s a) (hb : KeepsGatesOut s b) :
    KeepsGatesOut s (if c then a else b) := by split <;> assumption

/-- A command that leaves Spar's part keeps the gates. -/
theorem LeavesOut.keeps {o : Out} (k : LeavesOut us s o) (hu : us.contains .spar = false) : KeepsGatesOut s o :=
  fun t e => (k t e).keeps hu .refl

end Rules

/-! ## Ports (R106, R107, R112) -/

/-- No condition of R244 reads the unmask requests. -/
theorem requestUnmask_keepsGates (s : State) (p : Nat) : KeepsGates s (requestUnmask s p) := ⟨id⟩

theorem portSync_keepsGates (s : State) (p acc : Nat) : KeepsGates s (portSync s p acc) :=
  (requestUnmask_keepsGates ..).after <| (modPort_leaves ..).keeps rfl <| (enterPort_leaves ..).keeps rfl .refl

theorem identFailLimit_keepsGates (s : State) (p : Nat) : KeepsGates s (identFailLimit s p) :=
  .ite (portSync_keepsGates ..) .refl

theorem modPort_keepsGates (s : State) (p : Nat) (f : Port → Port) : KeepsGates s (modPort s p f) :=
  (modPort_leaves ..).keeps rfl .refl

theorem acceptExchange_keepsGates (s : State) (p : Nat) (m : Meas) (b : Nat) : KeepsGates s (acceptExchange s p m b) :=
  (syncingDone_leaves ..).keeps rfl <| .when ((queueCmd_leaves ..).keeps rfl .refl) <|
  .when ((writeSettings_leaves ..).keeps rfl <| (logEv_leaves ..).keeps rfl .refl) <|
  .when (portSync_keepsGates ..) <| modPort_keepsGates ..

theorem completePort_keepsGates (s : State) (p : Nat) : KeepsGates s (completePort s p) := by
  unfold completePort
  have late : KeepsGates s (exchangeMissed s p .late) := (exchangeMissed_leaves ..).keeps rfl .refl
  refine .ite .refl (.ite ((modPort_keepsGates ..).after late) ?_)
  dsimp only
  split
  · refine .when (modPort_keepsGates ..) ?_
    split
    · exact (acceptExchange_keepsGates ..).after late
    · exact late
  · exact (missBatten_leaves ..).keeps rfl late
  · exact (missBatten_leaves ..).keeps rfl late
  · exact late
  · exact .when (modPort_keepsGates ..) <| (modPort_keepsGates ..).after late

theorem bulkFail_keepsGates (s : State) (p : Nat) : KeepsGates s (bulkFail s p) := by
  unfold bulkFail
  have ended (f : Port → Port) : KeepsGates s (modPort s p f) := modPort_keepsGates ..
  dsimp only
  split
  · exact ended _
  · exact .ite ((modPort_keepsGates ..).after (ended _)) ((missBatten_leaves ..).keeps rfl (ended _))
  · exact (identFailLimit_keepsGates ..).after <| (modPort_keepsGates ..).after (ended _)
  · exact ended _
  · exact (modPort_keepsGates ..).after (ended _)
  · exact ended _
  · exact ended _

theorem repeatAnswer_keepsGates (s : State) (p : Nat) (f : LineFrame) : KeepsGates s (repeatAnswer s p f) := by
  unfold repeatAnswer
  split
  · exact (bulkFail_keepsGates ..).after (modPort_keepsGates ..)
  · exact .ite ((markRecovered_leaves ..).keeps rfl <| (acceptExchange_keepsGates ..).after <|
        (modPort_keepsGates ..).after (modPort_keepsGates ..))
      ((missBatten_leaves ..).keeps rfl (modPort_keepsGates ..))

theorem writeAnswer_keepsGates (s : State) (p : Nat) (o : List Nat) (f : LineFrame) :
    KeepsGates s (writeAnswer s p o f) :=
  .ite ((settingsAcked_leaves ..).keeps rfl (modPort_keepsGates ..))
    (.ite (modPort_keepsGates ..) (bulkFail_keepsGates ..))

theorem bulkAnswer_keepsGates (s : State) (p : Nat) (f : LineFrame) : KeepsGates s (bulkAnswer s p f) := by
  unfold bulkAnswer
  extract_lets kind u done
  have counted : KeepsGates s u := .ite .refl (modPort_keepsGates ..)
  have failed : KeepsGates s (bulkFail u p) := (bulkFail_keepsGates ..).after counted
  have ended : KeepsGates s (done u) := (modPort_keepsGates ..).after counted
  split
  · exact counted
  · exact (repeatAnswer_keepsGates ..).after counted
  · split
    · exact (identCheck_leaves ..).keeps rfl ended
    · exact failed
  · split
    · exact (takeBurst_leaves ..).keeps rfl ended
    · exact failed
  · exact (writeAnswer_keepsGates ..).after counted
  · split
    · exact (modPort_keepsGates ..).after ended
    · exact failed
  · split
    · exact (takeProgress_leaves ..).keeps rfl ended
    · exact failed

theorem execExchangeCompletion_keepsGates (s : State) : KeepsGatesOut s (execExchangeCompletion s) :=
  .ite (keepsGatesOut_next .refl)
    (keepsGatesOut_next (.forEach completePort_keepsGates ((endSlot_leaves ..).keeps rfl .refl)))

theorem execBulkAnswerReceived_keepsGates (p : Fin 32) (f : LineFrame) (s : State) :
    KeepsGatesOut s (execBulkAnswerReceived p f s) :=
  .ite (keepsGatesOut_next .refl) (.ite (keepsGatesOut_next (modPort_keepsGates ..))
    (keepsGatesOut_next ((sendBulk_leaves ..).keeps rfl (bulkAnswer_keepsGates ..))))

theorem execBulkAnswerTimeout_keepsGates (p : Fin 32) (s : State) : KeepsGatesOut s (execBulkAnswerTimeout p s) :=
  .ite (keepsGatesOut_next .refl) (.ite (keepsGatesOut_next (modPort_keepsGates ..))
    (keepsGatesOut_next ((sendBulk_leaves ..).keeps rfl (bulkFail_keepsGates ..))))

/-! ## Spar (R243 to R257) -/

theorem raiseCauses_keepsGates (s : State) (m : BitVec 16) : KeepsGates s (raiseCauses s m) :=
  .ite .refl (.ite (.of_safe (gatesSafe_sparGates _)) (.ite (.of_safe (gatesSafe_sparGates _)) .refl))

theorem raiseCause_keepsGates (s : State) (n : Nat) : KeepsGates s (raiseCause s n) := raiseCauses_keepsGates ..

theorem execSparStartEnd_keepsGates (s : State) : KeepsGatesOut s (execSparStartEnd s) :=
  .ite (keepsGatesOut_next (.of_safe (gatesSafe_sparGates _))) (keepsGatesOut_next .refl)

theorem sparUnconfigured_keepsGates (s : State) : KeepsGates s (sparUnconfigured s) :=
  .ite (.of_safe (gatesSafe_sparGates _)) .refl

theorem execSparConfiguration_keepsGates (s : State) : KeepsGatesOut s (execSparConfiguration s) :=
  .ite (keepsGatesOut_next .refl) (keepsGatesOut_next (.of_safe (gatesSafe_sparJudge _)))

theorem execPairTestPulse_keepsGates (r : PulseTest) (s : State) : KeepsGatesOut s (execPairTestPulse r s) :=
  .ite (keepsGatesOut_next .refl)
    (.ite (keepsGatesOut_next ⟨id⟩) (keepsGatesOut_next (.of_safe (gatesSafe_sparJudge _))))

theorem execPairFault_keepsGates (i : Fin 11) (s : State) : KeepsGatesOut s (execPairFault i s) :=
  .ite (keepsGatesOut_next .refl) (keepsGatesOut_next (.when (raiseCause_keepsGates ..) ⟨id⟩))

theorem execTwoHandSkewExpiry_keepsGates (s : State) : KeepsGatesOut s (execTwoHandSkewExpiry s) :=
  .ite (keepsGatesOut_next .refl) (keepsGatesOut_next ⟨id⟩)

theorem execHandReleaseHeld_keepsGates (s : State) : KeepsGatesOut s (execHandReleaseHeld s) :=
  .ite (keepsGatesOut_next (.of_safe (gatesSafe_sparJudge _))) (keepsGatesOut_next .refl)

theorem execContactFilterChange_keepsGates (ch : Fin 22) (closed : Bool) (s : State) :
    KeepsGatesOut s (execContactFilterChange ch closed s) :=
  .ite (keepsGatesOut_next .refl) (keepsGatesOut_next (.of_safe (gatesSafe_sparJudge _)))

theorem execToneSilence_keepsGates (p : Fin 32) (s : State) : KeepsGatesOut s (execToneSilence p s) :=
  .ite (keepsGatesOut_next .refl)
    (.ite (keepsGatesOut_next ((raiseCause_keepsGates ..).after ⟨id⟩)) (keepsGatesOut_next ⟨id⟩))

theorem execTonePresent_keepsGates (p : Fin 32) (s : State) : KeepsGatesOut s (execTonePresent p s) :=
  .ite (keepsGatesOut_next .refl) (keepsGatesOut_next (.of_safe (gatesSafe_sparGates _)))

theorem execLaneSilence_keepsGates (l : Fin 5) (s : State) : KeepsGatesOut s (execLaneSilence l s) :=
  .ite (keepsGatesOut_next .refl)
    (.ite (keepsGatesOut_next ((raiseCause_keepsGates ..).after ⟨id⟩)) (keepsGatesOut_next ⟨id⟩))

theorem execLanePresent_keepsGates (l : Fin 5) (s : State) : KeepsGatesOut s (execLanePresent l s) :=
  .ite (keepsGatesOut_next .refl) (keepsGatesOut_next (.of_safe (gatesSafe_sparGates _)))

theorem execGateAgainstCommand_keepsGates (g : GateSense) (s : State) : KeepsGatesOut s (execGateAgainstCommand g s) :=
  .ite (keepsGatesOut_next .refl) (keepsGatesOut_next (.when (raiseCause_keepsGates ..) ⟨id⟩))

theorem execSparSupplyTrip_keepsGates (s : State) : KeepsGatesOut s (execSparSupplyTrip s) :=
  .ite (keepsGatesOut_next .refl)
    (keepsGatesOut_next (.when (raiseCause_keepsGates ..) (.of_safe (gatesSafe_sparGates _))))

theorem execSparReset_keepsGates (s : State) : KeepsGatesOut s (execSparReset s) :=
  .ite (keepsGatesOut_next .refl)
    (keepsGatesOut_next ((eavLost_leaves ..).keeps rfl (.of_safe (gatesSafe_of_gateCmd_zero rfl))))

/-- Safe gates of a die in reset are all off, and stay off as START begins. -/
theorem execSparResetRelease_keepsGates (s : State) : KeepsGatesOut s (execSparResetRelease s) := by
  unfold execSparResetRelease
  split
  next held =>
    have reset : s.spar.inReset = true := (Bool.and_eq_true_iff.mp held).1
    refine keepsGatesOut_next ⟨fun safe => ?_⟩
    have off : s.spar.gateCmd = 0 := gateCmd_zero_of_none safe (gateHolds_of_reset reset)
    exact gatesSafe_of_gateCmd_zero off
  next => exact keepsGatesOut_next .refl

theorem execSparClockFault_keepsGates (s : State) : KeepsGatesOut s (execSparClockFault s) :=
  .ite (keepsGatesOut_next .refl) (keepsGatesOut_next (.when (raiseCause_keepsGates ..) ⟨id⟩))

theorem execSparClockStop_keepsGates (s : State) : KeepsGatesOut s (execSparClockStop s) :=
  .ite (keepsGatesOut_next .refl) (keepsGatesOut_next (.of_safe (gatesSafe_sparGates _)))

theorem execSparClockReturn_keepsGates (s : State) : KeepsGatesOut s (execSparClockReturn s) :=
  .ite (keepsGatesOut_next .refl) (keepsGatesOut_next (.of_safe (gatesSafe_sparJudge _)))

theorem execStatusWordPresent_keepsGates (s : State) : KeepsGatesOut s (execStatusWordPresent s) :=
  .ite (keepsGatesOut_next ⟨id⟩) (keepsGatesOut_next .refl)

/-! ## Ridge and Eaves (R237, R257, R261, R292, R304) -/

/-- The first cause noted is no condition of R244. -/
theorem sparEvents_keepsGates (s : State) (w : Word) : KeepsGates s (sparEvents s w) := by
  unfold sparEvents
  extract_lets causes new first t tones u
  have logged : KeepsGates s u :=
    .forEach (fun _ _ => (logEv_leaves ..).keeps rfl .refl)
      (.forEach (fun _ _ => (logEv_leaves ..).keeps rfl .refl) .refl)
  split
  · exact .after (t := u) ⟨id⟩ logged
  · exact .of_spar logged

theorem ridgeGather_keepsGates (s : State) : KeepsGates s (ridgeGather s) := by
  unfold ridgeGather
  extract_lets reclaim seen judged cleared ended
  have see : KeepsGates s seen := by
    unfold seen
    split
    · exact sparEvents_keepsGates ..
    · exact .refl
  exact .forEach (fun _ _ => (gatherStr_leaves ..).keeps rfl .refl) <|
    .forEach (fun _ _ => (overrideEnd_leaves ..).keeps rfl <| (cooldownEnd_leaves ..).keeps rfl .refl) <|
    .forEach (fun _ _ => (clearMismatch_leaves ..).keeps rfl .refl) <| (insJudge_leaves ..).keeps rfl <| .of_spar see

theorem sparAck_keepsGates (s : State) (w : Word) : KeepsGates s (sparAck s w) := ⟨id⟩

theorem ridgeEvaluate_keepsGates (s : State) : KeepsGates s (ridgeEvaluate s) := by
  unfold ridgeEvaluate
  extract_lets a w os expired reclaim gathered answers win resets rows answered acked judged tripped reset
  clear_value w
  have rowed : KeepsGates s rows := .forEach (fun _ _ => (orderNew_leaves ..).keeps rfl <|
    (joinFigures_leaves ..).keeps rfl <| (dropResetI_leaves ..).keeps rfl <| (strRow_leaves ..).keeps rfl <|
    (besideRow_leaves ..).keeps rfl <| (joinFigures_leaves ..).keeps rfl <| (joinClear_leaves ..).keeps rfl <|
    (vergeEvent_leaves ..).keeps rfl .refl) (ridgeGather_keepsGates s)
  have answer : KeepsGates s answered := .forEach (fun _ _ => (answerOrder_leaves ..).keeps rfl .refl) rowed
  have ack : KeepsGates s acked := by
    unfold acked
    split
    · exact .ite (.of_spar <| (sparAck_keepsGates ..).after answer)
        ((resetWindowEnd_leaves ..).keeps rfl <| (sparAck_keepsGates ..).after answer)
    · exact (resetWindowEnd_leaves ..).keeps rfl answer
  exact (faultFrame_leaves ..).keeps rfl <| (settle_leaves ..).keeps rfl <| (proofsComplete_leaves ..).keeps rfl <|
    .when ((logEv_leaves ..).keeps rfl .refl) <| .when ((logEv_leaves ..).keeps rfl .refl) <|
    (plantEvent_leaves ..).keeps rfl <| (insEvent_leaves ..).keeps rfl ack

theorem applyWord_keepsGates (s : State) (w : IntentWord) : KeepsGates s (applyWord s w) :=
  .forEach (fun _ _ => (driveChan_leaves ..).keeps rfl .refl) (.of_safe (gatesSafe_sparGates _))

theorem takeWord_keepsGates (s : State) (w : IntentWord) : KeepsGates s (takeWord s w) :=
  .ite (applyWord_keepsGates ..) (.of_spar .refl)

theorem execIntentWordAccept_keepsGates (link : Option IntentWord) (s : State) :
    KeepsGatesOut s (execIntentWordAccept link s) := by
  refine .ite (keepsGatesOut_next .refl) ?_
  split
  · exact keepsGatesOut_next (takeWord_keepsGates ..)
  · exact keepsGatesOut_next ((takeWord_keepsGates ..).after (.of_spar .refl))
  · exact keepsGatesOut_next .refl

theorem execHoldWindowExpiry_keepsGates (s : State) : KeepsGatesOut s (execHoldWindowExpiry s) :=
  .ite (keepsGatesOut_next .refl)
    (keepsGatesOut_next ((channelsDown_leaves ..).keeps rfl (.of_safe (gatesSafe_sparGates _))))

theorem execVsupRestored_keepsGates (s : State) : KeepsGatesOut s (execVsupRestored s) :=
  .ite (keepsGatesOut_next .refl) (.ite (keepsGatesOut_next (.of_safe (gatesSafe_sparGates _)))
    (keepsGatesOut_next ((logEv_leaves ..).keeps rfl <| .forEach (fun _ _ => (driveChan_leaves ..).keeps rfl .refl) <|
      .of_spar (.of_safe (gatesSafe_sparGates _)))))

theorem execRidgeEvaluation_keepsGates (s : State) : KeepsGatesOut s (execRidgeEvaluation s) :=
  .ite (keepsGatesOut_next .refl) (keepsGatesOut_next (.ite
    ((ridgeEvaluate_keepsGates ..).after <| (endSlot_leaves ..).keeps rfl .refl)
    ((refuseLatched_leaves ..).keeps rfl <| (endSlot_leaves ..).keeps rfl .refl)))

/-! ## Dormant and wakes (R258, R386, R388) -/

theorem fallAsleep_keepsGates (s : State) : KeepsGates s (fallAsleep s) := by
  unfold fallAsleep
  extract_lets slept charged est pwr timed logged spar held down
  have off : KeepsGates s down :=
    (crossDrain_leaves ..).keeps rfl <| (channelsDown_leaves ..).keeps rfl <| .of_safe (gatesSafe_sparGates _)
  clear_value down
  exact .of_spar off

theorem powerCheckpoint_keepsGates (s : State) : KeepsGates s (powerCheckpoint s) :=
  .ite ((dormantTest_leaves ..).keeps rfl .refl) (.ite ((abandonEntry_leaves ..).keeps rfl .refl)
    (.when (fallAsleep_keepsGates s) .refl))

theorem wakePort_keepsGates (courses : Nat) (s : State) (p : Nat) : KeepsGates s (wakePort courses s p) :=
  (modPort_keepsGates ..).after <| .ite ((staleCells_leaves ..).keeps rfl (portSync_keepsGates ..)) .refl

theorem execWakeComplete_keepsGates (elapsed : Nat) (s : State) : KeepsGatesOut s (execWakeComplete elapsed s) :=
  .ite (keepsGatesOut_next .refl) (keepsGatesOut_next (.when ((logEv_leaves ..).keeps rfl .refl) <|
    (logEv_leaves ..).keeps rfl <| .forEach (wakePort_keepsGates _) <| (fbkWake_leaves ..).keeps rfl <|
    (canWake_leaves ..).keeps rfl <| .of_safe (gatesSafe_sparGates _)))

/-! ## Starts (R400, R421, R422) -/

/-- A string that Spar holds with nothing in service and Dormant's hold gone was held before. -/
theorem sparHeld_of_released {sp : Spar} {k : Nat} (h : sparHeld { sp with service := 0, dormant := false } k = true) :
    sparHeld sp k = true := by
  simp only [sparHeld, Bool.or_eq_true] at h ⊢
  obtain (((service | dormant) | lane) | bus) | tone := h
  · simp at service
  · contradiction
  · exact .inl (.inl (.inr lane))
  · exact .inl (.inr bus)
  · exact .inr tone

theorem gateHolds_of_released {sp : Spar} {c : Nat} (h : gateHolds sp c = true) :
    gateHolds { sp with service := 0, dormant := false } c = true := by
  have free {k : Nat} (hk : sparHeld sp k = false) : sparHeld { sp with service := 0, dormant := false } k = false :=
    Bool.eq_false_iff.mpr fun held => Bool.eq_false_iff.mp hk (sparHeld_of_released held)
  simp only [gateHolds, Bool.and_eq_true, Bool.not_eq_true'] at h ⊢
  obtain ⟨⟨⟨⟨⟨⟨⟨mode, use⟩, held⟩, request⟩, window⟩, supply⟩, clock⟩, reset⟩ := h
  exact ⟨⟨⟨⟨⟨⟨⟨mode, use⟩, free held⟩, request⟩, window⟩, supply⟩, clock⟩, reset⟩

/-- A start that resets Spar's die turns every gate off; any other leaves the gates and drops what the logic die held of
Spar: the service holds and Dormant's. -/
theorem startState_keepsGates (s : State) (kind : Nat) : KeepsGates s (startState s kind) := by
  suffices safe : gatesSafe s → gatesSafe { s with spar := sparStart s kind } from ⟨safe⟩
  intro safe
  unfold sparStart
  split
  · exact gatesSafe_of_gateCmd_zero rfl
  · exact fun c on => gateHolds_of_released (safe c on)

theorem loadPorts_keepsGates (s : State) : KeepsGates s (loadPorts s) :=
  .forEach (fun _ _ => portSync_keepsGates ..) .refl

theorem loadImage_keepsGates (s : State) (kind : Nat) (b : Bool) (im : Image) : KeepsGates s (loadImage s kind b im) :=
  (restartPair_leaves ..).keeps rfl <| (releaseHeld_leaves ..).keeps rfl <|
    .when ((nextLive_leaves ..).keeps rfl .refl) <|
  (psramTest_leaves ..).keeps rfl <| (logEv_leaves ..).keeps rfl <| (logEv_leaves ..).keeps rfl <|
  (loadPorts_keepsGates ..).after <| (loadArp_leaves ..).keeps rfl <| (loadGoose_leaves ..).keeps rfl <|
  (fbkConfigure_leaves ..).keeps rfl <| (canConfigure_leaves ..).keeps rfl <| (loadSessions_leaves ..).keeps rfl <|
  (loadChans_leaves ..).keeps rfl <| .forEach (fun _ _ => .when ((ledgerDue_leaves ..).keeps rfl .refl) .refl) <|
  (ledgerDue_leaves ..).keeps rfl <| .after (t := moduleLoad _ kind) ⟨id⟩ <| (moduleLoad_leaves ..).keeps rfl <|
  (ledgerLoad_leaves ..).keeps rfl <| .of_spar .refl

theorem loadNothing_keepsGates (s : State) (kind : Nat) : KeepsGates s (loadNothing s kind) :=
  .when ((startCommit_leaves ..).keeps rfl <| (stage_leaves ..).keeps rfl <| (moduleLoad_leaves ..).keeps rfl .refl) <|
  (logEv_leaves ..).keeps rfl <| (logEv_leaves ..).keeps rfl <| (fbkConfigure_leaves ..).keeps rfl <|
  (loadChans_leaves ..).keeps rfl <| (sparUnconfigured_keepsGates ..).after <| .of_spar .refl

theorem coldLoad_keepsGates (s : State) (kind : Nat) : KeepsGates s (coldLoad s kind) := by
  unfold coldLoad
  dsimp only
  split
  · exact .ite ((loadImage_keepsGates ..).after <| .of_spar .refl) ((loadImage_keepsGates ..).after <| .of_spar .refl)
  · exact (loadImage_keepsGates ..).after <| .of_spar .refl
  · exact (loadImage_keepsGates ..).after <| .of_spar .refl
  · exact (loadNothing_keepsGates ..).after <| .of_spar .refl

theorem coldStart_keepsGates (s : State) (kind : Nat) : KeepsGates s (coldStart s kind) :=
  (coldLoad_keepsGates ..).after <| (startState_keepsGates ..).after <|
    .ite ((cutCommit_leaves ..).keeps rfl .refl)
      ((startHold_leaves ..).keeps rfl <| (cutCommit_leaves ..).keeps rfl .refl)

theorem warmLoad_keepsGates (s : State) (kind : Nat) (target was : Bool) :
    KeepsGates s (warmLoad s kind target was) := by
  unfold warmLoad
  dsimp only
  split
  · exact (loadImage_keepsGates ..).after <| .of_spar .refl
  · split
    · exact (loadImage_keepsGates ..).after <| .of_spar .refl
    · exact (loadNothing_keepsGates ..).after <| .of_spar .refl

theorem warmStart_keepsGates (s : State) (kind : Nat) : KeepsGates s (warmStart s kind) := by
  have restarted : KeepsGates s (restartEvents s (startState (canSettle (settleCommits s)) kind)) :=
    (restartEvents_leaves ..).keeps rfl <| (startState_keepsGates ..).after <| (canSettle_leaves ..).keeps rfl <|
    (settleCommits_leaves ..).keeps rfl .refl
  exact .ite ((loadNothing_keepsGates ..).after restarted) ((warmLoad_keepsGates ..).after restarted)

theorem execWarmRestart_keepsGates (s : State) : KeepsGatesOut s (execWarmRestart s) :=
  .ite (keepsGatesOut_next (warmStart_keepsGates ..)) (.ite
    (keepsGatesOut_next ((warmStart_keepsGates ..).after <| (restartEdge_leaves ..).keeps rfl .refl))
      (keepsGatesOut_next .refl))

theorem execThermalHaltExit_keepsGates (sensors : Vector AdcSample 6) (s : State) :
    KeepsGatesOut s (execThermalHaltExit sensors s) :=
  .ite (keepsGatesOut_next .refl) (keepsGatesOut_next (.when
    ((warmStart_keepsGates ..).after <| (restartEdge_leaves ..).keeps rfl .refl) <| .of_spar <|
    (hardRound_leaves ..).keeps rfl .refl))

theorem execShipEntry_keepsGates (s : State) : KeepsGatesOut s (execShipEntry s) :=
  .ite (keepsGatesOut_next (.of_safe (gatesSafe_of_gateCmd_zero rfl))) (keepsGatesOut_next .refl)

theorem orderSoftReset_keepsGates (s : State) (who : Who) : KeepsGates s (orderSoftReset s who).2 := by
  have answered (n : Nat) : KeepsGates s (cmdResult s n) := (cmdResult_leaves ..).keeps rfl .refl
  exact .ite_snd .refl (.ite_snd (answered _) (.ite_snd (answered _) (coldStart_keepsGates ..)))

theorem pwrCommand_keepsGates (s : State) (who : Who) (code : Nat) : KeepsGates s (pwrCommand s who code).2 := by
  unfold pwrCommand
  split
  · exact (orderShip_leaves ..).keeps rfl .refl
  · exact orderSoftReset_keepsGates ..
  · split <;> exact (cmdResult_leaves ..).keeps rfl .refl

/-! ## Register writes (R309, R390) -/

/-- PWR_CMD alone of the registers reaches Spar, by a soft reset. -/
theorem applyWrite_keepsGates (s : State) (who : Who) (a : Nat) (v : Word) : KeepsGates s (applyWrite s who a v).2 := by
  unfold applyWrite
  dsimp only
  split
  · split
    · exact keepsGates_tookOr (latchOrder_leaves _ _) rfl
    · exact .refl
  · exact .of_spar .refl
  · exact keepsGates_tookOr (serviceOrder_leaves _ _ _) rfl
  · exact .of_spar .refl
  · exact (writeReinit_leaves ..).keeps rfl .refl
  · exact (ledCommand_leaves ..).keeps rfl .refl
  · exact (splitCommand_leaves ..).keeps rfl .refl
  · exact (writeEstSel_leaves ..).keeps rfl .refl
  · exact (writeZSel_leaves ..).keeps rfl .refl
  · exact (writeLedSel_leaves ..).keeps rfl .refl
  · exact keepsGates_tookOr (eavAuxcmd_leaves _ _ _) rfl
  · exact keepsGates_tookOr (eavAuxduty_leaves _ _ _ _) rfl
  · exact keepsGates_tookOr (eavAuxduty_leaves _ _ _ _) rfl
  · exact keepsGates_tookOr (eavLatchClear_leaves _ _ _) rfl
  · exact (freeSegments_leaves ..).keeps rfl .refl
  · exact keepsGates_tookOr (stageAddr_leaves _ _ _) rfl
  · exact keepsGates_tookOr (stageData_leaves _ _ _) rfl
  · exact keepsGates_tookOr (imgCommand_leaves _ _ _) rfl
  · exact keepsGates_tookOr (benchCommand_leaves _ _ _) rfl
  · exact keepsGates_tookOr (writeWakeAt_leaves _ _ _ _) rfl
  · exact keepsGates_tookOr (writeWakeAt_leaves _ _ _ _) rfl
  · exact pwrCommand_keepsGates ..
  · exact keepsGates_tookOr (cdcClear_leaves _ _ _) rfl
  · split
    · exact (writeEvtMask_leaves ..).keeps rfl .refl
    · exact .refl

theorem writeRow_keepsGates (s : State) (who : Who) (a : Nat) (v : Word) : KeepsGates s (writeRow s who a v) :=
  .ite .refl (.ite (applyWrite_keepsGates ..) .refl)

/-! ## Host messages and the Gable port (R321, R323, R339) -/

theorem applyWords_keepsGates (who : Who) (l : List (Nat × Word)) (s : State) :
    KeepsGates s (applyWords s who l).2.2.2 := by
  induction l generalizing s with
  | nil => exact .refl
  | cons x l ih =>
    obtain ⟨a, v⟩ := x
    have wrote := applyWrite_keepsGates s who a v
    unfold applyWords
    split
    next t e => exact keepsGates_of_snd e wrote
    next t e =>
      have taken : KeepsGates s t := keepsGates_of_snd e wrote
      split
      · exact taken
      · exact (ih t).after taken

theorem serveBody_keepsGates (s : State) (who : Who) (seq : Nat) (b : ReqBody) :
    KeepsGates s (serveBody s who seq b).2 := by
  cases b with
  | opening st =>
    cases who with
    | session n => exact (startDelivery_leaves ..).keeps rfl .refl
    | gable => exact .refl
  | ending =>
    cases who with
    | session n => exact (stopDelivery_leaves ..).keeps rfl .refl
    | gable => exact .refl
  | nop => exact .refl
  | read a c => exact (readData_leaves ..).keeps rfl .refl
  | write a c md d =>
    have wrote := applyWords_keepsGates who ((writeAddrs a c md).zip d) s
    unfold serveBody
    dsimp only
    split <;> exact wrote

theorem serveReq_keepsGates (s : State) (r : Req) : KeepsGates s (serveReq s r).1 := by
  unfold serveReq
  extract_lets hst taken
  have served : KeepsGates s (serveBody taken r.who r.seq r.body).2 := (serveBody_keepsGates ..).after <| .of_spar .refl
  split
  next t e => exact keepsGates_of_snd e served
  next m t e =>
    have done : KeepsGates s t := keepsGates_of_snd e served
    split
    · exact (sendMsg_leaves ..).keeps rfl done
    · exact .of_spar done

theorem serveAll_keepsGates (l : List Req) (s : State) : KeepsGates s (serveAll s l) := by
  induction l generalizing s with
  | nil => exact .refl
  | cons r l ih =>
    unfold serveAll
    split
    next t e => exact keepsGates_of_fst e (serveReq_keepsGates s r)
    next t e => exact (ih t).after (keepsGates_of_fst e (serveReq_keepsGates s r))

theorem serveNow_keepsGates (s : State) (who : Who) (seq : Nat) (b : ReqBody) :
    KeepsGates s (serveNow s who seq b) := by
  unfold serveNow
  split
  next m t e => exact (sendMsg_leaves ..).keeps rfl (keepsGates_of_snd e (serveBody_keepsGates ..))
  next t e => exact keepsGates_of_snd e (serveBody_keepsGates ..)

theorem purlin_keepsGates (s : State) (who : Who) (f : HostFrame) (m : ReqMsg) : KeepsGates s (purlin s who f m) := by
  unfold purlin
  split
  · exact .ite ((refuseAt_leaves ..).keeps rfl .refl) ((refuse_leaves ..).keeps rfl .refl)
  · refine .ite ((orderSoftReset_keepsGates ..).after <| (sendAccept_leaves ..).keeps rfl <|
      (noteAccepted_leaves ..).keeps rfl .refl) ?_
    have tested : KeepsGates s (windowTest s m).1 := (windowTest_leaves ..).keeps rfl .refl
    split
    next t st e => exact (refuse_leaves ..).keeps rfl (keepsGates_of_fst e tested)
    next t e =>
      have pass : KeepsGates s t := keepsGates_of_fst e tested
      have accepted : KeepsGates s (noteAccepted t who f m.seq (s.bat.num % 2 ^ 32)) :=
        (noteAccepted_leaves ..).keeps rfl pass
      exact .ite (.ite ((ackEvent_leaves ..).keeps rfl <| (sendAccept_leaves ..).keeps rfl accepted)
          ((serveNow_keepsGates ..).after <| (serveHost_leaves ..).keeps rfl <|
            (sendAccept_leaves ..).keeps rfl accepted))
        (.ite ((serveNow_keepsGates ..).after accepted) ((acceptReq_leaves ..).keeps rfl pass))

theorem receive_keepsGates (s : State) (f : HostFrame) : KeepsGates s (receive s f) := by
  refine .ite ((discardFrame_leaves ..).keeps rfl .refl) ?_
  split
  · exact (discardFrame_leaves ..).keeps rfl .refl
  · exact purlin_keepsGates ..

theorem gableWriteOp_keepsGates (s : State) (octets : List Byte) : KeepsGates s (gableWriteOp s octets) :=
  .ite .refl (.ite ((wakeBy_leaves ..).keeps rfl <| .of_spar .refl)
    (.ite ((discardFrame_leaves ..).keeps rfl <| (wakeBy_leaves ..).keeps rfl <| .of_spar .refl)
      ((receive_keepsGates ..).after <| (wakeBy_leaves ..).keeps rfl <| .of_spar .refl)))

theorem hostFrame_keepsGates (s : State) (f : HostFrame) : KeepsGates s (hostFrame s f) :=
  .ite (gableWriteOp_keepsGates ..) (.ite .refl (.when (.when (receive_keepsGates ..) .refl)
    ((prpHear_leaves ..).keeps rfl .refl)))

theorem execGableWrite_keepsGates (w : GableSend) (s : State) : KeepsGatesOut s (execGableWrite w s) :=
  keepsGatesOut_next (.ite ((gableReserved_leaves ..).keeps rfl .refl) (gableWriteOp_keepsGates ..))

theorem hostReservedRun_keepsGates (s : State) (e : SlotEntry) : KeepsGates s (hostReservedRun s e) :=
  (serveAll_keepsGates ..).after <| (formResults_leaves ..).keeps rfl .refl

theorem hostPoolRun_keepsGates (s : State) (e : SlotEntry) : KeepsGates s (hostPoolRun s e) :=
  (serveAll_keepsGates ..).after <| (deferReqs_leaves ..).keeps rfl .refl

/-! ## The batten (R25, R27, R33) -/

/-- The host's tasks alone reach Spar, by a soft reset written over a network. -/
theorem taskRun_keepsGates (s : State) (e : SlotEntry) (adc : AdcSample) : KeepsGates s (taskRun s e adc) := by
  unfold taskRun
  split
  · exact hostReservedRun_keepsGates ..
  · exact hostPoolRun_keepsGates ..
  · exact (gooseSlot_leaves ..).keeps rfl .refl
  · exact (gutterRoute_leaves ..).keeps rfl .refl
  · exact (histPageRun_leaves ..).keeps rfl .refl
  · exact (pageDemandRun_leaves ..).keeps rfl .refl
  · exact (learnRun_leaves ..).keeps rfl .refl
  · exact (impRun_leaves ..).keeps rfl .refl
  · exact (housekeeping_leaves ..).keeps rfl .refl
  · exact (openWireSlot_leaves ..).keeps rfl .refl
  · exact (ledgerRun_leaves ..).keeps rfl .refl
  · exact .refl

theorem startWork_keepsGates (s : State) (w : Work) (adc : AdcSample) : KeepsGates s (startWork s w adc) :=
  .ite (.of_spar .refl) ((taskRun_keepsGates ..).after <| .of_spar .refl)

theorem startNext_keepsGates (cycle : Nat) (adc : AdcSample) (l : List Work) (s : State) :
    KeepsGates s (startNext s cycle adc l) := by
  induction l generalizing s with
  | nil => exact .of_spar .refl
  | cons w l ih =>
    unfold startNext
    extract_lets bat taken stop
    have took : KeepsGates s taken := .of_spar .refl
    exact .ite ((startWork_keepsGates ..).after took) (.ite ((ih _).after <| (deferWork_leaves ..).keeps rfl took)
      (.ite (.of_spar took) ((startWork_keepsGates ..).after took)))

theorem execSlotEntryStart_keepsGates (cycle : Nat) (adc : AdcSample) (s : State) :
    KeepsGatesOut s (execSlotEntryStart cycle adc s) := by
  have ended : KeepsGates s (endRunning s cycle) := (endRunning_leaves ..).keeps rfl .refl
  exact .ite keepsGatesOut_fault (.ite (keepsGatesOut_next .refl)
    (.ite (keepsGatesOut_next ((deferRest_leaves ..).keeps rfl <| .of_spar ended))
      (keepsGatesOut_next ((startNext_keepsGates ..).after <| .of_spar ended))))

theorem execClosingCheckpoint_keepsGates (cycle : Nat) (o : CheckObs) (s : State) :
    KeepsGatesOut s (execClosingCheckpoint cycle o s) := by
  unfold execClosingCheckpoint
  refine .ite keepsGatesOut_fault (.ite (keepsGatesOut_next .refl) ?_)
  extract_lets ended bat closed checked slept
  have close : KeepsGates s closed := .ite ((ceilingWork_leaves ..).keeps rfl .refl)
    ((deferRest_leaves ..).keeps rfl <| .of_spar <| (endRunning_leaves ..).keeps rfl .refl)
  have sleep : KeepsGates s slept := .when (powerCheckpoint_keepsGates _) <| (checkpoint_leaves ..).keeps rfl close
  clear_value slept
  exact keepsGatesOut_next (.ite (.of_spar sleep) sleep)

theorem clearBatten_keepsGates (s : State) : KeepsGates s (clearBatten s) :=
  .after (t := crossDrain s) ⟨id⟩ <| (crossDrain_leaves ..).keeps rfl .refl

/-- The gates follow the service orders at the edge; what comes after them touches no condition of R244. -/
theorem edgeWork_keepsGates (s : State) : KeepsGates s (edgeWork s) := by
  unfold edgeWork
  extract_lets resumed opened served owl gated coursed closed bled cleared entered last charged kept mastered queued
  have gate : KeepsGates s gated := .of_safe (gatesSafe_sparGates _)
  have clear : KeepsGates s cleared := (latchEdge_leaves ..).keeps rfl <| (clearBatten_keepsGates _).after <|
    .forEach (fun _ _ => (bleedEdge_leaves ..).keeps rfl .refl) <| (histClose_leaves ..).keeps rfl <|
    .when ((courseEdge_leaves ..).keeps rfl .refl) gate
  have keep : KeepsGates s kept := .forEach (fun _ _ => (keepCurrent_leaves ..).keeps rfl .refl) <|
    (stopEdge_leaves ..).keeps rfl <| .forEach (fun _ _ => (pulseCharge_leaves ..).keeps rfl .refl) <|
    .forEach (fun _ _ => (downlink_leaves ..).keeps rfl .refl) <| .when ((beginLast_leaves ..).keeps rfl .refl) <|
    (entryCheck_leaves ..).keeps rfl clear
  have master : KeepsGates s mastered := .when ((chooseMaster_leaves ..).keeps rfl .refl) keep
  have queue : KeepsGates s queued := (jobRequests_leaves ..).keeps rfl master
  clear_value queued mastered
  exact .ite (.of_spar queue) (.when ((canNotFormed_leaves ..).keeps rfl .refl) master)

theorem execBattenEdge_keepsGates (s : State) : KeepsGatesOut s (execBattenEdge s) := by
  have advanced : KeepsGates s (advance s) := (advance_leaves ..).keeps rfl .refl
  exact .ite (keepsGatesOut_next .refl) (.ite (keepsGatesOut_next ((haltCores_leaves ..).keeps rfl advanced))
    (.ite (keepsGatesOut_next ((restartEdge_leaves ..).keeps rfl advanced))
      (keepsGatesOut_next ((edgeWork_keepsGates ..).after advanced))))

/-! ## The debug port (R287) -/

theorem editShared_keepsGates (s : State) (e : DebugEdit) : KeepsGates s (editShared s e) := by
  cases e with
  | memWrite a v => exact writeRow_keepsGates ..
  | regWrite _ _ => exact .refl
  | privWrite _ _ => exact .refl
  | pcWrite _ => exact .refl

theorem execDebugChange_keepsGates (e : DebugEdit) (s : State) : KeepsGatesOut s (execDebugChange e s) :=
  .ite (keepsGatesOut_next ((editShared_keepsGates ..).after <| .of_spar .refl)) (keepsGatesOut_next .refl)

/-! ## Every command -/

/-- A command either leaves Spar's part alone, by its frame, or keeps the gates by its own lemma. -/
theorem exec_keepsGates (c : Instr) (s : State) : KeepsGatesOut s (exec c s) := by
  cases c with
  | powerOn => exact keepsGatesOut_next (coldStart_keepsGates ..)
  | powerOnByWake => exact .ite (keepsGatesOut_next (coldStart_keepsGates ..)) (keepsGatesOut_next .refl)
  | startThresholdDip => exact (execStartThresholdDip_leaves s).keeps rfl
  | brownOutReset => exact .ite (keepsGatesOut_next .refl) (keepsGatesOut_next (coldStart_keepsGates ..))
  | pfailAsserted => exact (execPfailAsserted_leaves s).keeps rfl
  | pfailCleared => exact (execPfailCleared_leaves s).keeps rfl
  | battenEdge => exact execBattenEdge_keepsGates s
  | exchangeCompletion => exact execExchangeCompletion_keepsGates s
  | measFrameReceived p f => exact (execMeasFrameReceived_leaves p f s).keeps rfl
  | uplinkStartExpiry p => exact (execUplinkStartExpiry_leaves p s).keeps rfl
  | uplinkEndExpiry p => exact (execUplinkEndExpiry_leaves p s).keeps rfl
  | bulkWindowStart => exact (execBulkWindowStart_leaves s).keeps rfl
  | bulkAnswerReceived p f => exact execBulkAnswerReceived_keepsGates p f s
  | bulkAnswerTimeout p => exact execBulkAnswerTimeout_keepsGates p s
  | bulkWindowEnd => exact (execBulkWindowEnd_leaves s).keeps rfl
  | portMissLimit p => exact (execPortMissLimit_leaves p s).keeps rfl
  | syncingComplete p => exact (execSyncingComplete_leaves p s).keeps rfl
  | identFailLimit _ => exact keepsGatesOut_next (identFailLimit_keepsGates ..)
  | provingComplete p => exact (execProvingComplete_leaves p s).keeps rfl
  | serviceOut _ _ => exact keepsGatesOut_next (writeRow_keepsGates ..)
  | serviceIn _ _ => exact keepsGatesOut_next (writeRow_keepsGates ..)
  | thatchUpdate => exact (execThatchUpdate_leaves s).keeps rfl
  | deviationSignatureLimit p => exact (execDeviationSignatureLimit_leaves p s).keeps rfl
  | satelliteCheckFailLimit p => exact (execSatelliteCheckFailLimit_leaves p s).keeps rfl
  | stringCheckFailLimit k => exact (execStringCheckFailLimit_leaves k s).keeps rfl
  | blankingFailLimit p => exact (execBlankingFailLimit_leaves p s).keeps rfl
  | estimatorRunComplete estCycles => exact (execEstimatorRunComplete_leaves estCycles s).keeps rfl
  | referenceAgeExpiry cell => exact (execReferenceAgeExpiry_leaves cell s).keeps rfl
  | quietTimeReached k => exact (execQuietTimeReached_leaves k s).keeps rfl
  | tcoreExpiry cell => exact (execTcoreExpiry_leaves cell s).keeps rfl
  | ridgeEvaluation => exact execRidgeEvaluation_keepsGates s
  | close n seq strings => exact (execClose_leaves n seq strings s).keeps rfl
  | orderOpen n seq strings => exact (execOrderOpen_leaves n seq strings s).keeps rfl
  | limit n seq strings discharge value => exact (execLimit_leaves n seq strings discharge value s).keeps rfl
  | limitClear n seq strings discharge => exact (execLimitClear_leaves n seq strings discharge s).keeps rfl
  | rampAck n seq strings => exact (execRampAck_leaves n seq strings s).keeps rfl
  | lockoutAck n seq strings => exact (execLockoutAck_leaves n seq strings s).keeps rfl
  | wearOverride n seq strings => exact (execWearOverride_leaves n seq strings s).keeps rfl
  | mnSettleExpiry k => exact (execMnSettleExpiry_leaves k s).keeps rfl
  | precharge95Reached k => exact (execPrecharge95Reached_leaves k s).keeps rfl
  | prechargeSlowExpiry k => exact (execPrechargeSlowExpiry_leaves k s).keeps rfl
  | joinTestPass k => exact (execJoinTestPass_leaves k s).keeps rfl
  | joinTimeout k => exact (execJoinTimeout_leaves k s).keeps rfl
  | overlapExpiry k => exact (execOverlapExpiry_leaves k s).keeps rfl
  | rampEnd k => exact (execRampEnd_leaves k s).keeps rfl
  | rampUnacknowledged k => exact (execRampUnacknowledged_leaves k s).keeps rfl
  | sequenceExpiry k => exact (execSequenceExpiry_leaves k s).keeps rfl
  | persistenceReached k => exact (execPersistenceReached_leaves k s).keeps rfl
  | standstillCurrent k => exact (execStandstillCurrent_leaves k s).keeps rfl
  | standstillClearCourse k => exact (execStandstillClearCourse_leaves k s).keeps rfl
  | weld k => exact (execWeld_leaves k s).keeps rfl
  | prechargeCooldownExpiry k => exact (execPrechargeCooldownExpiry_leaves k s).keeps rfl
  | lockoutResetWindowExpiry => exact (execLockoutResetWindowExpiry_leaves s).keeps rfl
  | wearOverrideExpiry k => exact (execWearOverrideExpiry_leaves k s).keeps rfl
  | outputIntentWrite => exact (execOutputIntentWrite_leaves s).keeps rfl
  | limitPublication => exact (execLimitPublication_leaves s).keeps rfl
  | checkpointA obs => exact (execCheckpointA_leaves obs s).keeps rfl
  | closingCheckpoint cycle obs => exact execClosingCheckpoint_keepsGates cycle obs s
  | slotEntryStart cycle adc => exact execSlotEntryStart_keepsGates cycle adc s
  | slotWcetReached => exact (execSlotWcetReached_leaves s).keeps rfl
  | fixedSlotDeadlineMiss slot => exact (execFixedSlotDeadlineMiss_leaves slot s).keeps rfl
  | ceilingReached => exact (execCeilingReached_leaves s).keeps rfl
  | throttlePauseEnd => exact (execThrottlePauseEnd_leaves s).keeps rfl
  | dozeWake => exact (execDozeWake_leaves s).keeps rfl
  | ptpSyncReceived m => exact (execPtpSyncReceived_leaves m s).keeps rfl
  | ptpAnnounceReceived a => exact (execPtpAnnounceReceived_leaves a s).keeps rfl
  | syncLossTimeout => exact (execSyncLossTimeout_leaves s).keeps rfl
  | pdelayTimer => exact (execPdelayTimer_leaves s).keeps rfl
  | pdelayMessageReceived port m => exact (execPdelayMessageReceived_leaves port m s).keeps rfl
  | erase who targetB => exact (execErase_leaves who targetB s).keeps rfl
  | eraseComplete => exact (execEraseComplete_leaves s).keeps rfl
  | imgDataWrite who data => exact (execImgDataWrite_leaves who data s).keeps rfl
  | verify who => exact (execVerify_leaves who s).keeps rfl
  | verifyComplete => exact (execVerifyComplete_leaves s).keeps rfl
  | commit who => exact (execCommit_leaves who s).keeps rfl
  | commitWordProgrammed => exact (execCommitWordProgrammed_leaves s).keeps rfl
  | reload who => exact (execReload_leaves who s).keeps rfl
  | abandon who => exact (execAbandon_leaves who s).keeps rfl
  | warmRestart => exact execWarmRestart_keepsGates s
  | sealopenChange asserted => exact (execSealopenChange_leaves asserted s).keeps rfl
  | enterBench who => exact (execEnterBench_leaves who s).keeps rfl
  | leaveBench who => exact (execLeaveBench_leaves who s).keeps rfl
  | sparStartEnd => exact execSparStartEnd_keepsGates s
  | sparConfiguration => exact execSparConfiguration_keepsGates s
  | pairTestPulse t => exact execPairTestPulse_keepsGates t s
  | contactFilterChange ch closed => exact execContactFilterChange_keepsGates ch closed s
  | pairFault pair => exact execPairFault_keepsGates pair s
  | twoHandSkewExpiry => exact execTwoHandSkewExpiry_keepsGates s
  | handReleaseHeld => exact execHandReleaseHeld_keepsGates s
  | toneSilence p => exact execToneSilence_keepsGates p s
  | tonePresent p => exact execTonePresent_keepsGates p s
  | laneSilence l => exact execLaneSilence_keepsGates l s
  | lanePresent l => exact execLanePresent_keepsGates l s
  | gateAgainstCommand g => exact execGateAgainstCommand_keepsGates g s
  | sparSupplyTrip => exact execSparSupplyTrip_keepsGates s
  | sparReset => exact execSparReset_keepsGates s
  | sparClockFault => exact execSparClockFault_keepsGates s
  | sparClockStop => exact execSparClockStop_keepsGates s
  | sparClockReturn => exact execSparClockReturn_keepsGates s
  | statusWordPresent => exact execStatusWordPresent_keepsGates s
  | intentWordAccept link => exact execIntentWordAccept_keepsGates link s
  | intentGapTimeout => exact (execIntentGapTimeout_leaves s).keeps rfl
  | coreResetSignal => exact (execCoreResetSignal_leaves s).keeps rfl
  | holdWindowExpiry => exact execHoldWindowExpiry_keepsGates s
  | pullInEnd ch => exact (execPullInEnd_leaves ch s).keeps rfl
  | channelShort ch => exact (execChannelShort_leaves ch s).keeps rfl
  | channelOverTemperature ch => exact (execChannelOverTemperature_leaves ch s).keeps rfl
  | thermalLatchRelease ch => exact (execThermalLatchRelease_leaves ch s).keeps rfl
  | openLoadOnChange ch found => exact (execOpenLoadOnChange_leaves ch found s).keeps rfl
  | offStateTest aboveTest nearSupply => exact (execOffStateTest_leaves aboveTest nearSupply s).keeps rfl
  | retryDue ch => exact (execRetryDue_leaves ch s).keeps rfl
  | attemptProven ch => exact (execAttemptProven_leaves ch s).keeps rfl
  | clampEvent ch => exact (execClampEvent_leaves ch s).keeps rfl
  | vsupLow => exact (execVsupLow_leaves s).keeps rfl
  | vsupRestored => exact execVsupRestored_keepsGates s
  | eavLatchClear _ _ => exact keepsGatesOut_next (writeRow_keepsGates ..)
  | eavAuxcmdWrite _ _ => exact keepsGatesOut_next (writeRow_keepsGates ..)
  | outputGateCompare part lead check => exact (execOutputGateCompare_leaves part lead check s).keeps rfl
  | outputGateTimeout part => exact (execOutputGateTimeout_leaves part s).keeps rfl
  | agreementRead input lead check => exact (execAgreementRead_leaves input lead check s).keeps rfl
  | watchdog cause => exact (execWatchdog_leaves cause s).keeps rfl
  | corePairRestartComplete test => exact (execCorePairRestartComplete_leaves test s).keeps rfl
  | split _ _ _ => exact keepsGatesOut_next (writeRow_keepsGates ..)
  | rejoin _ => exact keepsGatesOut_next (writeRow_keepsGates ..)
  | splitDurationExpiry => exact (execSplitDurationExpiry_leaves s).keeps rfl
  | splitJobComplete ok => exact (execSplitJobComplete_leaves ok s).keeps rfl
  | debugInstruction op => exact (execDebugInstruction_leaves op s).keeps rfl
  | debugChange edit => exact execDebugChange_keepsGates edit s
  | sessionOpen _ => exact keepsGatesOut_next (hostFrame_keepsGates ..)
  | sessionEnd _ => exact keepsGatesOut_next (hostFrame_keepsGates ..)
  | readRequest _ => exact keepsGatesOut_next (hostFrame_keepsGates ..)
  | writeRequest _ => exact keepsGatesOut_next (hostFrame_keepsGates ..)
  | eventAck _ => exact keepsGatesOut_next (hostFrame_keepsGates ..)
  | nopRequest _ => exact keepsGatesOut_next (hostFrame_keepsGates ..)
  | eventResendTimeout n => exact (execEventResendTimeout_leaves n s).keeps rfl
  | sessionIdleTimeout n => exact (execSessionIdleTimeout_leaves n s).keeps rfl
  | gableStatus => exact (execGableStatus_leaves s).keeps rfl
  | gableWrite w => exact execGableWrite_keepsGates w s
  | gableRead octetsClocked => exact (execGableRead_leaves octetsClocked s).keeps rfl
  | arpRequest port target src => exact (execArpRequest_leaves port target src s).keeps rfl
  | icmpEchoRequest port target src payload => exact (execIcmpEchoRequest_leaves port target src payload s).keeps rfl
  | linkPoll a b => exact (execLinkPoll_leaves a b s).keeps rfl
  | prpSupervisionTimer => exact (execPrpSupervisionTimer_leaves s).keeps rfl
  | prpSingleLanTimeout mac => exact (execPrpSingleLanTimeout_leaves mac s).keeps rfl
  | gooseFrameReceived g => exact (execGooseFrameReceived_leaves g s).keeps rfl
  | gooseSubscriptionLost k => exact (execGooseSubscriptionLost_leaves k s).keeps rfl
  | gooseRepeat k => exact (execGooseRepeat_leaves k s).keeps rfl
  | canTransmitTime c => exact (execCanTransmitTime_leaves c s).keeps rfl
  | canFrameComplete c e => exact (execCanFrameComplete_leaves c e s).keeps rfl
  | canDeadline c => exact (execCanDeadline_leaves c s).keeps rfl
  | canFrameReceived c f => exact (execCanFrameReceived_leaves c f s).keeps rfl
  | canAckError n => exact (execCanAckError_leaves n s).keeps rfl
  | canBusOffRecovery c => exact (execCanBusOffRecovery_leaves c s).keeps rfl
  | canIntegration c => exact (execCanIntegration_leaves c s).keeps rfl
  | vergeFrameReceived f => exact (execVergeFrameReceived_leaves f s).keeps rfl
  | vergeFrameDeadline k => exact (execVergeFrameDeadline_leaves k s).keeps rfl
  | vergePowerUp delay => exact (execVergePowerUp_leaves delay s).keeps rfl
  | hvsClockFault => exact (execHvsClockFault_leaves s).keeps rfl
  | comparatorActive l => exact (execComparatorActive_leaves l s).keeps rfl
  | comparatorRelease l => exact (execComparatorRelease_leaves l s).keeps rfl
  | insulationCycleEnd c => exact (execInsulationCycleEnd_leaves c s).keeps rfl
  | feedbackLineChange ch ls => exact (execFeedbackLineChange_leaves ch ls s).keeps rfl
  | feedbackStandstill ch => exact (execFeedbackStandstill_leaves ch s).keeps rfl
  | ledgerCommitComplete readbackOk => exact (execLedgerCommitComplete_leaves readbackOk s).keeps rfl
  | resetPort _ _ => exact keepsGatesOut_next (writeRow_keepsGates ..)
  | resetContactor _ _ _ => exact keepsGatesOut_next (writeRow_keepsGates ..)
  | pageTransferComplete => exact (execPageTransferComplete_leaves s).keeps rfl
  | pageQueueEntryExpiry => exact (execPageQueueEntryExpiry_leaves s).keeps rfl
  | segmentFreeze => exact (execSegmentFreeze_leaves s).keeps rfl
  | pgrFclearWrite _ _ => exact keepsGatesOut_next (writeRow_keepsGates ..)
  | estSelWrite _ _ => exact keepsGatesOut_next (writeRow_keepsGates ..)
  | estReinitWrite _ _ _ => exact keepsGatesOut_next (writeRow_keepsGates ..)
  | estZselWrite _ _ _ => exact keepsGatesOut_next (writeRow_keepsGates ..)
  | ledCselWrite _ _ => exact keepsGatesOut_next (writeRow_keepsGates ..)
  | hstEvtmaskWrite _ _ _ _ => exact keepsGatesOut_next (writeRow_keepsGates ..)
  | pwrWakeatWrite who value => exact (execPwrWakeatWrite_leaves who value s).keeps rfl
  | cdcOvrClear _ _ => exact keepsGatesOut_next (writeRow_keepsGates ..)
  | batCountLoRead who => exact (execBatCountLoRead_leaves who s).keeps rfl
  | gtrEntryRead who index => exact (execGtrEntryRead_leaves who index s).keeps rfl
  | readClearRegister who addr => exact (execReadClearRegister_leaves who addr s).keeps rfl
  | registerWrite _ _ _ => exact keepsGatesOut_next (writeRow_keepsGates ..)
  | ship _ => exact keepsGatesOut_next (writeRow_keepsGates ..)
  | shipEntry => exact execShipEntry_keepsGates s
  | softReset _ => exact keepsGatesOut_next (.ite (orderSoftReset_keepsGates ..) (writeRow_keepsGates ..))
  | dormantEntry => exact (execDormantEntry_leaves s).keeps rfl
  | dormantEntryAbandon => exact (execDormantEntryAbandon_leaves s).keeps rfl
  | wakeSource src => exact (execWakeSource_leaves src s).keeps rfl
  | aonWakeTimer => exact (execAonWakeTimer_leaves s).keeps rfl
  | wakeComplete elapsed => exact execWakeComplete_keepsGates elapsed s
  | wakeRoundEnd => exact (execWakeRoundEnd_leaves s).keeps rfl
  | thermalStopOpening k => exact (execThermalStopOpening_leaves k s).keeps rfl
  | thermalHalt sensors => exact (execThermalHalt_leaves sensors s).keeps rfl
  | thermalHaltExit sensors => exact execThermalHaltExit_keepsGates sensors s
  | crossingWakeRequest k => exact (execCrossingWakeRequest_leaves k s).keeps rfl
  | vholdOkChange ok => exact (execVholdOkChange_leaves ok s).keeps rfl
  | sparResetRelease => exact execSparResetRelease_keepsGates s
  | vergePowerLoss => exact (execVergePowerLoss_leaves s).keeps rfl
  | canReceiveError c e => exact (execCanReceiveError_leaves c e s).keeps rfl
  | prpSupervisionFrameReceived lanB src => exact (execPrpSupervisionFrameReceived_leaves lanB src s).keeps rfl

end Sys2Proof.Machine
end

section
namespace Sys2Proof

open Machine

/-- Settles O19: the queue aside a step is one command, and every command keeps the gates to R244. -/
theorem stepKeepsGatesSafe : Obligations.StepKeepsGatesSafe := by
  unfold Obligations.StepKeepsGatesSafe
  intro s t safe run
  cases queue : s.pending with
  | nil =>
    rw [step, queue] at run
    injection run with same
    exact same ▸ safe
  | cons c rest =>
    rw [step, queue] at run
    exact (exec_keepsGates c { s with pending := rest } t run).safe safe

end Sys2Proof
end
